-- ==== Sys2Proof/Word.lean ====
section
/-! DEFINITION. The word types of the E9640 (R6: a word is 32 bits) and the plainest conversions between words,
bytes and fields (R7: little-endian; R8: bit 0 is the least significant). -/
namespace Sys2Proof

/-- A word, 32 bits (R6). -/
abbrev W := BitVec 32
/-- A byte. -/
abbrev Byte := BitVec 8
/-- A scalar register number g0–g15 (R44). -/
abbrev Reg := Fin 16
/-- An engine in the order CE, PS0–PS3, ME (R81, R475). -/
abbrev Eng := Fin 6
/-- A sensor port SP0–SP3. -/
abbrev Port := Fin 4
/-- A hearth lane L00–L95. -/
abbrev LaneNo := Fin 96

/-- The field `w[hi:lo]` as a number (R8). -/
def fld (w : W) (hi lo : Nat) : Nat := (w.toNat / 2 ^ lo) % 2 ^ (hi - lo + 1)

/-- The bit `w[n]` (R8). -/
def bitOf (w : W) (n : Nat) : Bool := w.getLsbD n

/-- A word from a number, modulo 2^32. -/
def wn (n : Nat) : W := BitVec.ofNat 32 n

/-- A word from an integer, two's complement, modulo 2^32. -/
def wi (x : Int) : W := BitVec.ofInt 32 x

/-- One bit as a number. -/
def b2n (b : Bool) : Nat := if b then 1 else 0

/-- The four bytes of a word, least significant first (R7). -/
def wordBytes (w : W) : List Byte :=
  [w.extractLsb' 0 8, w.extractLsb' 8 8, w.extractLsb' 16 8, w.extractLsb' 24 8]

/-- A word from four bytes, least significant first (R7). -/
def word4 (b0 b1 b2 b3 : Byte) : W :=
  wn (b0.toNat + 2 ^ 8 * b1.toNat + 2 ^ 16 * b2.toNat + 2 ^ 24 * b3.toNat)

/-- The words of a byte string, four bytes each; a last partial word is completed with zero bytes. -/
def bytesWords : List Byte → List W
  | [] => []
  | b0 :: b1 :: b2 :: b3 :: r => word4 b0 b1 b2 b3 :: bytesWords r
  | b0 :: b1 :: b2 :: [] => [word4 b0 b1 b2 0]
  | b0 :: b1 :: [] => [word4 b0 b1 0 0]
  | b0 :: [] => [word4 b0 0 0 0]

/-- The bytes of a list of words. -/
def wordsBytes (ws : List W) : List Byte := ws.flatMap wordBytes

/-- The element at `i`, or the zero word beyond the end. -/
def nthW (ws : List W) (i : Nat) : W := ws.getD i 0

end Sys2Proof
end

