-- ==== Sys2Proof/Syntax.lean ====
section
/-! DEFINITION. The commands of the E9640 block: one constructor of `Instr` per row of the table of operations and
events. A row's operands are what its rule names: the acting unit, the instruction's fields (R47), an address, a value, a
packet, a measured quantity. -/
namespace Sys2Proof

/-- Who executes a Zhomunyx instruction: an engine (its running context) or a lane (R41). -/
inductive Agent where
  | eng (e : Eng)
  | lane (l : LaneNo)
deriving DecidableEq, Repr

/-- What is wrong with a fetched Zhomunyx word: nothing, a reserved opcode, function, field or bit (R48, R49), or a service code
that the table does not give (R70). -/
inductive Flaw where
  | none
  | reserved
  | service
deriving DecidableEq, Repr

/-- What every Zhomunyx instruction carries: the executing agent, and what is wrong with the fetched word. -/
structure Zx where
  agent : Agent
  flaw : Flaw
deriving DecidableEq, Repr

/-- The check of a packet header's ECC (R114, R128). -/
inductive Ecc where
  | ok
  | corrected
  | bad
deriving DecidableEq, Repr

/-- A long image packet as the receiver sees it (R114, R121, R128): data type, virtual channel, header check, payload
check, how many payload bytes entered the input FIFO (R127; none: all), and the payload. -/
structure RowPkt where
  dt : BitVec 6
  vc : BitVec 2
  ecc : Ecc
  crcOk : Bool
  fifo : Option Nat
  payload : List Byte
deriving DecidableEq, Repr

/-- How a host frame's select was released (R402): whole, inside the command or the address, inside a word, or with
stray clock edges. -/
inductive Cut where
  | whole
  | address
  | word
deriving DecidableEq, Repr

/-- What a bellows self-test pulse measures (R371), in mA: the least and the greatest channel current over its last 0.5 ms, the greatest
difference between it and the switch current, and the channel current 0.2 ms after switch-off. -/
structure PulseResult where
  low : Nat
  high : Nat
  apart : Nat
  after : Nat
deriving DecidableEq, Repr

/-- What a self-trim pass measures over 25,000 REFCLK cycles (R232, R355, R456, R457): DCO counts of the running clusters; the RC oscillator's
count, and the code that then holds it at 100 MHz. The modulators are measured by conversions of their own (SEXTANT_CONVERSION). -/
structure TrimMeas where
  dcoCount : List Nat
  rcCount : Nat
  rcCode : BitVec 10
deriving DecidableEq, Repr

/-- The voltages, in nV, that the Sextant can select (R342): AIN0–AIN31 against analog ground, VREFX, the ratiometric reference
V(RXREFP) − V(RXREFN), the internal reference, the rails of internal 2 to 7, and the analog-die temperature diode. -/
structure SxPins where
  ain : List Int
  vrefx : Int
  rxref : Int
  vint : Int
  vdda : Int
  vact : Int
  core : Int
  stk : Int
  vpp : Int
  phy : Int
  diode : Int
deriving DecidableEq, Repr

/-- What one conversion meets (R343, R344, R351, R355, R357): the voltages it may select, the error of the modulator itself in raw codes (its
offset and gain, which the trims correct), when it ends, µs, a loop overload, a pin above its compliance limit, and a failed residue check
of the decimator. -/
structure RawConv where
  pins : SxPins
  err : Int
  endUs : Nat
  overload : Bool
  compliance : Bool
  residueFail : Bool
deriving DecidableEq, Repr

/-- What a received link frame says beside its payload (R314, R315): sequence number, acknowledgement, and whether its CRC is
right; where a command leaves it out, a good frame numbered 0. -/
structure RxHdr where
  seq : Byte := 0
  ack : Byte := 0
  crcOk : Bool := true
deriving DecidableEq, Repr

/-- One entry of a DIGEST frame (R327): tile number, CRC and flags. -/
structure DigestEntry where
  tile : Nat
  crc : W
  flags : BitVec 3
deriving DecidableEq, Repr

/-- The port state that a bulk resync copies (R333): destripe offsets, slot rotation and descriptors (count, shift, valid), zones (state,
counter, entry, alarms, maxima), tone curve, SGEN, EGEN and the port's fields of block 0x001. -/
structure ResyncState where
  col : List (Nat × Int)
  rowOff : List (Nat × Int)
  slotOrder : List (Fin 4)
  slots : List (W × Nat × Bool)
  zones : List (Fin 4 × Nat × BitVec 16 × Nat × List Nat)
  curve : List Byte
  sgen : BitVec 16
  egen : W
  fields : List W
deriving DecidableEq, Repr

/-- A resync row as STATE carries it (R329, R333): the records and frame-slot words of one row, and with a port's first row its port
state. -/
structure ResyncRow where
  port : Port
  row : Nat
  frame : W
  records : List Byte
  slots : List (List W)
  portState : Option ResyncState
  /-- The poisoned words of the row (R247): 64-bit words of the records and of the slots, numbered in that order. -/
  poison : List Nat := []
deriving DecidableEq, Repr

/-- The commands of the block. -/
inductive Instr where
  -- 02 The Zhomunyx instruction set
  | add (z : Zx) (f : Bool) (d a b : Reg)
  | sub (z : Zx) (f : Bool) (d a b : Reg)
  | and (z : Zx) (f : Bool) (d a b : Reg)
  | or (z : Zx) (f : Bool) (d a b : Reg)
  | xor (z : Zx) (f : Bool) (d a b : Reg)
  | shl (z : Zx) (f : Bool) (d a b : Reg)
  | shr (z : Zx) (f : Bool) (d a b : Reg)
  | sra (z : Zx) (f : Bool) (d a b : Reg)
  | mul (z : Zx) (f : Bool) (d a b : Reg)
  | mulh (z : Zx) (f : Bool) (d a b : Reg)
  | min (z : Zx) (f : Bool) (d a b : Reg)
  | max (z : Zx) (f : Bool) (d a b : Reg)
  | clamp (z : Zx) (f : Bool) (d a b : Reg)
  | sel (z : Zx) (cond : BitVec 4) (d a b : Reg)
  | addi (z : Zx) (d a : Reg) (imm : BitVec 18)
  | andi (z : Zx) (d a : Reg) (imm : BitVec 18)
  | ori (z : Zx) (d a : Reg) (imm : BitVec 18)
  | xori (z : Zx) (d a : Reg) (imm : BitVec 18)
  | shli (z : Zx) (d a : Reg) (sh : BitVec 6)
  | shri (z : Zx) (d a : Reg) (sh : BitVec 6)
  | srai (z : Zx) (d a : Reg) (sh : BitVec 6)
  | lui (z : Zx) (d : Reg) (imm : BitVec 18)
  | cmpi (z : Zx) (a : Reg) (imm : BitVec 18)
  | ldW (z : Zx) (d a : Reg) (imm : BitVec 18)
  | ldH (z : Zx) (d a : Reg) (imm : BitVec 18)
  | ldHs (z : Zx) (d a : Reg) (imm : BitVec 18)
  | ldB (z : Zx) (d a : Reg) (imm : BitVec 18)
  | ldBs (z : Zx) (d a : Reg) (imm : BitVec 18)
  | stW (z : Zx) (d a : Reg) (imm : BitVec 18)
  | stH (z : Zx) (d a : Reg) (imm : BitVec 18)
  | stB (z : Zx) (d a : Reg) (imm : BitVec 18)
  | ldPb (z : Zx) (d a : Reg) (imm : BitVec 18)
  | param (z : Zx) (d a : Reg) (imm : BitVec 18)
  | commit (z : Zx) (blk : BitVec 10)
  | bcc (z : Zx) (cond : BitVec 4) (off : BitVec 22)
  | call (z : Zx) (cond : BitVec 4) (off : BitVec 22)
  | ret (z : Zx) (a : Reg)
  | loop (z : Zx) (a : Reg) (imm : BitVec 18)
  | wait (z : Zx) (d a : Reg)
  | waitResume (ag : Agent) (c : Fin 4)
  | yield (z : Zx)
  | mer (z : Zx) (d : Reg) (imm : BitVec 18)
  | merResume (e : Eng) (c : Fin 4)
  | send (z : Zx) (a : Reg) (ch dst : Fin 16)
  | sendUnblock (e : Eng) (c : Fin 4)
  | messageDelivery (e : Eng) (k : Nat)
  | recv (z : Zx) (d : Reg) (ch : Fin 16) (nb : Bool)
  | recvResume (e : Eng) (c : Fin 4)
  | tileLd (z : Zx) (d a b : Reg)
  | tileSt (z : Zx) (d a b : Reg)
  | tileTransferComplete (ag : Agent) (c : Fin 4) (tag : Fin 4)
  | svcStartTransit (z : Zx) (d a : Reg)
  | svcSelfTest (z : Zx) (d a : Reg)
  | svcNoteRecord (z : Zx) (d a : Reg)
  | svcRequestRetirement (z : Zx) (d a : Reg)
  | svcReadAgreedTime (z : Zx) (d a : Reg)
  | post (z : Zx) (imm : BitVec 18)
  | vld (z : Zx) (p : Fin 4) (vd : Fin 8) (g : Reg) (mode : Fin 4) (off : BitVec 9)
  | vst (z : Zx) (p : Fin 4) (vd : Fin 8) (g : Reg) (mode : Fin 4) (off : BitVec 9)
  | vadd (z : Zx) (p : Fin 4) (vd va vb : Fin 8) (mode : Fin 4)
  | vsub (z : Zx) (p : Fin 4) (vd va vb : Fin 8) (mode : Fin 4)
  | vmul (z : Zx) (p : Fin 4) (vd va vb : Fin 8) (sh : BitVec 5) (mode : Fin 4) (u32 : Bool)
  | vmac (z : Zx) (p : Fin 4) (vd va vb : Fin 8) (sh : BitVec 5) (mode : Fin 4) (u32 sub : Bool)
  | vpoly (z : Zx) (p : Fin 4) (vd va vb : Fin 8) (s1 s2 : BitVec 5) (sub : Bool)
  | vmed3 (z : Zx) (p : Fin 4) (vd va vb : Fin 8) (uns : Bool)
  | vclamp (z : Zx) (p : Fin 4) (vd va vb : Fin 8) (uns : Bool)
  | vsel (z : Zx) (p : Fin 4) (vd va vb : Fin 8)
  | vcmp (z : Zx) (p : Fin 4) (va vb : Fin 8) (cond : Fin 8) (conj : Bool)
  | vshr (z : Zx) (p : Fin 4) (vd va : Fin 8) (sh : BitVec 5) (mode : Fin 4) (width : BitVec 5) (sgn round : Bool)
  | vsat (z : Zx) (p : Fin 4) (vd va : Fin 8) (width : BitVec 5) (sgn : Bool)
  -- 03 Engines, parameter blocks and the host command queue
  | resetRelease (bootsel : BitVec 2) (role : Bool)
  | bootLoadComplete (copy0 copy1 : List Byte)
  | bootImageTimeout
  | meRestartDone
  | go
  | loadGoDone
  | startEngine (code : Fin 16)
  | stopEngine (code : Fin 16)
  | abortStop (code : Fin 16)
  | loadWindowWrite (off : BitVec 16) (ws : List W)
  | cmdSubmit (addr : W) (ws : List W)
  | cmdEntryDeliver
  | completionPlace
  | cplCiWrite (v : W)
  | paramBlockIdleApply (blk : BitVec 10)
  -- 04 Sensor ports
  | frameStart (p : Port) (vc : BitVec 2) (ecc : Ecc) (fno : BitVec 16)
  | frameEnd (p : Port) (vc : BitVec 2) (ecc : Ecc) (fno : BitVec 16)
  | frameTimeout (p : Port)
  | stallTimeout (p : Port)
  | lineStart (p : Port) (vc : BitVec 2) (ecc : Ecc) (num : BitVec 16)
  | rowPacket (p : Port) (k : RowPkt)
  | embeddedData (p : Port) (k : RowPkt)
  | hsSyncError (p : Port) (align : Bool) (dt : BitVec 6)
  | skewCalibration (p : Port)
  | ulpsTransition (p : Port)
  | settingsWindowClose (p : Port)
  | portSelfTest (p : Port)
  -- 05, 06 Hearth, radiometry, statistics
  | hearthInvocation (p : Port) (tail : Bool) (l : LaneNo) (row col : Nat) (whole : Bool)
  | radiometricRow (p : Port) (tail : Bool) (l : LaneNo) (row : Nat)
  | statsNotifyDeliver (p : Port)
  | frameDeadline (p : Port)
  | invocationTimeout (l : LaneNo)
  -- 07 Transit, reference and trim
  | transitCloseTimeout
  | transitOpenTimeout
  | transitAccumulate (l : LaneNo) (row col : Nat)
  | transitFinish (l : LaneNo) (row col : Nat)
  | transitStagingComplete
  | transitMergeRow (p : Port) (row : Nat)
  | productionLoadDone (flash : List (Nat × List Byte)) (readError : Option (Fin 4))
  | selfTrimPass (m : TrimMeas)
  -- 08 The stacked store
  | rowCopyDone (ch bank : Fin 16) (row : BitVec 13)
  | rowCopyBackDone (ch bank : Fin 16) (row : BitVec 13)
  | migrationBlockMove
  | scrubRead (addr : W)
  | scrubLate
  | apertureWrite (addr : W) (ws : List W)
  | apertureRead (addr : W) (n : Nat)
  -- 09 Chimney outputs
  | streamFrameStart (st : Fin 8)
  | streamLineSend (st : Fin 8)
  | txPacket (x : Fin 2)
  | txUlpsEntry (x : Fin 2)
  -- 10 Faults
  | unitDrained (u : W)
  | selfTestDone (u : W) (pass : Bool) (leftUs : Nat) (wide : Bool := false)
  | sensorRecheck (t : Fin 48) (reading : BitVec 16)
  | fmMapClear (v : W)
  -- 11 Twin operation
  | heartbeatSend
  | heartbeat (w0 w1 w2 w3 : W) (h : RxHdr := {})
  | hello (ws : List W) (h : RxHdr := {})
  | propose (ws : List W) (h : RxHdr := {})
  | agreeSend (p : Port)
  | agree (ws : List W) (h : RxHdr := {})
  | digest (p : Port) (frame : W) (es : List DigestEntry) (portCrc : Option W) (h : RxHdr := {})
  | outcome (p : Port) (tile : W) (frame : W) (laneFail tileFail : Bool) (h : RxHdr := {})
  | state (r : Option ResyncRow) (h : RxHdr := {})
  | resyncRowInstall (p : Port) (row : Nat)
  | resyncRowSend (p : Port) (row : Nat)
  | almanac (ws : List W) (h : RxHdr := {})
  | nvwrite (page : Fin 768) (off : BitVec 8) (bs : List Byte) (h : RxHdr := {})
  | msg (ch : Fin 16) (w : W) (h : RxHdr := {})
  | image (bs : List Byte) (h : RxHdr := {})
  | ack (h : RxHdr)
  | ackSend
  | linkResend
  | linkTrained (request : Option (List Byte) := none)
  | linkRetrain
  | pairingTimeout
  | partnerLost
  | peerOwnerChange (level : Bool)
  | ownerWatchdogExpire
  -- 12 The Sextant
  | sextantTrigger (m : Fin 8) (timeUs : Nat)
  | sequenceStart (m : Fin 8)
  | sextantConversion (m : Fin 8) (c : RawConv)
  | sextantDrain (m : Fin 8)
  | resLoRead (m : Fin 8)
  | accLoRead (m : Fin 8)
  | lastLoRead (e : BitVec 8)
  | sxAccClr (v : W)
  -- 13 Bellows drive
  | bellowsLoopPeriod (c : Fin 8) (ma : BitVec 16)
  | pullInEnd (c : Fin 8) (ma : BitVec 16)
  | holdEnd (c : Fin 8)
  | releaseEnd (c : Fin 8)
  | openSettleEnd (c : Fin 8)
  | positionReport (c : Fin 8) (level : Bool)
  | testPulseEnd (c : Fin 8) (r : PulseResult)
  | bellowsOvercurrent (c : Fin 8)
  | bellowsRegulationError (c : Fin 8)
  | switchFault (k : Fin 4)
  -- 14 Heat, dampers and power
  | sensorReading (t : Fin 48) (reading : BitVec 16)
  | stageUp (zn : Fin 4)
  | stageDown (zn : Fin 4)
  | powerFail
  | railUndervoltage (rail : Fin 9)
  | handoverDone
  | logicDiePowerLoss (counters : Bool) (records : Nat)
  | powerFailRelease (bootsel : BitVec 2) (role : Bool)
  | powerOnReset (groups : Nat)
  | deviceReset
  -- 15 Serial ports
  | hostWriteSingle (addr : W) (ws : List W) (cut : Cut)
  | hostWriteQuad (addr : W) (ws : List W) (cut : Cut)
  | hostReadSingle (addr : W) (n : Nat) (cut : Cut)
  | hostReadQuad (addr : W) (n : Nat) (cut : Cut)
  | hostStatus (n : Nat)
  | hostUnknownCommand (cmd : Byte)
  | hostWriteApply
  | hrdyTimeout
  | mp0CommandStart
  | mp0CommandDone (bs : List Byte)
  | mp0PollTimeout
  | mp0Hgo (v : W)
  | mp0CfgWrite (rdcmd : Bool) (v : W)
  | mp1TransferStart (sinceUs10 : List Nat) (rested : BitVec 8)
  | mp1TransferEnd (rx : List Byte) (late : Bool)
  | mp1ReadyTimeout
  | mpSwsel (v : W)
  -- 16 Almanac and NV store
  | almanacRecordEnter
  | nvPageWriteDone
  | flush
  | almClear (v : W)
  | almWinLastRead
  | nvWinWrite (off : BitVec 8) (ws : List W)
  | nvPwinWrite (off : BitVec 8) (ws : List W)
  | nvUnlock (ws : List W)
  | nvLock (v : W)
  | nvPwset (ws : List W)
  | nvSecWrite (off : BitVec 8) (ws : List W)
  | nvLockoutEnd (r : Fin 4) (write : Bool)
  | counterSave
  | optimeTick
  -- 17 Clocks
  | refclkLost
  | refclkRestored
  | pllLocked (k : Fin 4)
  | portClockSwitch (p : Port) (backup : Bool)
  | dcoRestart (k : Fin 12)
  | islandResetRelease (i : Fin 23)
  -- 18 Laeno
  | laenoPacketSend
  | laenoSync
  | laenoCounterSample
  | laenoCtlWrite (v : W)
  -- latching reads
  | counterLoRead (i : Fin 512)
  | stkCeLoRead
  | twinPeerSnLoRead
  | serialLoRead
  | optimeLoRead
  | agreedLoRead
  -- later rows
  | storeInitDone
  | pfailNRise (bootsel : BitVec 2) (role : Bool) (inRange : Bool := true)
  | sensorReadingMissing (t : Fin 48)
  | pllLockLost (k : Fin 4)
  | islandClockOutOfRange (fabric : Bool)
  | vactUndervoltage (low : Bool)
  | ownerWatchdogRefresh
  | pwrVcoreUpdate (mv : BitVec 10)
  | retryBudgetOverrun (u : W)
  | tileInterlockStall (l : LaneNo)
deriving DecidableEq, Repr

end Sys2Proof
end

