-- ==== Sys2Proof/WellFormed.lean ====
section
/-! DEFINITION. Which commands are well formed: the lengths that the manual gives a command's list operands. Every meaning is total on
ill-formed operands as well (a missing word reads as zero), which only adds behaviour (log entry 1). -/
namespace Sys2Proof

/-- A link frame's payload: a multiple of 8 bytes, at most 2,048 (R314). -/
def linkWords (n : Nat) : Bool := n % 2 == 0 && decide (n ≤ 512)

/-- A packet's payload fits its 16-bit byte count (R114, R121). -/
def RowPkt.wf (k : RowPkt) : Bool := decide (k.payload.length < 2 ^ 16)

/-- A self-trim pass measures 12 clusters (R232, R456). -/
def TrimMeas.wf (m : TrimMeas) : Bool := m.dcoCount.length == 12

/-- A conversion sees all 32 AIN pins (R342). -/
def RawConv.wf (c : RawConv) : Bool := c.pins.ain.length == 32

/-- A DIGEST frame's tiles and CRCs fit a link frame (R314, R327). -/
def digestFits (es : List DigestEntry) : Bool := decide (2 + 2 * es.length ≤ 512)

/-- The lists of a command have the lengths the manual gives them. -/
def Instr.wf : Instr → Bool
  | .hello ws _ => ws.length == 6
  | .propose ws _ => linkWords ws.length && decide (3 ≤ ws.length)
  | .agree ws _ => linkWords ws.length
  | .almanac ws _ => linkWords ws.length && decide (4 ≤ ws.length)
  | .digest _ _ es _ _ => digestFits es
  | .nvwrite _ off bs _ => decide (1 ≤ bs.length) && decide (off.toNat + bs.length ≤ 256)
  | .image bs _ => bs.length % 8 == 0 && decide (bs.length ≤ 2048)
  | .rowPacket _ k => k.wf
  | .embeddedData _ k => k.wf
  | .selfTrimPass m => m.wf
  | .sextantConversion _ c => c.wf
  | .productionLoadDone flash _ => flash.all fun e => decide (e.1 < 2 ^ 32)
  | _ => true

end Sys2Proof
end

