-- ==== Sys2Proof/Decode.lean ====
section
/-! DEFINITION. Decoding. The table of operations and events gives no row any bits, so no table word spells a command. The words of
Zhomunyx programs have the encodings of R47 to R74: `zxDecode` reads the command that an instruction word stands for. -/
namespace Sys2Proof

/-- The command that a word of `nbits` bits spells: none, for no row of the table gives bits (log entry 1). -/
def decodeTableWord (_nbits _w : Nat) : Option Instr := none

/-! ### Fields (R47) -/

/-- The scalar register whose number stands in `w[lo+3:lo]`. -/
def regAt (w : W) (lo : Nat) : Reg := (w.extractLsb' lo 4).toFin
/-- The vector register whose number stands in `w[lo+2:lo]`. -/
def vregAt (w : W) (lo : Nat) : Fin 8 := (w.extractLsb' lo 3).toFin
/-- A two-bit field as a number. -/
def twoAt (w : W) (lo : Nat) : Fin 4 := (w.extractLsb' lo 2).toFin
/-- Whether the `n` bits of `w` from `lo` are zero, as reserved bits must be (R48). -/
def zeroAt (w : W) (lo n : Nat) : Bool := w.extractLsb' lo n == 0

/-- What a word is found to be when its reserved bits are as `ok` says. -/
def zxOf (ag : Agent) (ok : Bool) : Zx := ⟨ag, if ok then .none else .reserved⟩

/-- A word whose opcode or function is reserved (R48, R49, R52): every command marked reserved raises the illegal-instruction exception,
whichever it is. -/
def illegalWord (ag : Agent) : Instr := .add (zxOf ag false) false 0 0 0

/-! ### The opcode groups -/

/-- Opcode 0x00, the ALU functions (R48, R52). -/
def zxAlu (ag : Agent) (w : W) : Instr :=
  let d := regAt w 22
  let a := regAt w 18
  let b := regAt w 14
  let f := bitOf w 6
  let z := zxOf ag (zeroAt w 7 7)
  match (w.extractLsb' 0 6).toNat with
  | 0x00 => .add z f d a b
  | 0x01 => .sub z f d a b
  | 0x02 => .and z f d a b
  | 0x03 => .or z f d a b
  | 0x04 => .xor z f d a b
  | 0x05 => .shl z f d a b
  | 0x06 => .shr z f d a b
  | 0x07 => .sra z f d a b
  | 0x08 => .mul z f d a b
  | 0x09 => .mulh z f d a b
  | 0x0A => .min z f d a b
  | 0x0B => .max z f d a b
  | 0x0C => .clamp z f d a b
  | 0x0D => .sel (zxOf ag (zeroAt w 11 3 && !f)) (w.extractLsb' 7 4) d a b
  | _ => illegalWord ag

/-- Opcode 0x05, the immediate shifts (R53). -/
def zxShift (ag : Agent) (w : W) : Instr :=
  let d := regAt w 22
  let a := regAt w 18
  let z := zxOf ag (zeroAt w 8 10)
  let sh : BitVec 6 := w.extractLsb' 0 6
  match (w.extractLsb' 6 2).toNat with
  | 0 => .shli z d a sh
  | 1 => .shri z d a sh
  | 2 => .srai z d a sh
  | _ => illegalWord ag

/-- Opcode 0x1C, the services (R70). -/
def zxSvc (ag : Agent) (w : W) : Instr :=
  let d := regAt w 22
  let a := regAt w 18
  let z := zxOf ag (zeroAt w 8 10)
  match (w.extractLsb' 0 8).toNat with
  | 1 => .svcStartTransit z d a
  | 2 => .svcSelfTest z d a
  | 3 => .svcNoteRecord z d a
  | 4 => .svcRequestRetirement z d a
  | 5 => .svcReadAgreedTime z d a
  | _ => .svcStartTransit ⟨ag, if zeroAt w 8 10 then .service else .reserved⟩ d a

/-- Opcodes 0x13, 0x15, 0x17, 0x18 and 0x1B, of format A with function fields of their own (R59, R63, R64, R66–R68). -/
def zxSync (ag : Agent) (w : W) (op : Nat) : Instr :=
  let d := regAt w 22
  let a := regAt w 18
  let b := regAt w 14
  let fn := (w.extractLsb' 0 14).toNat
  if op = 0x13 then .ret (zxOf ag (d == 0 && zeroAt w 0 18)) a
  else if op = 0x15 then
    if fn = 0 then .wait (zxOf ag (b == 0)) d a
    else if fn = 1 then .yield (zxOf ag (d == 0 && a == 0 && b == 0))
    else illegalWord ag
  else if op = 0x17 then .send (zxOf ag (d == 0 && b == 0 && zeroAt w 8 6)) a (regAt w 0) (regAt w 4)
  else if op = 0x18 then .recv (zxOf ag (a == 0 && b == 0 && zeroAt w 5 9)) d (regAt w 0) (bitOf w 4)
  else if fn = 0 then .tileLd (zxOf ag true) d a b
  else if fn = 1 then .tileSt (zxOf ag true) d a b
  else illegalWord ag

/-- Opcodes 0x30 to 0x3C, the vector instructions (R73, R74). -/
def zxVector (ag : Agent) (w : W) (op : Nat) : Instr :=
  let vd := vregAt w 23
  let va := vregAt w 20
  let vb := vregAt w 17
  let p := twoAt w 15
  let sh : BitVec 5 := w.extractLsb' 0 5
  let z (ok : Bool) : Zx := zxOf ag ok
  match op with
  | 0x30 => .vld (z (zeroAt w 17 6)) p vd (regAt w 11) (twoAt w 9) (w.extractLsb' 0 9)
  | 0x31 => .vst (z (zeroAt w 17 6)) p vd (regAt w 11) (twoAt w 9) (w.extractLsb' 0 9)
  | 0x32 => .vadd (z (zeroAt w 2 13)) p vd va vb (twoAt w 0)
  | 0x33 => .vsub (z (zeroAt w 2 13)) p vd va vb (twoAt w 0)
  | 0x34 => .vmul (z (zeroAt w 8 7)) p vd va vb sh (twoAt w 5) (bitOf w 7)
  | 0x35 => .vmac (z (zeroAt w 9 6)) p vd va vb sh (twoAt w 5) (bitOf w 7) (bitOf w 8)
  | 0x36 => .vpoly (z (zeroAt w 11 4)) p vd va vb sh (w.extractLsb' 5 5) (bitOf w 10)
  | 0x37 => .vmed3 (z (zeroAt w 1 14)) p vd va vb (bitOf w 0)
  | 0x38 => .vclamp (z (zeroAt w 1 14)) p vd va vb (bitOf w 0)
  | 0x39 => .vsel (z (zeroAt w 0 15)) p vd va vb
  | 0x3A => .vcmp (z (zeroAt w 4 11 && zeroAt w 23 3)) p va vb (vregAt w 0) (bitOf w 3)
  | 0x3B => .vshr (z (zeroAt w 14 1 && zeroAt w 17 3)) p vd va sh (twoAt w 5) (w.extractLsb' 7 5) (bitOf w 12) (bitOf w 13)
  | 0x3C => .vsat (z (zeroAt w 6 9 && zeroAt w 17 3)) p vd va sh (bitOf w 5)
  | _ => illegalWord ag

/-- The command that an instruction word stands for when `ag` executes it: the opcode map (R49), with the reserved bits of each
instruction (R48). Every word stands for one. -/
def zxDecode (ag : Agent) (w : W) : Instr :=
  let op := (w.extractLsb' 26 6).toNat
  let d := regAt w 22
  let a := regAt w 18
  let imm : BitVec 18 := w.extractLsb' 0 18
  let off : BitVec 22 := w.extractLsb' 0 22
  let z (ok : Bool) : Zx := zxOf ag ok
  match op with
  | 0x00 => zxAlu ag w
  | 0x01 => .addi (z true) d a imm
  | 0x02 => .andi (z true) d a imm
  | 0x03 => .ori (z true) d a imm
  | 0x04 => .xori (z true) d a imm
  | 0x05 => zxShift ag w
  | 0x06 => .lui (z (a == 0)) d imm
  | 0x07 => .cmpi (z (d == 0)) a imm
  | 0x08 => .ldW (z true) d a imm
  | 0x09 => .ldH (z true) d a imm
  | 0x0A => .ldHs (z true) d a imm
  | 0x0B => .ldB (z true) d a imm
  | 0x0C => .ldBs (z true) d a imm
  | 0x0D => .stW (z true) d a imm
  | 0x0E => .stH (z true) d a imm
  | 0x0F => .stB (z true) d a imm
  | 0x10 => .ldPb (z true) d a imm
  | 0x11 => .bcc (z true) (w.extractLsb' 22 4) off
  | 0x12 => .call (z true) (w.extractLsb' 22 4) off
  | 0x13 => zxSync ag w 0x13
  | 0x14 => .loop (z (d == 0)) a imm
  | 0x15 => zxSync ag w 0x15
  | 0x16 => .mer (z (a == 0)) d imm
  | 0x17 => zxSync ag w 0x17
  | 0x18 => zxSync ag w 0x18
  | 0x19 => .param (z true) d a imm
  | 0x1A => .commit (z (d == 0 && a == 0 && zeroAt w 10 8)) (w.extractLsb' 0 10)
  | 0x1B => zxSync ag w 0x1B
  | 0x1C => zxSvc ag w
  | 0x1D => .post (z (d == 0 && a == 0)) imm
  | _ => zxVector ag w op

/-! ### The encoder (R47–R74) -/

/-- A register number as its four bits. -/
def regBits (r : Reg) : BitVec 4 := BitVec.ofFin r
def vregBits (v : Fin 8) : BitVec 3 := BitVec.ofFin v
def twoBits (x : Fin 4) : BitVec 2 := BitVec.ofFin x
def bit1 (b : Bool) : BitVec 1 := BitVec.ofBool b

/-- Format A (R47). -/
def fmtA (op : BitVec 6) (d a b : Reg) (fn : BitVec 14) : W := op ++ regBits d ++ regBits a ++ regBits b ++ fn
/-- Format I. -/
def fmtI (op : BitVec 6) (d a : Reg) (imm : BitVec 18) : W := op ++ regBits d ++ regBits a ++ imm
/-- Format B. -/
def fmtB (op : BitVec 6) (cond : BitVec 4) (off : BitVec 22) : W := op ++ cond ++ off
/-- Format V. -/
def fmtV (op : BitVec 6) (vd va vb : Fin 8) (p : Fin 4) (fn : BitVec 15) : W :=
  op ++ vregBits vd ++ vregBits va ++ vregBits vb ++ twoBits p ++ fn

/-- An ALU function (R48): its code and F. -/
def aluWord (fn : BitVec 6) (f : Bool) (d a b : Reg) : W := fmtA 0x00 d a b ((0 : BitVec 7) ++ bit1 f ++ fn)
/-- An immediate shift (R53). -/
def shiftWord (k : BitVec 2) (d a : Reg) (sh : BitVec 6) : W := fmtI 0x05 d a ((0 : BitVec 10) ++ k ++ sh)
/-- A service (R70). -/
def svcWord (code : BitVec 8) (d a : Reg) : W := fmtI 0x1C d a ((0 : BitVec 10) ++ code)

/-- The word of a Zhomunyx instruction, its reserved bits zero; none for a command that is none. -/
def zxEncode : Instr → Option W
  | .add _ f d a b => some (aluWord 0x00 f d a b)
  | .sub _ f d a b => some (aluWord 0x01 f d a b)
  | .and _ f d a b => some (aluWord 0x02 f d a b)
  | .or _ f d a b => some (aluWord 0x03 f d a b)
  | .xor _ f d a b => some (aluWord 0x04 f d a b)
  | .shl _ f d a b => some (aluWord 0x05 f d a b)
  | .shr _ f d a b => some (aluWord 0x06 f d a b)
  | .sra _ f d a b => some (aluWord 0x07 f d a b)
  | .mul _ f d a b => some (aluWord 0x08 f d a b)
  | .mulh _ f d a b => some (aluWord 0x09 f d a b)
  | .min _ f d a b => some (aluWord 0x0A f d a b)
  | .max _ f d a b => some (aluWord 0x0B f d a b)
  | .clamp _ f d a b => some (aluWord 0x0C f d a b)
  | .sel _ cond d a b => some (fmtA 0x00 d a b ((0 : BitVec 3) ++ cond ++ (0 : BitVec 1) ++ (0x0D : BitVec 6)))
  | .addi _ d a imm => some (fmtI 0x01 d a imm)
  | .andi _ d a imm => some (fmtI 0x02 d a imm)
  | .ori _ d a imm => some (fmtI 0x03 d a imm)
  | .xori _ d a imm => some (fmtI 0x04 d a imm)
  | .shli _ d a sh => some (shiftWord 0 d a sh)
  | .shri _ d a sh => some (shiftWord 1 d a sh)
  | .srai _ d a sh => some (shiftWord 2 d a sh)
  | .lui _ d imm => some (fmtI 0x06 d 0 imm)
  | .cmpi _ a imm => some (fmtI 0x07 0 a imm)
  | .ldW _ d a imm => some (fmtI 0x08 d a imm)
  | .ldH _ d a imm => some (fmtI 0x09 d a imm)
  | .ldHs _ d a imm => some (fmtI 0x0A d a imm)
  | .ldB _ d a imm => some (fmtI 0x0B d a imm)
  | .ldBs _ d a imm => some (fmtI 0x0C d a imm)
  | .stW _ d a imm => some (fmtI 0x0D d a imm)
  | .stH _ d a imm => some (fmtI 0x0E d a imm)
  | .stB _ d a imm => some (fmtI 0x0F d a imm)
  | .ldPb _ d a imm => some (fmtI 0x10 d a imm)
  | .bcc _ cond off => some (fmtB 0x11 cond off)
  | .call _ cond off => some (fmtB 0x12 cond off)
  | .ret _ a => some (fmtA 0x13 0 a 0 0)
  | .loop _ a imm => some (fmtI 0x14 0 a imm)
  | .wait _ d a => some (fmtA 0x15 d a 0 0)
  | .yield _ => some (fmtA 0x15 0 0 0 1)
  | .mer _ d imm => some (fmtI 0x16 d 0 imm)
  | .send _ a ch dst => some (fmtA 0x17 0 a 0 ((0 : BitVec 6) ++ regBits dst ++ regBits ch))
  | .recv _ d ch nb => some (fmtA 0x18 d 0 0 ((0 : BitVec 9) ++ bit1 nb ++ regBits ch))
  | .param _ d a imm => some (fmtI 0x19 d a imm)
  | .commit _ blk => some (fmtI 0x1A 0 0 ((0 : BitVec 8) ++ blk))
  | .tileLd _ d a b => some (fmtA 0x1B d a b 0)
  | .tileSt _ d a b => some (fmtA 0x1B d a b 1)
  | .svcStartTransit _ d a => some (svcWord 1 d a)
  | .svcSelfTest _ d a => some (svcWord 2 d a)
  | .svcNoteRecord _ d a => some (svcWord 3 d a)
  | .svcRequestRetirement _ d a => some (svcWord 4 d a)
  | .svcReadAgreedTime _ d a => some (svcWord 5 d a)
  | .post _ imm => some (fmtI 0x1D 0 0 imm)
  | .vld _ p vd g mode off => some (fmtV 0x30 vd 0 0 p (regBits g ++ twoBits mode ++ off))
  | .vst _ p vd g mode off => some (fmtV 0x31 vd 0 0 p (regBits g ++ twoBits mode ++ off))
  | .vadd _ p vd va vb mode => some (fmtV 0x32 vd va vb p ((0 : BitVec 13) ++ twoBits mode))
  | .vsub _ p vd va vb mode => some (fmtV 0x33 vd va vb p ((0 : BitVec 13) ++ twoBits mode))
  | .vmul _ p vd va vb sh mode u32 => some (fmtV 0x34 vd va vb p ((0 : BitVec 7) ++ bit1 u32 ++ twoBits mode ++ sh))
  | .vmac _ p vd va vb sh mode u32 sub =>
    some (fmtV 0x35 vd va vb p ((0 : BitVec 6) ++ bit1 sub ++ bit1 u32 ++ twoBits mode ++ sh))
  | .vpoly _ p vd va vb s1 s2 sub => some (fmtV 0x36 vd va vb p ((0 : BitVec 4) ++ bit1 sub ++ s2 ++ s1))
  | .vmed3 _ p vd va vb uns => some (fmtV 0x37 vd va vb p ((0 : BitVec 14) ++ bit1 uns))
  | .vclamp _ p vd va vb uns => some (fmtV 0x38 vd va vb p ((0 : BitVec 14) ++ bit1 uns))
  | .vsel _ p vd va vb => some (fmtV 0x39 vd va vb p 0)
  | .vcmp _ p va vb cond conj => some (fmtV 0x3A 0 va vb p ((0 : BitVec 11) ++ bit1 conj ++ vregBits cond))
  | .vshr _ p vd va sh mode width sgn round =>
    some (fmtV 0x3B vd va 0 p ((0 : BitVec 1) ++ bit1 round ++ bit1 sgn ++ width ++ twoBits mode ++ sh))
  | .vsat _ p vd va width sgn => some (fmtV 0x3C vd va 0 p ((0 : BitVec 9) ++ bit1 sgn ++ width))
  | _ => none

/-- The agent and the flaw of a Zhomunyx command. -/
def zxOfInstr : Instr → Option Zx
  | .add z _ _ _ _ => some z
  | .sub z _ _ _ _ => some z
  | .and z _ _ _ _ => some z
  | .or z _ _ _ _ => some z
  | .xor z _ _ _ _ => some z
  | .shl z _ _ _ _ => some z
  | .shr z _ _ _ _ => some z
  | .sra z _ _ _ _ => some z
  | .mul z _ _ _ _ => some z
  | .mulh z _ _ _ _ => some z
  | .min z _ _ _ _ => some z
  | .max z _ _ _ _ => some z
  | .clamp z _ _ _ _ => some z
  | .sel z _ _ _ _ => some z
  | .addi z _ _ _ => some z
  | .andi z _ _ _ => some z
  | .ori z _ _ _ => some z
  | .xori z _ _ _ => some z
  | .shli z _ _ _ => some z
  | .shri z _ _ _ => some z
  | .srai z _ _ _ => some z
  | .lui z _ _ => some z
  | .cmpi z _ _ => some z
  | .ldW z _ _ _ => some z
  | .ldH z _ _ _ => some z
  | .ldHs z _ _ _ => some z
  | .ldB z _ _ _ => some z
  | .ldBs z _ _ _ => some z
  | .stW z _ _ _ => some z
  | .stH z _ _ _ => some z
  | .stB z _ _ _ => some z
  | .ldPb z _ _ _ => some z
  | .param z _ _ _ => some z
  | .commit z _ => some z
  | .bcc z _ _ => some z
  | .call z _ _ => some z
  | .ret z _ => some z
  | .loop z _ _ => some z
  | .wait z _ _ => some z
  | .yield z => some z
  | .mer z _ _ => some z
  | .send z _ _ _ => some z
  | .recv z _ _ _ => some z
  | .tileLd z _ _ _ => some z
  | .tileSt z _ _ _ => some z
  | .svcStartTransit z _ _ => some z
  | .svcSelfTest z _ _ => some z
  | .svcNoteRecord z _ _ => some z
  | .svcRequestRetirement z _ _ => some z
  | .svcReadAgreedTime z _ _ => some z
  | .post z _ => some z
  | .vld z _ _ _ _ _ => some z
  | .vst z _ _ _ _ _ => some z
  | .vadd z _ _ _ _ _ => some z
  | .vsub z _ _ _ _ _ => some z
  | .vmul z _ _ _ _ _ _ _ => some z
  | .vmac z _ _ _ _ _ _ _ _ => some z
  | .vpoly z _ _ _ _ _ _ _ => some z
  | .vmed3 z _ _ _ _ _ => some z
  | .vclamp z _ _ _ _ _ => some z
  | .vsel z _ _ _ _ => some z
  | .vcmp z _ _ _ _ _ => some z
  | .vshr z _ _ _ _ _ _ _ _ => some z
  | .vsat z _ _ _ _ _ => some z
  | _ => none

end Sys2Proof
end

