-- ==== Sys2Proof/Machine/Arith.lean ====
section
/-! DEFINITION. Arithmetic that the manual fixes for every chapter: rounding half to even and saturation (R10, R74),
two's-complement fields (R9), lower medians (R164), CRC-32C, saturating counters. -/
namespace Sys2Proof.Machine

/-- `a / b` rounded half to even, for `b > 0` (R10). -/
def rndDiv (a b : Int) : Int :=
  let q := a.fdiv b
  let r := a - q * b
  if 2 * r < b then q else if 2 * r > b then q + 1 else if q % 2 = 0 then q else q + 1

/-- `rnd(x, s)` of R74: `x` shifted right by `s`, rounded half to even. -/
def rnd (x : Int) (s : Nat) : Int := if s = 0 then x else rndDiv x (2 ^ s)

/-- Saturation to a signed width (R10). -/
def satS (w : Nat) (x : Int) : Int := max (-(2 ^ (w - 1))) (min x (2 ^ (w - 1) - 1))

/-- Saturation to an unsigned width (R10). -/
def satU (w : Nat) (x : Int) : Int := max 0 (min x (2 ^ w - 1))

/-- `x` clamped between `lo` and `hi`: `min (max x lo) hi`. -/
def clampI (x lo hi : Int) : Int := min (max x lo) hi

/-- The field `w[hi:lo]` read as two's complement. -/
def sfld (w : W) (hi lo : Nat) : Int :=
  let x := fld w hi lo
  if x < 2 ^ (hi - lo) then x else (x : Int) - 2 ^ (hi - lo + 1)

/-- A saturating 32-bit count (R308 and others): plus `n`, at most 0xFFFF_FFFF. -/
def satAdd (c : W) (n : Nat) : W := wn (min (c.toNat + n) 0xFFFFFFFF)

/-- A value saturated to `w` bits as a number, for a record's count field. -/
def satN (w n : Nat) : Nat := min n (2 ^ w - 1)

/-- One bit of CRC-32C, reflected. -/
def crcBit (c : W) : W := if c.getLsbD 0 then (c >>> 1) ^^^ (0x82F63B78 : W) else c >>> 1

/-- One byte of CRC-32C. -/
def crcByte (c : W) (b : Byte) : W :=
  crcBit (crcBit (crcBit (crcBit (crcBit (crcBit (crcBit (crcBit (c ^^^ b.zeroExtend 32))))))))

/-- CRC-32C of a byte string (R85 and others). -/
def crc32c (bs : List Byte) : W := (bs.foldl crcByte (0xFFFFFFFF : W)) ^^^ (0xFFFFFFFF : W)

/-- CRC-32C of words, each least significant byte first. -/
def crcWords (ws : List W) : W := crc32c (wordsBytes ws)

/-- Insertion into an ascending list. -/
def insertAsc (x : Int) : List Int → List Int
  | [] => [x]
  | y :: r => if x ≤ y then x :: y :: r else y :: insertAsc x r

/-- Ascending sort. -/
def sortAsc (l : List Int) : List Int := l.foldr insertAsc []

/-- The lower median: the value at index floor((n - 1)/2) after sorting ascending (chapter 05, Stage 2); 0 of none. -/
def lowerMedian (l : List Int) : Int := (sortAsc l).getD ((l.length - 1) / 2) 0

/-- The sum of integers. -/
def sumI (l : List Int) : Int := l.foldl (· + ·) 0

/-- Bits of a number set where a list's positions hold. -/
def bitsOf (p : Nat → Bool) (n : Nat) : Nat :=
  (List.range n).foldl (fun acc i => if p i then acc + 2 ^ i else acc) 0

end Sys2Proof.Machine
end

