-- ==== Sys2Proof/Machine/Crypto.lean ====
section
/-! DEFINITION. What R88 asks of a signed image: SHA-256 and the verification of an ECDSA signature over P-256, as the published
standards that R88 names define them (log entry 23). -/
namespace Sys2Proof.Machine

/-! ### SHA-256

Its constants are the first 32 fraction bits of the roots of the first primes: square roots of eight of them to start from, cube roots of
sixty-four, one for each step. -/

/-- The largest `r` with `r ^ k ≤ n` that differs from `r0` in its low `bits` bits at most. -/
def rootFrom (k n : Nat) : Nat → Nat → Nat
  | 0, r0 => r0
  | bits + 1, r0 => rootFrom k n bits (if (r0 + 2 ^ bits) ^ k ≤ n then r0 + 2 ^ bits else r0)

/-- The first 32 fraction bits of the `k`-th root of `p`. -/
def rootFraction (k p : Nat) : W := wn (rootFrom k (p * 2 ^ (32 * k)) 40 0)

/-- The primes below 312: sixty-four of them. -/
def firstPrimes : List Nat := (List.range 312).filter fun n => 1 < n && (List.range n).all fun d => d < 2 || n % d != 0

/-- Bytes of a number, most significant first. -/
def bigBytes (n len : Nat) : List Byte := (List.range len).map fun i => BitVec.ofNat 8 (n / 256 ^ (len - 1 - i))

/-- A number from bytes, most significant first. -/
def bigNum (bs : List Byte) : Nat := bs.foldl (fun a b => a * 256 + b.toNat) 0

/-- A message brought to whole blocks of 64 bytes: a one bit, zeros, its length in bits. -/
def shaBytes (m : List Byte) : List Byte :=
  let zeros := (64 * (m.length / 64 + 2) - 9 - m.length) % 64
  m ++ 0x80 :: (List.replicate zeros 0 ++ bigBytes (8 * m.length) 8)

/-- The exclusive or of three rotations. -/
def spin (x : W) (i j k : Nat) : W := x.rotateRight i ^^^ x.rotateRight j ^^^ x.rotateRight k

/-- The exclusive or of two rotations and a shift. -/
def stir (x : W) (i j k : Nat) : W := x.rotateRight i ^^^ x.rotateRight j ^^^ (x >>> k)

/-- The word that enters the window of sixteen message words as its first leaves. -/
def shaNext (win : List W) : W :=
  stir (nthW win 14) 17 19 10 + nthW win 9 + stir (nthW win 1) 7 18 3 + nthW win 0

/-- One step: the window of message words moves on by one, and so do the eight working words. -/
def shaStep (x : List W × List W) (k : W) : List W × List W :=
  let v (i : Nat) : W := nthW x.2 i
  let pick := v 6 ^^^ (v 4 &&& (v 5 ^^^ v 6))
  let most := (v 0 &&& (v 1 ||| v 2)) ||| (v 1 &&& v 2)
  let fresh := k + nthW x.1 0 + pick + spin (v 4) 6 11 25 + v 7
  (x.1.tail ++ [shaNext x.1], (fresh + most + spin (v 0) 2 13 22) :: (x.2.take 3 ++ (v 3 + fresh) :: (x.2.drop 4).take 3))

/-- The digest words after one more block. -/
def shaBlock (h : List W) (block : List Byte) : List W :=
  let win := (List.range 16).map fun i => wn (bigNum ((block.drop (4 * i)).take 4))
  let out := ((firstPrimes.map (rootFraction 3)).foldl shaStep (win, h)).2
  (List.range 8).map fun i => nthW h i + nthW out i

/-- SHA-256 as a number. -/
def sha256 (m : List Byte) : Nat :=
  let bs := shaBytes m
  let h := (List.range (bs.length / 64)).foldl (fun h i => shaBlock h ((bs.drop (64 * i)).take 64)) ((firstPrimes.take 8).map (rootFraction 2))
  h.foldl (fun a w => a * 2 ^ 32 + w.toNat) 0

/-! ### P-256 -/

def p256P : Nat := 0xffffffff00000001000000000000000000000000ffffffffffffffffffffffff
def p256N : Nat := 0xffffffff00000000ffffffffffffffffbce6faada7179e84f3b9cac2fc632551
def p256B : Nat := 0x5ac635d8aa3a93e7b3ebbd55769886bc651d06b0cc53b0f63bce3c3e27d2604b
def p256G : Nat × Nat :=
  (0x6b17d1f2e12c4247f8bce6e563a440f277037d812deb33a0f4a13945d898c296,
   0x4fe342e2fe1a7f9b8ee7eb4a7c0f9e162bce33576b315ececbb6406837bf51f5)

/-- `b ^ e` modulo `m`, over the low `fuel` bits of `e`. -/
def powMod (m : Nat) : Nat → Nat → Nat → Nat
  | 0, _, _ => 1
  | fuel + 1, b, e =>
    let r := powMod m fuel (b * b % m) (e / 2)
    if e % 2 = 1 then b * r % m else r

/-- The inverse modulo a prime below 2^256. -/
def invMod (m a : Nat) : Nat := powMod m 256 (a % m) (m - 2)

/-- Sum of two points of the curve, none the point at infinity. -/
def p256Add : Option (Nat × Nat) → Option (Nat × Nat) → Option (Nat × Nat)
  | none, q => q
  | p, none => p
  | some p, some q =>
    if p.1 = q.1 ∧ (p.2 + q.2) % p256P = 0 then none
    else
      let l := if p = q then (3 * p.1 * p.1 + (p256P - 3)) * invMod p256P (2 * p.2) % p256P
        else (q.2 + p256P - p.2) * invMod p256P (q.1 + p256P - p.1) % p256P
      let x := (l * l + 2 * p256P - p.1 - q.1) % p256P
      some (x, (l * (p.1 + p256P - x) + p256P - p.2) % p256P)

/-- The multiple `k` of a point, over the low `fuel` bits of `k`. -/
def p256Mul : Nat → Nat → Option (Nat × Nat) → Option (Nat × Nat)
  | 0, _, _ => none
  | fuel + 1, k, p =>
    let r := p256Mul fuel (k / 2) (p256Add p p)
    if k % 2 = 1 then p256Add p r else r

/-- Whether (r, s) is a valid signature of a digest under the key (x, y). -/
def ecdsaOk (digest x y r s : Nat) : Bool :=
  let onCurve := decide (x < p256P) && decide (y < p256P) &&
    (y * y % p256P == (x * x * x + (p256P - 3) * x + p256B) % p256P)
  if !onCurve || r = 0 || p256N ≤ r || s = 0 || p256N ≤ s then false
  else
    let w := invMod p256N s
    match p256Add (p256Mul 256 (digest * w % p256N) (some p256G)) (p256Mul 256 (r * w % p256N) (some (x, y))) with
    | some q => q.1 % p256N == r
    | none => false

end Sys2Proof.Machine
end

