-- ==== Sys2Proof/Config.lean ====
section
/-! DEFINITION. What the E9640's manual leaves open: free values (no body: nothing can be proved about a value of theirs). -/
namespace Sys2Proof.Config

/-- The free word a step takes where the manual states no result: applied to the counter `State.freeCtr`, which the
step advances (log entry 3). -/
opaque freeWord : Nat → W

/-- The sequencer's own choice of the order of lane `l`'s tile arrays: array `k` lies before the arrays of a higher key (R139, R159,
R176: "the bases it reports" are the sequencer's; log entry 14). -/
opaque tileBase : Nat → Nat → W

/-- The byte that address `a` of the stacked store reads as once its contents are lost for the `n`-th reason (R15, R240): free (log
entry 151). -/
opaque lostByte : Nat → Nat → Byte

/-- The item number that the trailers of protected host page `q` carry: R439 gives the trailer the field, R440 and R441 give
the page no number (log entry 19). -/
opaque pageItem : Nat → BitVec 16

/-- Trim `i` of those set at manufacture (w(4 + i) of the trim record), as the data of the identity item hold it: R441 names the trims there
and gives them no layout and no values (log entry 15). -/
opaque identityTrim : List (BitVec 8) → Nat → W

/-- Whether CSI-2 RAW16 sends the high byte of a word first: R121 and R263 name the format and leave its byte order to the CSI-2
standard (log entry 25). -/
opaque raw16HighFirst : Bool

/-- The six ECC bits of a CSI-2 packet header, by its virtual channel, data type and 16-bit value: R272 has one generated and leaves the code
to the CSI-2 standard (log entry 167). -/
opaque csiEcc : BitVec 5 → BitVec 6 → BitVec 16 → BitVec 6

/-- The CRC-16 of a CSI-2 long packet's payload: R272 has one generated and leaves the polynomial to the CSI-2 standard (log entry 167). -/
opaque csiCrc : List Byte → BitVec 16

end Sys2Proof.Config
end

