-- ==== Sys2Proof/Machine/State.lean ====
section
/-! DEFINITION. The state of the E9640: every register, memory, queue, counter, mode and pin the manual gives it, as plain
data, and `State.reset`. Each field's docstring cites the rule that names it. -/
namespace Sys2Proof.Machine

/-- Bytes by address, sorted, no repeats, no zero byte listed (an unlisted byte reads 0): R240 for the store; log entry 2
for the engine, lane and NV memories. -/
abbrev Mem := List (Nat × Byte)

/-- Parameter words by the 18-bit index of R55, sorted; an unlisted field holds its reset value (R99). -/
abbrev PMap := List (Nat × W)

/-- The reasons the machine stops with a fault. -/
inductive Fault where
  /-- Raised by no meaning today: the manual gives every detected error a handling that goes on (R287). Safe. -/
  | hardwareStop
deriving DecidableEq, Repr

/-- The reasons a command has no meaning here. -/
inductive Refusal where
  /-- The command's row is not modelled: raised only by an arm of `exec` that says so; today no arm does. Safe. -/
  | notModelled (mnemonic : String)
deriving DecidableEq, Repr

/-! ### Engines and lanes (R41–R78, R81–R84) -/

/-- An outstanding TILE transfer (R68): direction, store byte address, local byte address, length in 64-byte units. -/
structure Xfer where
  load : Bool
  store : Nat
  loc : Nat
  units : Nat
deriving DecidableEq, Repr

/-- One open level of hardware loop (R60): first body instruction, last body instruction, remaining count. -/
structure LoopLv where
  first : W
  last : W
  count : W
deriving DecidableEq, Repr

/-- Why a context does not run (R46). -/
inductive Blocked where
  | ready
  | wait (mask : W) (d : Reg)
  | mer (port : Port) (d : Reg)
  | recv (ch : Fin 16) (d : Reg)
  | send (word : W) (ch dst : Fin 16)
  | tile (x : Xfer) (d : Reg)
  /-- A TILE interlock (R69) on the bytes `loc` to `loc + n - 1` of local memory. -/
  | interlock (loc n : Nat)
deriving DecidableEq, Repr

/-- A context of an engine, or the scalar part of a lane (R44, R62, R68). `g` has g0 at index 0; the accessors
make it read as zero. `merGot` holds the meridian a blocked MER waits to return. -/
structure Ctx where
  g : Vector W 16
  z : Bool
  n : Bool
  c : Bool
  v : Bool
  pc : W
  loops : List LoopLv
  latches : W
  block : Blocked
  merGot : Option W
  tags : Vector (Option Xfer) 4
deriving DecidableEq, Repr

/-- What an exception captures (R78): cause, address of the instruction, instruction word, data address. -/
structure ExcCap where
  cause : Byte
  addr : W
  word : W
  data : W
deriving DecidableEq, Repr

/-- A message in a sender's outbound buffer (R66): channel and destination codes, word, sending context. -/
structure Msg where
  dst : Fin 16
  ch : Fin 16
  word : W
  ctx : Fin 4
deriving DecidableEq, Repr

/-- A wait route in force (R475): context, wait input, EN, global source number. -/
structure Route where
  ctx : Fin 4
  input : Fin 24
  on : Bool := true
  src : Fin 1536
deriving DecidableEq, Repr

/-- An engine (R41, R44, R66–R68, R78, R81, R86, R475). -/
structure Engine where
  st : BitVec 4
  run : Fin 4
  ctxs : Vector Ctx 4
  prog : Mem
  data : Mem
  progBad : List Nat
  dataBad : List Nat
  /-- Single-bit errors, by word, that the next read corrects (R43). -/
  progSoft : List Nat
  dataSoft : List Nat
  exc : ExcCap
  chans : Vector (List W) 16
  out : List Msg
  loaded : Bool
  entry0 : BitVec 16
  entryN : BitVec 16
  windows : List (Nat × Nat)
  /-- CRC-32C of the section last loaded into program and into data memory (R318), 0 for never. -/
  crcProg : W
  crcData : W
  routes : List Route
  /-- Words of command-queue or Sextant deliveries: partial completions per context (R108). -/
  partials : Vector (List W) 4
  /-- A stop request has met its meridian and waits for outstanding SEND and TILE transfers (R83). -/
  stopDue : Bool
deriving DecidableEq, Repr

/-- An element as the sequencer hands it to phase A (R158, R161): VALID, whether its row was received, the words of its record, its
samples. -/
structure ElemIn where
  valid : Bool
  got : Bool
  ws : List W
  xs : List Nat
deriving DecidableEq, Repr

/-- A lane's group invocation in progress (R75): port, whether of the frame before its port's current one, row, first
column, and what the sequencer keeps for a retry (R290): the group's elements as phase A is given them, its elements of the two w10
arrays, the retained registers as they stood at its start. -/
structure Invoc where
  port : Port
  tail : Bool
  row : Nat
  col : Nat
  els : List ElemIn
  w10B : List W
  w10C : List W
  ctx0 : Ctx
  v0 : Vector (Vector W 8) 8
  p0 : Vector Byte 4
deriving DecidableEq, Repr

/-- A lane (R44, R45, R75, R78, R139). -/
structure Lane where
  ctx : Ctx
  v : Vector (Vector W 8) 8
  p : Vector Byte 4
  invoc : Option Invoc
  /-- The group abandoned by an exception or timeout, kept for the retry of R290. -/
  abandoned : Option Invoc
  loc : Mem
  locBad : List Nat
  locSoft : List Nat
  exc : ExcCap
  /-- The frame, by port and meridian count, whose frame constants local memory holds, and the row whose row constants it holds
  (R75, R159). -/
  fcOf : Option (Port × W)
  rcOf : Option (Port × W × Nat)
deriving DecidableEq, Repr

/-- A cluster: kernel memory shared by broadcast, tile memory, clock (R41, R97, R139, R140, R454, R456). -/
structure Cluster where
  kernel : Mem
  /-- Entry point and store windows of the kernel loaded (R45, R86, R87). -/
  entry : BitVec 16
  windows : List (Nat × Nat)
  /-- The slot in use has been written directly since it was loaded (R96, R97). -/
  stale : Bool
  /-- Uncorrectable and single-bit words of the lanes' kernel memories, by 1,024 × (lane mod 8) + word (R41, R43). -/
  kernelBad : List Nat
  kernelSoft : List Nat
  slot : Option (Fin 16)
  /-- The slot that loads once the earlier frame's last invocation in the cluster is over (R97). -/
  next : Option (Fin 16)
  tile : Mem
  tileBad : List Nat
  tileSoft : List Nat
  /-- Clock in MHz, 0 when parked. -/
  mhz : Nat
  /-- A retargeted clock has stopped and waits for its restart (R455). -/
  stopped : Bool
  /-- A clock target that waits for the last invocation of an earlier frame (R455 step 1). -/
  clkNext : Option Nat
  code : Nat
  trimTemp : Option Int
  lastC500 : Nat
deriving DecidableEq, Repr

/-! ### Sensor ports, frames, hearth (R114–R198) -/

/-- The state of a port (R125). -/
inductive PortSt where
  | off
  | sync
  | running
  | stalled
deriving DecidableEq, Repr

/-- A received row of a sub-frame (R121, R128): sub-frame, row position from the first blind row, pixels wholly
received; `bad` marks a row that is missing for a payload or sync error. -/
structure RowRec where
  sub : Nat
  row : Nat
  pixels : Nat
  bad : Bool
deriving DecidableEq, Repr

/-- The counts of an arrival record that are not geometry (R136 w3–w7). -/
structure ArrCounts where
  extra : Nat
  short : Nat
  long : Nat
  crcErr : Nat
  eccFixed : Nat
  eccBad : Nat
  embBytes : Nat
deriving DecidableEq, Repr

/-- One element of a frame on its way through the phases (R158–R186). `word` is the corrected word once the radiometric
unit has formed it. -/
structure Pix where
  valid : Bool
  p : Int
  cls : Nat
  w0 : W
  w3 : W
  w10 : W
  w11 : W
  incl : Bool
  hold : Bool
  y : Int
  c : Int
  cobj : Int
  doneA : Bool
  doneB : Bool
  doneC : Bool
  /-- Its group was given up and is left to the frame-deadline patch (R285). -/
  lost : Bool
  /-- What R187 counts of it before stage 1, if its row was received: samples at or above SAT_HI, at or below SAT_LO, its S. -/
  raw : Option (Nat × Nat × Int)
  word : Option W
deriving DecidableEq, Repr

/-- The statistics entry of a watch zone for one frame (R190 w0–w5). -/
structure ZoneAcc where
  incl : Nat
  hot : Nat
  sum : Nat
  lo : Nat
  hi : Nat
  rise : Int
  hotC : Bool
  riseC : Bool
  riseM : Bool
  /-- Already evaluated for this frame (R195). -/
  done : Bool
  /-- The zone's EN or rectangle has changed since the frame ended: the frame moves its state and its maxima no more (R194). -/
  old : Bool
  /-- The frame's maximum has entered the zone's history (R193). -/
  kept : Bool
deriving DecidableEq, Repr

/-- The statistics of one frame (R187–R189). -/
structure StatAcc where
  incl : Nat
  sumK : Nat
  lo : Nat
  hi : Nat
  satHi : Nat
  satLo : Nat
  sumS : Int
  combined : Nat
  underK : Nat
  overK : Nat
  hist : List (Nat × Nat)
  zones : Vector ZoneAcc 16
  changed : List (Fin 16)
  early : Bool
deriving DecidableEq, Repr

/-- The hearth record counts of a frame (R170 w2–w7). -/
structure HearthAcc where
  spikes : Nat
  steps : Nat
  rep2 : Nat
  rep3 : Nat
  rep4 : Nat
  fallback : Nat
  sats : Nat
  mode3 : Nat
  patchTiles : Nat
  invalid : Nat
deriving DecidableEq, Repr

/-- One entry of a lane list: lane, first active column, width (R144). -/
structure Band where
  lane : LaneNo
  first : Nat
  width : Nat
deriving DecidableEq, Repr

/-- A frame under processing: everything fixed at the meridian that opened it (R24) and everything gathered since. -/
structure Frame where
  /-- Meridian count that ends the frame. -/
  m : W
  /-- The parameter copies in force for the frame (R24, R58). -/
  pb : PMap
  /-- The streams that tap stage 1 or stage 3 of the frame, by the blocks it has at its Frame Start (R261, R276). -/
  taps : List (Fin 8 × Nat)
  /-- The read-only fields as they stood after the meridian that opened the frame, those not 0 (R58). -/
  ro : PMap
  profile : BitVec 2
  /-- What R300 forces: 0 to 3. -/
  level : Nat
  stage : Nat
  egen : W
  sgen : BitVec 16
  bands : List Band
  /-- Band map generation in force (R147, R170). -/
  bandGen : BitVec 16
  scene : Bool
  startDisc : Bool
  skipped : Bool
  /-- The port is not among those that the profile or the forced level runs (R37, R300). -/
  stopped : Bool
  /-- Held from its start: a frame of a transit or of forced level 3 (R209, R300). -/
  heldStart : Bool
  held : Bool
  patched : Bool
  /-- Frame Start captured; CSI-2 numbers; how it ended. -/
  started : Bool
  fsNum : BitVec 16
  feNum : Option (BitVec 16)
  byTimeout : Bool
  byEarly : Bool
  ended : Bool
  deadlinePassed : Bool
  /-- F of R122 for this frame. -/
  f : Nat
  rows : List RowRec
  /-- Next row position in order of arrival, per sub-frame (R128). -/
  nextRow : List (Nat × Nat)
  lastSub : Nat
  waitNum : Option (BitVec 16)
  arr : ArrCounts
  /-- Embedded data captured so far, written to its buffer at the meridian (R21, R136). -/
  emb : List Byte
  /-- Column offsets estimated (R164). -/
  colDone : Bool
  lb : Option Int
  la : Int
  /-- Column and row offsets of the frame (R164, R165). -/
  col : List (Nat × Int)
  rowOff : List (Nat × Int)
  pix : List (Nat × Pix)
  hearth : HearthAcc
  stat : StatAcc
  statDone : Bool
  /-- The slot the frame writes (R173), once chosen. -/
  slot : Option (Fin 4)
  /-- References 1 to 3: the slot of each usable one (R174). -/
  refs : List (Option (Fin 4))
  /-- Tiles patched at the deadline (R297). -/
  tilesPatched : List Nat
  /-- The tone block changed at the meridian before the frame (R197); the port has entered running since the frame ended (R193, R197). -/
  curveNew : Bool
  past : Bool
deriving DecidableEq, Repr

/-- A frame-slot descriptor (R173). -/
structure SlotDesc where
  m : W
  ysh : Nat
  valid : Bool
deriving DecidableEq, Repr

/-- A watch zone (R190 w6–w7, R193, R194). -/
structure Zone where
  st : Fin 4
  ctr : Nat
  entry : BitVec 16
  alarms : Nat
  maxima : List Nat
deriving DecidableEq, Repr

/-- A sensor port with its hearth sequencer, destripe, radiometric and statistics units. -/
structure PortS where
  st : PortSt
  /-- Meridian count (R23). -/
  mer : W
  /-- Agreed operating time and power-cycle count of the last meridian (R269, R326). -/
  merTicks : Nat
  merPcc : BitVec 24
  skewSeen : Bool
  frame : Option Frame
  tail : Option Frame
  /-- What the next frame will be built from, fixed at the last meridian: bands, level, stage, profile (R24). -/
  bands : List Band
  bandGen : BitVec 16
  profile : BitVec 2
  level : Nat
  stage : Nat
  /-- Frames ended since the port left sync, under the geometry in force (R122). -/
  fCount : Nat
  discardLeft : Nat
  /-- Stage 3: the frame opened last is one of those processed; the settings count at the stage's meridian; the half-rate setting is
  in effect (R39, log entry 139). -/
  altProcess : Bool
  altSgen : BitVec 15
  halfRate : Bool
  entryMer : W
  sgenCount : BitVec 15
  /-- UNSETTLED and count of the frame now arriving and of the one after it (R133). -/
  sgenNow : BitVec 16
  sgenNext : BitVec 16
  windowOpen : Bool
  /-- Batch of the open window: transfers run, the Frame Start seen before the last of them (R133). -/
  batch : Nat
  batchPend : Bool
  fsInWindow : Bool
  unsettled : Bool
  selfTest : Bool
  col : List (Nat × Int)
  rowOff : List (Nat × Int)
  slots : Vector SlotDesc 4
  /-- Slots in order of writing, most recent first (R173). -/
  slotOrder : List (Fin 4)
  zones : Vector Zone 16
  curve : Vector Byte 257
  curveFresh : Bool
  curveMer : W
  /-- Block B+10 has changed since the last frame opened (R197). -/
  curveChanged : Bool
  prevCurve : Vector Byte 257
  prevCurveMer : W
  notify : W
  egen : W
  /-- Frames of the port are held for a transit (R209, R220). -/
  transitHold : Bool
  holdEnds : Bool
  backupClock : Bool
  /-- Class D copy adopted by the port (R519): fields 0–5 of block 0x000. -/
  devAdopted : PMap
deriving DecidableEq, Repr

/-! ### Parameter unit (R99–R104, R519) -/

/-- The parameter unit. -/
structure Params where
  staging : PMap
  force : PMap
  /-- Pending copies by block number, with the port a class P block of a stream is tied to (R100). -/
  pending : List (Nat × PMap)
  streamTie : List (Nat × Port)
  gens : List (Nat × W)
  lastRefused : W
  refusals : W
  lastIndex : W
  /-- Class D under adoption: checked, and the ports that have adopted it (R519). -/
  devChecked : Bool
  devAdopters : List Port
deriving DecidableEq, Repr

/-! ### Command queue and loader (R94–R111) -/

/-- What a kernel slot holds beside its bytes in the store: entry point and windows of the section last loaded into it (R86, R97)
and the CRC-32C of that section (R318), 0 for never. -/
structure KSlot where
  entry : BitVec 16
  windows : List (Nat × Nat)
  crc : W
deriving DecidableEq, Repr

/-- The command queue, completion ring, load control and kernel slots. -/
structure Queue where
  kslots : Vector KSlot 16
  entries : List (List W)
  /-- Words of the oldest entry already placed in CE channel 15, and taken from it. -/
  given : Nat
  taken : Nat
  accepted : BitVec 16
  pi : BitVec 7
  ci : BitVec 7
  qfullReject : Bool
  ciInvalid : Bool
  partialDiscard : Bool
  ring : List (Nat × List W)
  waiting : List (List W)
  loadSel : W
  version : BitVec 16
  code : Byte
  ignored : Bool
  busy : Bool
deriving DecidableEq, Repr

/-- Boot (R91, R92, R488). -/
structure Boot where
  /-- 0 in reset, 1 store initialising, 2 waiting for an image, 3 done, 4 failed, 5 held back by PFAIL_N. -/
  step : Fin 6
  bootsel : BitVec 2
  code : BitVec 7
  copy : Bool
  boot : Bool
  ready : Bool
  meRestarting : Bool
  /-- The next boot follows a power-up, not a device reset alone (R253, R307). -/
  cold : Bool
  /-- Boot complete by R516: a meridian has passed since BOOT set. -/
  complete : Bool
deriving DecidableEq, Repr

/-! ### Transit unit and trims (R199–R233) -/

/-- A transit in progress, steps 2 to 7 (R208). -/
structure Transit where
  port : Port
  /-- The place in the queue that the port had when its transit started, and whether it came from a request (R205, R220). -/
  place : Nat
  asked : Bool
  step : Fin 8
  m0 : W
  settled : Nat
  flats : Nat
  rejects : Nat
  /-- The closed report has come; frames whose Frame Start follows it count (R208). -/
  firstAfter : Bool
  sumTarr : Int
  sumDuty : Nat
  dtt : Int
  ht : Int
  idt : Int
  /-- The agreed count of the meridian at which the last flat frame ended (R208, R322). -/
  flatMer : Option W
  /-- The exact sum of the dome results of step 4 as a fraction, and how many there are (R216). -/
  rhoSum : Int
  rhoDen : Nat
  rhoN : Nat
  rho : Nat
  cdome : Int
  tarrNew : Int
  dutyNew : Nat
  /-- Meridian count of the last counted flat frame. -/
  lastFlat : Option W
  /-- Groups accumulated: flat frame, row, column. -/
  accDone : List (Nat × Nat × Nat)
  /-- The accumulator as it stood before the frame that arrives: address, bytes, poisoned words (R210; log entry 92). -/
  accOld : List (Nat × List Byte × List Nat)
  finDone : List (Nat × Nat)
  dome : Bool
  merging : Bool
  /-- Code of an abandonment that waits for its AGREE in LOCKSTEP (R322); 0 for none. -/
  abPend : Nat
deriving DecidableEq, Repr

/-- The read-only fields of one port in block 0x001 (R199, fields 64 + 8n to 71 + 8n; EGEN is the port's). -/
structure TransitPort where
  tcount : W
  lastTicks : Nat
  lastPcc : BitVec 24
  abcode : Byte
  domeab : Byte
  wdefer : Bool
  overdue : Bool
  domeout : Bool
  sceneOn : Bool
  abcount : W
  tdome : W
  sbframes : W
  /-- Operating time of the last abandonment, for the guard interval (R206, R220). -/
  abTicks : Option Nat
  /-- No entry to running since reset, production load or restore; and such an entry has come and has not yet made the port due (R202). -/
  startDue : Bool
  startNow : Bool
  firstTransit : Bool
deriving DecidableEq, Repr

/-- The transit unit, production loader and trims. -/
structure TransitU where
  ports : Vector TransitPort 4
  queue : List (Port × Bool)
  cur : Option Transit
  /-- Engines' contexts waiting for W25 of SVC 0x01: (context of the CE, port) (R204). -/
  waiters : List (Fin 4 × Port)
  /-- Merge in progress: port, EGEN being given, rows merged (R218, R229). -/
  mergePort : Option Port
  mergeEgen : W
  mergedRows : List Nat
  /-- The production load (R225, R226): the request last taken, the ports it names, whether one runs, and its reports. -/
  prodSeq : Byte
  prodPorts : BitVec 4
  prodBusy : Bool
  prodDone : Byte
  prodCode : Byte
  prodP : Vector Byte 4
  rstSeq : Byte
  rstPend : Option Port
  trimSeq : Byte
  /-- A self-trim pass has been asked for and not yet run (R201, R232). -/
  trimAsk : Bool
  /-- T24–T31 at the last trim of the islands that they are nearest to (R232, R388). -/
  islandTemps : Vector (Option Int) 8
  trimcount : W
  trimTicks : Nat
  trimPcc : BitVec 24
  refPpm : W
  refArmed : Bool
  /-- Words w4–w34 of the trim record: the current trims (R230). -/
  trims : List W
deriving DecidableEq, Repr

/-! ### The stacked store (R234–R257) -/

/-- A row being copied to a spare, marched, or copied back (R248). -/
structure RowSeq where
  ch : Fin 16
  bank : Fin 16
  row : Nat
  spare : Nat
  /-- 0 copying, 1 marching, 2 copying back, 3 kept (retirement pending). -/
  phase : Fin 4
  cause : Byte
deriving DecidableEq, Repr

/-- A retired row entry of the map (R309): bank, row, spare row. -/
structure RowEntry where
  bank : Nat
  row : Nat
  spare : Nat
deriving DecidableEq, Repr

/-- The retirement map (R309). -/
structure RMap where
  gen : W
  lanes : BitVec 96
  clusters : BitVec 12
  ports : BitVec 4
  bellows : BitVec 8
  mods : BitVec 8
  engines : BitVec 6
  chan : Option (Fin 16)
  banks : Vector (BitVec 16) 16
  rows : Vector (List RowEntry) 16
deriving DecidableEq, Repr

/-- The stacked store and its registers. -/
structure Store where
  mem : Mem
  /-- VDD_STK or VPP_STK has fallen since the store was initialised: its contents are lost and read as the free values of this number
  (R15, R240). -/
  lost : Option Nat
  /-- 64-bit words holding poison, by word index (address div 8) (R247). -/
  poison : List Nat
  /-- Words with an injected single-bit error, and with an uncorrectable error not yet found (R245). -/
  soft : List Nat
  hard : List Nat
  /-- Corrected errors of the pass in progress: (pass, word) (R245). -/
  fixed : List (W × Nat)
  seqs : List RowSeq
  page : BitVec 4
  ch15 : Bool
  retch : Fin 16
  mig : Bool
  migNext : Nat
  fail2 : Bool
  poisonRd : Bool
  refRate : BitVec 2
  ce : BitVec 64
  ceHi : W
  ue : W
  poisonAddr : W
  passes : W
  skippedPoison : Nat
  /-- Row transients: (channel, bank, row) with the operating times of its transients (R293). -/
  rowTimes : List ((Nat × Nat × Nat) × List Nat)
  /-- Channel transients: the operating times of the last eight of each channel (R293). -/
  chanTimes : Vector (List Nat) 16
deriving DecidableEq, Repr

/-! ### Chimney outputs (R258–R283) -/

/-- A packet waiting for a transmitter (R271, R274): virtual channel, data type, payload bytes (a short packet carries its
16-bit value in the first two), and the transmitter that its frame's blocks name. -/
structure Pkt where
  stream : Fin 8
  tx : Fin 2
  vc : BitVec 3
  dt : Byte
  bytes : List Byte
deriving DecidableEq, Repr

/-- A stream frame in progress (R265, R266). -/
structure OutFrame where
  port : Port
  src : W
  pb : PMap
  /-- The frame slot its source words come from (R173, R265). -/
  slot : Option (Fin 4)
  nextLine : Nat
  /-- Image lines handed to the transmitter. -/
  sentLines : Nat
  /-- Bits 16–31 of header word w3 (R270), at their own positions. -/
  flags : W
  /-- w0 to w14 of header line 0 (R269). -/
  head : List W
  tile : Nat
  /-- START has placed the export cursor anew during the frame (R279). -/
  placed : Bool
  /-- EN has gone from 0 to 1 during the frame: the next frame does not repeat its header (R269). -/
  stale : Bool := false
  egen : W
  /-- The ephemeris generation at the first tile line read (R270 bit 24). -/
  genRead : Option W
  /-- The tone curve of the frame and its record's meridian count (R198). -/
  curve : List Byte
  curveMer : W
deriving DecidableEq, Repr

/-- A stream (R258–R281). -/
structure Stream where
  on : Bool
  srcPort : Port
  eligible : Nat
  frames : W
  /-- Source frames that the stream is to send and has not begun, oldest first (R265). -/
  due : List OutFrame
  cur : Option OutFrame
  /-- Frames that have been cut and whose Frame End has still to go, oldest first (R275). -/
  ending : List OutFrame
  firstPend : Bool
  prevHead : Option (List W)
  failover : Bool
  cursor : Nat
  pkts : List Pkt
  /-- Where the next line enters the line ring (R280). -/
  ringAt : Nat
  srec : Vector W 8
deriving DecidableEq, Repr

/-- A transmitter (R272–R274, R282). -/
structure Tx where
  on : Bool
  /-- 0 LP-11, 1 ULPS, 2 stopped by shutdown. -/
  line : Fin 3
  served : List (Fin 8)
  sent : Option Pkt
  /-- The bytes of the packet sent last, header and footer included (R272). -/
  burst : List Byte
  sentCount : Nat
deriving DecidableEq, Repr

/-! ### Fault manager (R284–R309) -/

/-- Who asked for a test or a retirement (R302): the engine and its context. -/
structure Req where
  eng : Eng
  ctx : Fin 4
deriving DecidableEq, Repr

/-- A unit of UNIT_STATE (R287, R293, R308). -/
structure UnitS where
  st : BitVec 4
  total : Byte
  times : List Nat
  cause : Byte
  /-- A detected error, not only a request, is behind the sequence (R288). -/
  byError : Bool
  reqTest : Option Req
  reqRetire : Option Req
  /-- Ninth transient: retire once the retry is made (R293). -/
  window : Bool
  /-- TOTAL and the times as they stood before the transient whose retry runs: a retry that fails with the same cause takes it back
  (R288, R289). -/
  saved : Option (Byte × List Nat)
  /-- A rotation out waits for a meridian (R304). -/
  rotate : Bool
  /-- The requested test has ended and the unit waits for a meridian to return (R287). -/
  backAtMer : Bool
  /-- The test of a unit out for test has failed: pending retirement from the next meridian on (R287). -/
  failAtMer : Bool
  /-- The retry runs with this cause (R289, R292). -/
  retryCause : Option Byte
  /-- Rotated out because the twin partner tests its own (R304, R324). -/
  forPeer : Bool
deriving DecidableEq, Repr

/-- The fault manager. -/
structure Fm where
  units : Vector UnitS 182
  forced : BitVec 2
  floor : Bool
  clearPend : Bool
  fault : Bool
  last : W
  lastMer : BitVec 16
  lastCause : Byte
  lastOut : Byte
  transient : W
  permanent : W
  ext : W
  program : W
  patch : W
  noretry : W
  evict : W
  map : RMap
  /-- Outcome word pairs waiting for channel 13 of the CE or ME, with the context whose W25 follows (R302). -/
  outcomes : List (Req × List W)
  /-- Store-unit requests: identifier and requester (R301). -/
  storeReqs : List (W × Req)
  /-- Store row, bank and channel retirements waiting for a meridian (R287, R298), and whether their decision is already made. -/
  storePend : List (W × Bool)
deriving DecidableEq, Repr

/-! ### Twin operation (R310–R340) -/

/-- A frame on the Ghenik link (R314, R315): type, sequence number when sequenced, acknowledgement, class, port, payload words. -/
structure LinkFrame where
  type : Byte
  seq : Byte
  ack : Byte
  cls : Nat
  port : Port
  payload : List W
deriving DecidableEq, Repr

/-- What the prime's AGREE carries for one meridian (R324), as captured or as received. -/
structure Agreement where
  port : Port
  m : W
  stage : Nat
  swap : Bool
  ticks : Nat
  pcc : BitVec 24
  sgen : BitVec 16
  decision : Byte
  abcode : Byte
  rho : W
  blocks : List (Nat × PMap)
  /-- Commit generations of the blocks, with the first AGREE of a bulk resync (R333). -/
  gens : List (Nat × W)
  retires : List W
  rotOut : List W
  rotBack : List W
  withdrawn : List W
deriving DecidableEq, Repr

/-- A PROPOSE as received (R323). -/
structure Proposal where
  port : Port
  m : W
  stage : Nat
  fstate : Nat
  fno : BitVec 16
  entries : List (W × W)
  /-- The prime has compared it with its own meridian (R325). -/
  used : Bool
deriving DecidableEq, Repr

/-- The tests of a mismatched tile (R328): port × 65,536 + tile, frame, the lanes concerned, whether they run on this device, the tile
check's failure, this device's result once known and the partner's. -/
structure TileTest where
  key : Nat
  frame : Nat
  lanes : List LaneNo
  tileFail : Bool
  own : Option Bool
  peer : Option Bool
deriving DecidableEq, Repr

/-- The twin unit. -/
structure Twin where
  st : Fin 7
  prime : Bool
  owner : Bool
  strap : Bool
  lock : BitVec 4
  trained : Bool
  txSeq : Byte
  rxSeq : Byte
  unacked : List LinkFrame
  queue : List LinkFrame
  lastSent : Option LinkFrame
  ackDue : Bool
  peerSn : BitVec 64
  peerSnHi : W
  peerStage : Nat
  peerFault : Bool
  /-- The shadow's latest proposed damper stage (R324). -/
  propStage : Nat
  /-- Frames with CRC errors in a row (R313). -/
  badRun : Nat
  /-- This device has still to tell its partner what it retired before the pair formed, and to hear the same (R146, R294). -/
  mapNew : Bool
  /-- Ports whose offset the next AGREE fixes (R321, R325). -/
  offsetDue : Vector Bool 4
  /-- The shadow's own decisions to start a transit at its last meridians (R222). -/
  ownStart : Vector Bool 4
  /-- Words of an AGREE that further frames continue (R314). -/
  agreeIn : List W
  /-- The device, under its mask ROM, has asked its partner for its image (R316). -/
  imgAsked : Bool
  /-- Identifiers of the lanes, clusters and other units that the partner has retired, as agreed (R146, R294). -/
  peerMap : List W
  heartNo : W
  lastHeart : Vector W 4
  proposals : List Proposal
  /-- Captured by this device at its last meridian, per port, to be sent in AGREE. -/
  captured : List Agreement
  /-- To be applied at the next meridian of the port. -/
  held : List Agreement
  /-- A class D copy committed while an agreed one is being adopted: it goes with the next AGREE (R322, R519). -/
  laterD : Option PMap
  /-- Class I copies that the pair has agreed and that wait for their unit's idle point (R322). -/
  agreedI : List (Nat × PMap)
  offsets : Vector W 4
  outStep : Vector Bool 4
  ownTiles : List (Nat × Nat × W × BitVec 3)
  peerTiles : List (Nat × Nat × W × BitVec 3)
  /-- Mismatched tiles by port and frame, and whether the prime and the shadow flagged each (R328). -/
  mism : List (Nat × Nat × Bool × Bool)
  /-- Tiles this device receives resync for, and tiles it is the source of. -/
  diverged : List (Nat × Nat)
  /-- Tiles that rows have been installed in, with the frame (R327 flag [2]). -/
  gotRows : List (Nat × Nat × Nat)
  sendTiles : List (Nat × Nat)
  tests : List TileTest
  /-- Ports whose port digest differed in a frame while tests that name the source of its tiles still run (R328). -/
  portWait : List (Port × Nat)
  /-- The prime withholds the port's next AGREE from a shadow that it has found out of step (R325; log entry 166). -/
  agreeHold : Vector Bool 4
  /-- Port states received and not yet installed; ports whose state goes with the next row. -/
  psIn : List (Port × ResyncState)
  /-- Ports whose state alone is awaited from the partner (R328). -/
  psWait : List Port
  psOut : List Port
  /-- The next AGREE of the lowest-numbered running port is the first of the resync (R333). -/
  allBlocks : Bool
  /-- Bytes of an image received while booting from the link (R316). -/
  imgLen : Nat
  /-- Ports that the prime found held where the partner processed them: the partner is their source (R325). -/
  fromPeer : Vector Bool 4
  sweep : Bool
  sweepPort : Port
  sweepRow : Nat
  checkFrames : Nat
  rowsIn : List ResyncRow
  raiseAtMer : Bool
  lowerAtMer : Bool
  takeover : Bool
  yieldWait : Bool
  yieldSeq : Byte
  swapAt : Bool
  agreedTicks : Nat
  watchdog : Bool
  mismatch : W
  tileResync : W
  bulk : W
  takeovers : W
  yields : W
  outsteps : W
  diverge : W
  retx : W
  crcerr : W
deriving DecidableEq, Repr

/-! ### Sextant (R341–R361) -/

/-- A sequencing entry as read at a sequence's start (R348, R349). -/
structure SxEntry where
  no : Byte
  w0 : W
  w1 : W
deriving DecidableEq, Repr

/-- What a modulator does (R351). -/
inductive SxCond where
  | idle
  | delaying
  | converting
deriving DecidableEq, Repr

/-- A modulator M0–M7. -/
structure SxMod where
  cond : SxCond
  /-- The pending slot: arrival time of the held trigger, µs (R351). -/
  pend : Option Nat
  startAt : Nat
  late : Bool
  edges : Nat
  chain : List SxEntry
  conv : Nat
  sum : Int
  clip : Bool
  compl : Bool
  seqNo : Byte
  fifo : List (W × W)
  resHi : W
  acc : BitVec 48
  cnt : BitVec 16
  accHi : W
  overrun : W
  ovf : W
  lateN : W
  /-- The one conversion of a targeted self-test runs (R357). -/
  testing : Bool
  /-- A reference check runs: conversions made of its 16, and the sum of their corrected codes (R356). -/
  checking : Option (Nat × Int)
  /-- A self-trim pass asks for the modulator's offset and gain (R232, R355); while they are measured: conversions made of the two times 16,
  and the sums of the raw codes of each. -/
  trimDue : Bool
  trimming : Option (Nat × Int × Int)
  /-- When the sequence before that test or check ended, µs, where one did (R351). -/
  gapAt : Option Nat
deriving DecidableEq, Repr

/-- The Sextant. -/
structure Sextant where
  mods : Vector SxMod 8
  latest : List (Nat × (W × W))
  lastHi : List (Nat × W)
  chkSkip : W
  /-- The modulator that a reference check waits for (R356). -/
  checkDue : Option (Fin 8)
  stopped : Bool
deriving DecidableEq, Repr

/-! ### Bellows drive (R362–R375) -/

/-- The values an action started with (R364). -/
structure BlwAct where
  ipull : Nat
  ihold : Nat
  tpull : Nat
  trel : Nat
  damp : Nat
  dfreq : Nat
  thold : Nat
  pos : Bool
  pgpio : Fin 16
  plevel : Bool
  pulse : Bool
deriving DecidableEq, Repr

/-- A channel's state by its code in BLW_STATE (R374). -/
abbrev BlwSt := Fin 8

/-- A bellows channel B0–B7. -/
structure Blw where
  st : BlwSt
  act : BlwAct
  /-- The action that a request carries, until it is granted (R364, R366). -/
  nextAct : Option BlwAct
  /-- The target of the phase in mA; in a release, the target it fell from. -/
  target : Nat
  /-- Loop periods of 40 µs since the action's start, and since the start of its phase (R362, R365). -/
  periods : Nat
  phasePeriods : Nat
  /-- Length of the release ramp in loop periods (R365, R373). -/
  ramp : Nat
  measured : BitVec 16
  /-- A waiting request: peak in 1/256 mA and whether it resumes at hold (R366, R367). -/
  req : Option (Nat × Bool)
  actSeq : Byte
  actions : W
  waits : W
  refused : W
  /-- The report of the present action is still to come (R369). -/
  wantClosed : Bool
  wantOpen : Bool
  /-- What the channel was doing when it was isolated: the step that a retry repeats (R289). -/
  failedSt : BlwSt
deriving DecidableEq, Repr

/-- The bellows drive. -/
structure Bellows where
  ch : Vector Blw 8
  hsFault : BitVec 4
  lowVact : Bool
  /-- No request is granted until the next boot (R373). -/
  locked : Bool
deriving DecidableEq, Repr

/-! ### Heat and power (R376–R395) -/

/-- A temperature sensor. -/
structure Sensor where
  read : BitVec 16
  shutc : Bool
  thr : Bool
  wrn : Bool
  fast : Bool
  low : BitVec 16
  high : BitVec 16
  shutRun : Nat
  farRun : Nat
  /-- Held its zone's highest valid reading while suspect (R384). -/
  keeps : Bool
  /-- The reading under test of an external sensor (R383). -/
  underTest : BitVec 16
  everRead : Bool
deriving DecidableEq, Repr

/-- The thermal and power units. -/
structure Thermal where
  sensors : Vector Sensor 48
  zones : Vector (Fin 5) 4
  /-- The device stage and the stage carried by AGREE (R381, R394). -/
  stage : Nat
  agreed : Nat
  table : List W
  seq : Byte
  refused : Bool
  shutdown : Bool
  rails : BitVec 5
  vio : Bool
  vact : Bool
  pfail : Bool
  vcore : BitVec 10
  /-- Power-fail step 0 (none) to 5, its cause (R392, R424 0x202), and whether it is a shutdown or a device reset. -/
  pfStep : Fin 6
  pfCause : Nat
  handCause : Fin 3
  /-- Sensor, reading and cause of record 0x201, until the hand-over takes it (R387, R444). -/
  shutRec : List W
  vcoreTicks : Option Nat
  resetN : Bool
  /-- The logic die is in functional reset (R387, R464). -/
  held : Bool
deriving DecidableEq, Repr

/-! ### Serial ports (R396–R421) -/

/-- An MP1 transfer on the balls (R415). -/
structure Mp1Xfer where
  eng : Fin 5
  idx : Nat
  live : Bool
  sel : Fin 8
  query : Bool
  bits : Nat
  tx : List Byte
  rxAddr : Nat
  rx : Bool
  driven : Bool
deriving DecidableEq, Repr

/-- An MP0 command in progress (R409): a line fill (the line's select × 2^32 + flash address), a piece of a ring transfer, a host
command. -/
inductive Mp0Cmd where
  | fill (line : Nat)
  | ring (idx : Nat) (piece : Nat)
  | host
deriving DecidableEq, Repr

/-- A transaction of MP0 on its balls (R406, R410): select, the command and address bytes in the order they are sent, in 8D-8D-8D or in
1S-1S-1S, dummy cycles, bytes written, bytes read, and whether it is the status read that is repeated until BUSYBIT shows idle. -/
structure XspiOp where
  sel : Nat
  octal : Bool
  head : List Byte
  dummy : Nat
  out : List Byte
  reads : Nat
  poll : Bool
deriving DecidableEq, Repr

/-- A valid line buffer of the XIP window, or one being filled (R408); least recently used first in `Serial.lines`. -/
structure XipLine where
  addr : Nat
  bytes : List Byte
  filling : Bool
deriving DecidableEq, Repr

/-- The host port and the master ports. -/
structure Serial where
  /-- Admitted write frames not yet applied, oldest first (R403). -/
  bufs : List (W × List W)
  /-- The last status byte returned and the words last driven out (R399, R400). -/
  statusOut : Byte
  wordsOut : List W
  rej : Bool
  lastRej : Byte
  rejs : W
  timeouts : W
  /-- A word of an XIP read waits for its fill (R401, R408). -/
  xipWait : List Nat
  /-- The judgement of the read frame in progress, with its cause (R402); none: no read frame is in progress. -/
  readEnd : Option (Option Byte)
  /-- A write frame whose data HRDY holds back, both buffers being occupied (R401). -/
  frameWait : Option (W × List W × Cut)
  cfg : W
  rdcmd : W
  wcmd : W
  hcmd : W
  haddr : W
  hlen : Nat
  hbusy : Bool
  hcode : Byte
  hbuf : Mem
  lines : List XipLine
  mp0 : Option Mp0Cmd
  /-- Bytes of the ring's head descriptor already moved by earlier pieces (R409). -/
  mp0Done : Nat
  /-- The transactions of the command that MP0 last began (R410). -/
  mp0Bus : List XspiOp
  swsel : W
  swPend : Option W
  gpio : BitVec 16
  mp1 : Option Mp1Xfer
  mp1Served : List (Fin 5)
  /-- The descriptor index and the meridian of the window for which a ring's head was last counted as deferred (R132). -/
  deferred : List (Nat × (Nat × W))
  fills : W
  pollto : W
  deferN : W
  rdyto : W
  refusedN : W
deriving DecidableEq, Repr

/-! ### Almanac and NV store (R422–R448) -/

/-- An almanac record (R422). -/
structure Rec where
  w0 : W
  w1 : W
  w2 : W
  w3 : W
  payload : List W
deriving DecidableEq, Repr

/-- What an NV page write belongs to (R430, R435). -/
inductive NvSrc where
  | host
  | hostMirrored
  | prot
  | item
  | flushCounter
  | flushLog (newEnd : Nat)
  | flushState (seqNo : W) (logEnd : Nat)
  | clearState
deriving DecidableEq, Repr

/-- A page write: page, byte offset, bytes, source. -/
structure NvWrite where
  page : Nat
  off : Nat
  bytes : List Byte
  src : NvSrc
  /-- Bytes of the page, from the first to below the second, that a write which wraps within the page leaves (R436). -/
  skip : Nat × Nat := (0, 0)
deriving DecidableEq, Repr

/-- The almanac and the NV store. -/
structure Nv where
  mem : Mem
  /-- Uncorrectable groups, by group index (byte address div 8). -/
  bad : List Nat
  /-- Groups with a correctable error; their contents stand in `mem`. -/
  soft : List Nat
  writes : List NvWrite
  /-- Host-page writes that the shadow has sent to the prime and that have not returned: page, offset, bytes (R336). -/
  sent : List (Nat × Nat × List Byte)
  queue : List (Rec × Option Req)
  last : Option (Nat × Rec)
  dirtyStart : Nat
  dirty : List Byte
  logEnd : Nat
  lost : W
  lostMark : Bool
  clears : W
  cursor : W
  flushing : Bool
  again : Bool
  /-- The logical offset to which the flush in progress has put the dirty part into its page writes (R430). -/
  flushTo : Nat
  clearWait : Bool
  interrupted : Bool
  /-- An incomplete hand-over that the next boot finds (R445, R448 source 15). -/
  incomplete : Bool
  flushBegun : W
  flushDone : W
  optime : Nat
  pcc : BitVec 24
  life : Vector W 6
  openR : BitVec 4
  openW : BitVec 4
  lockR : BitVec 4
  lockW : BitVec 4
  page : BitVec 10
  ppage : BitVec 6
  ceN : W
  ueN : W
  pwbad : W
  ue : Bool
  ce : Bool
  /-- Logic-die volatile counters have reached the analog die (R444). -/
  handed : Bool
  /-- The 24 counter words as they reached the analog die, which saves them without the logic die; empty before a hand-over and from
  the next boot on (R16, R444). -/
  handWords : List W
  /-- The enforce flag in force: item 4 as the last image check, or power-up, found it (R88, R441). -/
  enforceOn : Bool
  serialHi : W
  optimeHi : W
  agreedHi : W
  savedTicks : Nat
deriving DecidableEq, Repr

/-! ### Clocks, events, trace (R449–R482) -/

/-- Clock and reset control. -/
structure Clocks where
  refOk : Bool
  hold : Bool
  sysLk : Bool
  tx0Lk : Bool
  tx1Lk : Bool
  linkLk : Bool
  /-- Islands held in reset alone, and islands whose crossings are fenced (R465–R467). -/
  inReset : BitVec 23
  fenced : BitVec 23
  /-- PLLs that have lost lock since they last locked: SYS, TX0, TX1, LINK (R470). -/
  lost : BitVec 4
deriving DecidableEq, Repr

/-- A trace packet (R480), its kind giving the order of R481: 0 sync, 1 the rest. -/
structure Trace where
  sync : Bool
  bytes : List Byte
deriving DecidableEq, Repr

/-- The event matrix, observation counters and Laeno port. -/
structure Events where
  pend : Vector W 48
  ovr : Vector W 48
  en0 : Vector W 48
  en1 : Vector W 48
  counts : List (Nat × BitVec 64)
  countHi : List (Nat × W)
  ctl : W
  snapLo : W
  snapHi : W
  csamp : W
  drop : W
  dropRun : Nat
  fifo : List Trace
  sentBytes : List Byte
  stamp : BitVec 48
deriving DecidableEq, Repr

/-- The whole machine. -/
structure State where
  /-- The commands that are waiting, first in, first out. -/
  pending : List Instr
  engines : Vector Engine 6
  lanes : Vector Lane 96
  clusters : Vector Cluster 12
  params : Params
  queue : Queue
  boot : Boot
  ports : Vector PortS 4
  transit : TransitU
  store : Store
  streams : Vector Stream 8
  txs : Vector Tx 2
  fm : Fm
  twin : Twin
  sextant : Sextant
  bellows : Bellows
  thermal : Thermal
  serial : Serial
  nv : Nv
  clocks : Clocks
  events : Events
  /-- Word 0x0000_0080 (R486). -/
  scratch : W
  /-- The model's own: how many free values have been read (log entry 3). -/
  freeCtr : Nat
deriving DecidableEq, Repr

/-! ### Reset values -/

def Ctx.zero : Ctx :=
  { g := Vector.replicate 16 0, z := false, n := false, c := false, v := false, pc := 0, loops := [], latches := 0,
    block := .ready, merGot := none, tags := Vector.replicate 4 none }

def ExcCap.zero : ExcCap := ⟨0, 0, 0, 0⟩

def Engine.zero : Engine :=
  { st := 0, run := 0, ctxs := Vector.replicate 4 Ctx.zero, prog := [], data := [], progBad := [], dataBad := [],
    progSoft := [], dataSoft := [], exc := ExcCap.zero, chans := Vector.replicate 16 [], out := [], loaded := false, entry0 := 0,
    entryN := 0, windows := [], crcProg := 0, crcData := 0, routes := [], partials := Vector.replicate 4 [],
    stopDue := false }

def Lane.zero : Lane :=
  { ctx := Ctx.zero, v := Vector.replicate 8 (Vector.replicate 8 0), p := Vector.replicate 4 0, invoc := none,
    abandoned := none, loc := [], locBad := [], locSoft := [], exc := ExcCap.zero, fcOf := none, rcOf := none }

def Cluster.zero : Cluster :=
  { kernel := [], entry := 0, windows := [], stale := false, kernelBad := [], kernelSoft := [], slot := none, next := none, tile := [],
    tileBad := [], tileSoft := [], mhz := 0, stopped := false, clkNext := none,
    code := 48000, trimTemp := none, lastC500 := 48000 }

def Zone.zero : Zone := ⟨0, 0, 0, 0, []⟩

def PortS.zero : PortS :=
  { st := .off, mer := 0, merTicks := 0, merPcc := 0, skewSeen := false, frame := none, tail := none, bands := [], bandGen := 0,
    profile := 0, level := 0, stage := 0, fCount := 0, discardLeft := 0, altProcess := true, altSgen := 0, halfRate := false,
    entryMer := 0, sgenCount := 0, sgenNow := 0, sgenNext := 0, windowOpen := false, batch := 0,
    batchPend := false, fsInWindow := false, unsettled := false, selfTest := false, col := [], rowOff := [],
    slots := Vector.replicate 4 ⟨0, 0, false⟩, slotOrder := [], zones := Vector.replicate 16 Zone.zero,
    curve := Vector.replicate 257 0, curveFresh := true, curveMer := 0, curveChanged := false,
    prevCurve := Vector.replicate 257 0, prevCurveMer := 0, notify := 0, egen := 0, transitHold := false,
    holdEnds := false, backupClock := true, devAdopted := [] }

def Params.zero : Params :=
  { staging := [], force := [], pending := [], streamTie := [], gens := [], lastRefused := 0, refusals := 0,
    lastIndex := 0, devChecked := false, devAdopters := [] }

def Queue.zero : Queue :=
  { kslots := Vector.replicate 16 ⟨0, [], 0⟩, entries := [], given := 0, taken := 0, accepted := 0, pi := 0, ci := 0,
    qfullReject := false, ciInvalid := false,
    partialDiscard := false, ring := [], waiting := [], loadSel := 0, version := 0, code := 0, ignored := false,
    busy := false }

def Boot.zero : Boot :=
  { step := 0, bootsel := 0, code := 0, copy := false, boot := false, ready := false, meRestarting := false,
    cold := true, complete := false }

def TransitPort.zero : TransitPort :=
  { tcount := 0, lastTicks := 0, lastPcc := 0, abcode := 0, domeab := 0, wdefer := false, overdue := false,
    domeout := false, sceneOn := false, abcount := 0, tdome := 0, sbframes := 0, abTicks := none, startDue := true,
    startNow := false, firstTransit := false }

/-- The trims in force after manufacture: DCO code 48,000 (500 MHz exactly, R454) and slope 0 for each cluster, RC code
512, offsets 0, gains 2^30, reference 0x8000 (log entry 15). -/
def factoryTrims : List W :=
  List.replicate 12 (wn 48000) ++ [wn 512, 0] ++ List.replicate 8 0 ++ List.replicate 8 (wn (2 ^ 30)) ++ [wn 0x8000]

def TransitU.zero : TransitU :=
  { ports := Vector.replicate 4 TransitPort.zero, queue := [], cur := none, waiters := [], mergePort := none,
    mergeEgen := 0, mergedRows := [], prodSeq := 0, prodPorts := 0, prodBusy := false, prodDone := 0, prodCode := 0,
    prodP := Vector.replicate 4 0xFF, rstSeq := 0, rstPend := none, trimSeq := 0, trimAsk := false, islandTemps := Vector.replicate 8 none, trimcount := 0, trimTicks := 0,
    trimPcc := 0, refPpm := 0, refArmed := true, trims := factoryTrims }

def RMap.empty : RMap :=
  { gen := 0, lanes := 0, clusters := 0, ports := 0, bellows := 0, mods := 0, engines := 0, chan := none,
    banks := Vector.replicate 16 0, rows := Vector.replicate 16 [] }

def Store.zero : Store :=
  { mem := [], lost := none, poison := [], soft := [], hard := [], fixed := [], seqs := [], page := 0, ch15 := false, retch := 0,
    mig := false, migNext := 0, fail2 := false, poisonRd := false, refRate := 0, ce := 0, ceHi := 0, ue := 0,
    poisonAddr := 0, passes := 0, skippedPoison := 0, rowTimes := [],
    chanTimes := Vector.replicate 16 [] }

def Stream.zero : Stream :=
  { on := false, srcPort := 0, eligible := 0, frames := 0, due := [], cur := none, ending := [], firstPend := false,
    prevHead := none, failover := false, cursor := 0, pkts := [], ringAt := 0, srec := Vector.replicate 8 0 }

def Tx.zero : Tx := { on := false, line := 0, served := [], sent := none, burst := [], sentCount := 0 }

def UnitS.zero : UnitS :=
  { st := 0, total := 0, times := [], cause := 0, byError := false, reqTest := none, reqRetire := none,
    window := false, saved := none, rotate := false, backAtMer := false, failAtMer := false, retryCause := none, forPeer := false }

def Fm.zero : Fm :=
  { units := Vector.replicate 182 UnitS.zero, forced := 0, floor := true, clearPend := false, fault := false,
    last := 0, lastMer := 0, lastCause := 0, lastOut := 0, transient := 0, permanent := 0, ext := 0, program := 0,
    patch := 0, noretry := 0, evict := 0, map := RMap.empty, outcomes := [], storeReqs := [], storePend := [] }

def Twin.zero : Twin :=
  { st := 0, prime := false, owner := false, strap := false, lock := 0, trained := false,
    txSeq := 0, rxSeq := 0, unacked := [], queue := [], lastSent := none, ackDue := false, peerSn := 0, peerSnHi := 0,
    peerStage := 0, peerFault := false, propStage := 0, badRun := 0, mapNew := false, offsetDue := Vector.replicate 4 false,
    ownStart := Vector.replicate 4 false,
    agreeIn := [], imgAsked := false, peerMap := [], heartNo := 0, lastHeart := Vector.replicate 4 0,
    proposals := [], captured := [], held := [], laterD := none, agreedI := [], offsets := Vector.replicate 4 0, outStep := Vector.replicate 4 false,
    ownTiles := [], peerTiles := [], mism := [], diverged := [], gotRows := [], portWait := [],
    agreeHold := Vector.replicate 4 false, sendTiles := [], tests := [],
    psIn := [], psWait := [], psOut := [], allBlocks := false, imgLen := 0, fromPeer := Vector.replicate 4 false,
    sweep := false, sweepPort := 0, sweepRow := 0, checkFrames := 0,
    rowsIn := [], raiseAtMer := false, lowerAtMer := false, takeover := false, yieldWait := false, yieldSeq := 0,
    swapAt := false, agreedTicks := 0, watchdog := false, mismatch := 0, tileResync := 0, bulk := 0,
    takeovers := 0, yields := 0, outsteps := 0, diverge := 0, retx := 0, crcerr := 0 }

def SxMod.zero : SxMod :=
  { cond := .idle, pend := none, startAt := 0, late := false, edges := 0, chain := [], conv := 0, sum := 0,
    clip := false, compl := false, seqNo := 0, fifo := [], resHi := 0, acc := 0, cnt := 0, accHi := 0, overrun := 0,
    ovf := 0, lateN := 0, testing := false, checking := none,
    trimDue := false, trimming := none, gapAt := none }

def Sextant.zero : Sextant :=
  { mods := Vector.replicate 8 SxMod.zero, latest := [], lastHi := [], chkSkip := 0, checkDue := none, stopped := false }

def BlwAct.zero : BlwAct := ⟨0, 0, 0, 0, 0, 0, 0, false, 0, false, false⟩

def Blw.zero : Blw :=
  { st := 0, act := BlwAct.zero, nextAct := none, target := 0, periods := 0, phasePeriods := 0, ramp := 0, measured := 0, req := none, actSeq := 0, actions := 0, waits := 0,
    refused := 0, wantClosed := false, wantOpen := false,
    failedSt := 0 }

def Bellows.zero : Bellows := { ch := Vector.replicate 8 Blw.zero, hsFault := 0, lowVact := false, locked := false }

/-- A sensor at reset (R394). -/
def Sensor.zero : Sensor :=
  { read := 0, shutc := false, thr := false, wrn := false, fast := false,
    low := 0x7FFF, high := 0x8000, shutRun := 0, farRun := 0, keeps := false, underTest := 0, everRead := false }

/-- The thermal settings before the first table (R385). -/
def thermalDefaults : List W :=
  let zn : List W := [wn 0x1CC01A40, wn 0x2080]
  [0] ++ zn ++ zn ++ zn ++ zn ++ [wn (5 * 65536 + 100), wn 0x000A0000] ++ List.replicate 21 0

def Thermal.zero : Thermal :=
  { sensors := Vector.replicate 48 Sensor.zero,
    zones := Vector.replicate 4 0, stage := 0, agreed := 0, table := thermalDefaults, seq := 0, refused := false,
    shutdown := false, rails := 0x1F, vio := true, vact := true, pfail := true, vcore := 0x320, pfStep := 0,
    pfCause := 0, handCause := 0, shutRec := [], vcoreTicks := none, resetN := false, held := false }

def Serial.zero : Serial :=
  { bufs := [], statusOut := 0, wordsOut := [], rej := false, lastRej := 0, rejs := 0, timeouts := 0, xipWait := [], readEnd := none, frameWait := none,
    cfg := 0x00140101, rdcmd := 0x05FAEE11, wcmd := 0x000806F9, hcmd := 0, haddr := 0, hlen := 0, hbusy := false,
    hcode := 0, hbuf := [], lines := [], mp0 := none, mp0Done := 0, mp0Bus := [], swsel := 0x000CFF00, swPend := none, gpio := 0, mp1 := none,
    mp1Served := [], deferred := [], fills := 0, pollto := 0, deferN := 0, rdyto := 0, refusedN := 0 }

def Nv.zero : Nv :=
  { mem := [], bad := [], soft := [], writes := [], sent := [], queue := [], last := none, dirtyStart := 0, dirty := [], logEnd := 0,
    lost := 0, lostMark := false, clears := 0, cursor := 0, flushing := false, again := false, flushTo := 0, clearWait := false,
    interrupted := false, incomplete := false, flushBegun := 0, flushDone := 0, optime := 0, pcc := 0, life := Vector.replicate 6 0,
    openR := 0, openW := 0, lockR := 0, lockW := 0, page := 0, ppage := 0, ceN := 0, ueN := 0, pwbad := 0,
    ue := false, ce := false, handed := false, handWords := [], enforceOn := false, serialHi := 0, optimeHi := 0, agreedHi := 0, savedTicks := 0 }

def Clocks.zero : Clocks :=
  { refOk := true, hold := false, sysLk := false, tx0Lk := false, tx1Lk := false, linkLk := false,
    inReset := 0x27E000, fenced := 0x27E000, lost := 0 }

def Events.zero : Events :=
  { pend := Vector.replicate 48 0, ovr := Vector.replicate 48 0, en0 := Vector.replicate 48 0,
    en1 := Vector.replicate 48 0, counts := [], countHi := [], ctl := 0x100, snapLo := 0, snapHi := 0, csamp := 0,
    drop := 0, dropRun := 0, fifo := [], sentBytes := [], stamp := 0 }

/-- The machine in device reset, before RESET_N is released (R11): every register at its reset value. -/
def State.reset : State :=
  { pending := [], engines := Vector.replicate 6 Engine.zero, lanes := Vector.replicate 96 Lane.zero,
    clusters := Vector.replicate 12 Cluster.zero, params := Params.zero, queue := Queue.zero, boot := Boot.zero,
    ports := Vector.replicate 4 PortS.zero, transit := TransitU.zero, store := Store.zero,
    streams := Vector.replicate 8 Stream.zero, txs := Vector.replicate 2 Tx.zero, fm := Fm.zero, twin := Twin.zero,
    sextant := Sextant.zero, bellows := Bellows.zero, thermal := Thermal.zero, serial := Serial.zero, nv := Nv.zero,
    clocks := Clocks.zero, events := Events.zero, scratch := 0, freeCtr := 0 }

end Sys2Proof.Machine
end

