-- ==== Sys2Proof/Machine/Ops.lean ====
section
/-! DEFINITION. The named operations over memories, parameter maps and the units of the state. -/
namespace Sys2Proof.Machine

/-! ### Byte memories -/

/-- The byte at an address; an unlisted address reads 0. -/
def Mem.get : Mem → Nat → Byte
  | [], _ => 0
  | (k, b) :: r, a => if a = k then b else if a < k then 0 else Mem.get r a

/-- Writes one byte; a zero byte is not listed. -/
def Mem.set : Mem → Nat → Byte → Mem
  | [], a, b => if b = 0 then [] else [(a, b)]
  | (k, x) :: r, a, b =>
    if a = k then (if b = 0 then r else (a, b) :: r)
    else if a < k then (if b = 0 then (k, x) :: r else (a, b) :: (k, x) :: r)
    else (k, x) :: Mem.set r a b

/-- Whether every key of `m` is above `lo` and rising, and no zero byte is listed. -/
def Mem.above : Nat → Mem → Bool
  | _, [] => true
  | lo, (k, b) :: r => decide (lo < k) && decide (b ≠ 0) && Mem.above k r

/-- The canonical form of a memory (R242 keeps contents; the form is the model's). -/
def Mem.wf : Mem → Bool
  | [] => true
  | (k, b) :: r => decide (b ≠ 0) && Mem.above k r

/-- `n` bytes from `a`. -/
def Mem.read (m : Mem) (a n : Nat) : List Byte := (List.range n).map fun i => Mem.get m (a + i)

/-- Writes a byte string from `a` upwards. -/
def Mem.write : Mem → Nat → List Byte → Mem
  | m, _, [] => m
  | m, a, b :: bs => Mem.write (Mem.set m a b) (a + 1) bs

/-- The little-endian word at `a` (R7). -/
def Mem.word (m : Mem) (a : Nat) : W :=
  word4 (Mem.get m a) (Mem.get m (a + 1)) (Mem.get m (a + 2)) (Mem.get m (a + 3))

/-- Writes a little-endian word at `a` (R7). -/
def Mem.setWord (m : Mem) (a : Nat) (w : W) : Mem := Mem.write m a (wordBytes w)

/-- The little-endian halfword at `a`. -/
def Mem.half (m : Mem) (a : Nat) : Nat := (Mem.get m a).toNat + 256 * (Mem.get m (a + 1)).toNat

/-! ### Keyed lists -/

/-- The value listed under a key. -/
def lookupN {α : Type} : List (Nat × α) → Nat → Option α
  | [], _ => none
  | (k, x) :: r, a => if a = k then some x else lookupN r a

/-- Lists a value under a key, keys rising. -/
def insertN {α : Type} : List (Nat × α) → Nat → α → List (Nat × α)
  | [], a, x => [(a, x)]
  | (k, y) :: r, a, x =>
    if a = k then (a, x) :: r else if a < k then (a, x) :: (k, y) :: r else (k, y) :: insertN r a x

/-- Removes a key. -/
def eraseN {α : Type} (l : List (Nat × α)) (a : Nat) : List (Nat × α) := l.filter fun e => e.1 ≠ a

/-- The value under a key, or a default. -/
def getN {α : Type} (l : List (Nat × α)) (a : Nat) (d : α) : α := (lookupN l a).getD d

/-! ### Units of the state -/

/-- Replaces one element of a fixed table. -/
def upd {α : Type} {n : Nat} (v : Vector α n) (i : Fin n) (f : α → α) : Vector α n := v.set i (f (v.get i))

def State.modEng (s : State) (e : Eng) (f : Engine → Engine) : State := { s with engines := upd s.engines e f }
def State.modLane (s : State) (l : LaneNo) (f : Lane → Lane) : State := { s with lanes := upd s.lanes l f }
def State.modCluster (s : State) (k : Fin 12) (f : Cluster → Cluster) : State :=
  { s with clusters := upd s.clusters k f }
def State.modPort (s : State) (p : Port) (f : PortS → PortS) : State := { s with ports := upd s.ports p f }
def State.modStream (s : State) (i : Fin 8) (f : Stream → Stream) : State := { s with streams := upd s.streams i f }
def State.modTx (s : State) (x : Fin 2) (f : Tx → Tx) : State := { s with txs := upd s.txs x f }
def State.modFm (s : State) (f : Fm → Fm) : State := { s with fm := f s.fm }
def State.modUnit (s : State) (u : Fin 182) (f : UnitS → UnitS) : State :=
  s.modFm fun m => { m with units := upd m.units u f }
def State.modMod (s : State) (m : Fin 8) (f : SxMod → SxMod) : State :=
  { s with sextant := { s.sextant with mods := upd s.sextant.mods m f } }
def State.modBlw (s : State) (c : Fin 8) (f : Blw → Blw) : State :=
  { s with bellows := { s.bellows with ch := upd s.bellows.ch c f } }
def State.modSensor (s : State) (t : Fin 48) (f : Sensor → Sensor) : State :=
  { s with thermal := { s.thermal with sensors := upd s.thermal.sensors t f } }
def State.modTransit (s : State) (f : TransitU → TransitU) : State := { s with transit := f s.transit }
def State.modTPort (s : State) (p : Port) (f : TransitPort → TransitPort) : State :=
  s.modTransit fun t => { t with ports := upd t.ports p f }
def State.modStore (s : State) (f : Store → Store) : State := { s with store := f s.store }
def State.modTwin (s : State) (f : Twin → Twin) : State := { s with twin := f s.twin }
def State.modNv (s : State) (f : Nv → Nv) : State := { s with nv := f s.nv }
def State.modSerial (s : State) (f : Serial → Serial) : State := { s with serial := f s.serial }
def State.modQueue (s : State) (f : Queue → Queue) : State := { s with queue := f s.queue }
def State.modThermal (s : State) (f : Thermal → Thermal) : State := { s with thermal := f s.thermal }
def State.modParams (s : State) (f : Params → Params) : State := { s with params := f s.params }
def State.modClocks (s : State) (f : Clocks → Clocks) : State := { s with clocks := f s.clocks }
def State.modEvents (s : State) (f : Events → Events) : State := { s with events := f s.events }
def State.modBoot (s : State) (f : Boot → Boot) : State := { s with boot := f s.boot }

def State.eng (s : State) (e : Eng) : Engine := s.engines.get e
def State.lane (s : State) (l : LaneNo) : Lane := s.lanes.get l
def State.cluster (s : State) (k : Fin 12) : Cluster := s.clusters.get k
def State.port (s : State) (p : Port) : PortS := s.ports.get p
def State.stream (s : State) (i : Fin 8) : Stream := s.streams.get i
def State.unit (s : State) (u : Fin 182) : UnitS := s.fm.units.get u
def State.mod (s : State) (m : Fin 8) : SxMod := s.sextant.mods.get m
/-- A targeted self-test or a reference check runs; it counts as converting (R351). -/
def SxMod.inGap (x : SxMod) : Bool := x.testing || x.checking.isSome || x.trimming.isSome
def State.blw (s : State) (c : Fin 8) : Blw := s.bellows.ch.get c
def State.sensor (s : State) (t : Fin 48) : Sensor := s.thermal.sensors.get t
def State.tport (s : State) (p : Port) : TransitPort := s.transit.ports.get p

/-! UNIT_STATE slots (R308). -/

def uLane (l : LaneNo) : Fin 182 := ⟨l.val, by omega⟩
def uCluster (k : Fin 12) : Fin 182 := ⟨96 + k.val, by omega⟩
def uPort (p : Port) : Fin 182 := ⟨108 + p.val, by omega⟩
def uBlw (c : Fin 8) : Fin 182 := ⟨112 + c.val, by omega⟩
def uMod (m : Fin 8) : Fin 182 := ⟨120 + m.val, by omega⟩
def uEng (e : Eng) : Fin 182 := ⟨128 + e.val, by omega⟩
def uSensor (t : Fin 48) : Fin 182 := ⟨134 + t.val, by omega⟩

/-- The cluster of a lane (R139). -/
def clusterOf (l : LaneNo) : Fin 12 := ⟨l.val / 8, by omega⟩

/-- All the numbers below `n`, as `Fin n`. -/
def allFin (n : Nat) : List (Fin n) := List.finRange n

/-- Changes every element of a fixed table. -/
def updAll {α : Type} {n : Nat} (v : Vector α n) (f : Fin n → α → α) : Vector α n :=
  (allFin n).foldl (fun v i => upd v i (f i)) v

/-- A free word (log entry 3): the next value of the opaque `Config.freeWord`. -/
def State.free (s : State) : W × State := (Config.freeWord s.freeCtr, { s with freeCtr := s.freeCtr + 1 })

/-- Folds a state change over a list. -/
def forEach {α : Type} (l : List α) (f : α → State → State) (s : State) : State := l.foldl (fun t x => f x t) s

/-- The local operating time in 1/16 s ticks (R443). -/
def State.ticks (s : State) : Nat := s.nv.optime

end Sys2Proof.Machine
end

