-- ==== Sys2Proof/Machine/Events.lean ====
section
/-! DEFINITION. The event matrix (R471–R476), the observation counters (R478) and the making of trace packets (R479–R481). -/
namespace Sys2Proof.Machine

/-! ### Global source numbers (R471) -/

def srcLane (l : LaneNo) (k : Nat) : Nat := 32 * (l.val / 4) + 8 * (l.val % 4) + k
def srcChan (c : Fin 16) (k : Nat) : Nat := 32 * (24 + c.val / 4) + 8 * (c.val % 4) + k
def srcPort (p : Port) (k : Nat) : Nat := 32 * (28 + p.val) + k
def srcTx (x : Fin 2) (k : Nat) : Nat := 32 * 32 + 16 * x.val + k
def srcStream (s : Fin 8) (k : Nat) : Nat := 32 * 33 + 4 * s.val + k
def srcLink (k : Nat) : Nat := 32 * 34 + k
def srcMod (m : Fin 8) (k : Nat) : Nat := 32 * (35 + m.val / 4) + 8 * (m.val % 4) + k
def srcBlw (c : Fin 8) (k : Nat) : Nat := 32 * (37 + c.val / 4) + 8 * (c.val % 4) + k
def srcSensor (t : Fin 48) (k : Nat) : Nat := 32 * 39 + 2 * t.val + k
def srcSerial (k : Nat) : Nat := 32 * 42 + k
def srcEng (e : Eng) (k : Nat) : Nat := 32 * (43 + e.val / 2) + 16 * (e.val % 2) + k
def srcClock (k : Nat) : Nat := if k < 32 then 32 * 46 + k else 32 * 47 + (k - 32)
def srcAlm (k : Nat) : Nat := 32 * 47 + 16 + k

/-! ### Observation counters (R478) -/

/-- Adds to counter `i`, 64 bits, wrapping. -/
def State.count (s : State) (i n : Nat) : State :=
  s.modEvents fun e => { e with counts := insertN e.counts i (getN e.counts i 0 + BitVec.ofNat 64 n) }

/-- The value of counter `i`. -/
def State.counter (s : State) (i : Nat) : BitVec 64 := getN s.events.counts i 0

/-! ### Trace packets -/

/-- Whether the Laeno port is on (R482). -/
def State.traceOn (s : State) : Bool := bitOf s.events.ctl 0

/-- The bytes waiting in the trace FIFO. -/
def fifoBytes (l : List Trace) : Nat := (l.map fun t => t.bytes.length).foldl (· + ·) 0

/-- Queues a packet of type `ty` from source `src` (R480): bytes 1 and 2 are the low half of the trace timestamp, which
this model leaves free (log entry 4). A packet that does not fit the 4 KiB FIFO whole is dropped and counted (R481). -/
def State.trace (s : State) (ty src : Nat) (body : List Byte) : State :=
  if s.traceOn then
    let w := s.free
    let s := w.2.modEvents fun e => { e with stamp := w.1.zeroExtend 48 }
    let pk : Trace := { sync := ty == 4, bytes := BitVec.ofNat 8 (ty + 16 * src) :: (wordBytes w.1).take 2 ++ body }
    if fifoBytes s.events.fifo + pk.bytes.length ≤ 4096 then
      s.modEvents fun e => { e with fifo := e.fifo ++ [pk] }
    else
      s.modEvents fun e => { e with drop := satAdd e.drop 1, dropRun := min (e.dropRun + 1) 0xFFFF }
  else s

/-- A flow packet of a traced engine (R480 type 1). -/
def State.traceFlow (s : State) (e : Eng) (c : Fin 4) (reason : Nat) (target : W) (cause : List Byte) : State :=
  if bitOf s.events.ctl (1 + e.val) then
    s.trace 1 e.val (BitVec.ofNat 8 (c.val + 4 * reason) :: wordBytes target ++ cause)
  else s

/-! ### Occurrences (R473, R475, R476) -/

/-- Whether group `g` is selected for snapshots (R482). -/
def State.snapSel (s : State) (g : Nat) : Bool :=
  if g < 32 then bitOf s.events.snapLo g else bitOf s.events.snapHi (g - 32)

/-- Sets the wait latches that a source is routed to, on every engine, running or stopped (R475, R476). -/
def latchRoutes (src : Nat) (en : Engine) : Engine :=
  en.routes.foldl (fun en r =>
    if r.on && r.src.val == src then
      { en with ctxs := upd en.ctxs r.ctx fun c => { c with latches := c.latches ||| (1 <<< r.input.val : W) } }
    else en) en

/-- One occurrence of a source (R473): the pending bit, or the overrun bit if it was already pending; the group's
counter (R478) and, for a port source, the source's counter; a snapshot packet when the word changes; the wait latches
routed to it. -/
def State.occur (s : State) (src : Nat) : State :=
  if h : src / 32 < 48 then
    let g : Fin 48 := ⟨src / 32, h⟩
    let m : W := 1 <<< (src % 32)
    let was := bitOf (s.events.pend.get g) (src % 32)
    let s := s.modEvents fun e =>
      if was then { e with ovr := upd e.ovr g (· ||| m) } else { e with pend := upd e.pend g (· ||| m) }
    let s := s.count (416 + g.val) 1
    let s := if 28 ≤ g.val ∧ g.val < 32 then s.count (256 + 32 * (g.val - 28) + src % 32) 1 else s
    let s := if !was && s.snapSel g.val then
        s.trace 2 6 (BitVec.ofNat 8 g.val :: wordBytes (s.events.pend.get g)) else s
    { s with engines := updAll s.engines fun _ en => latchRoutes src en }
  else s

/-- Sets a wait input of one context (R62: W24, W25, W28–W31). -/
def State.latch (s : State) (e : Eng) (c : Fin 4) (input : Nat) : State :=
  s.modEng e fun en => { en with ctxs := upd en.ctxs c fun x => { x with latches := x.latches ||| (1 <<< input : W) } }

/-! ### Island resets (R465–R467, R470) -/

/-- An island enters reset alone and its crossings are fenced: source 2i of the clock group. -/
def State.islandReset (s : State) (i : Nat) : State :=
  if s.clocks.inReset.getLsbD i then s
  else (s.modClocks fun c =>
    { c with inReset := c.inReset ||| (1 <<< i : BitVec 23), fenced := c.fenced ||| (1 <<< i : BitVec 23) }).occur (srcClock (2 * i))

/-- An island's reset is released; the fence drops with the command ISLAND_RESET_RELEASE. -/
def State.islandOut (s : State) (i : Nat) : State :=
  s.modClocks fun c => { c with inReset := c.inReset &&& ~~~(1 <<< i : BitVec 23) }

/-- The PLLs by number: SYS, TX0, TX1, LINK. -/
def Clocks.locked (c : Clocks) (k : Fin 4) : Bool :=
  if k = 0 then c.sysLk else if k = 1 then c.tx0Lk else if k = 2 then c.tx1Lk else c.linkLk

def Clocks.setLock (c : Clocks) (k : Fin 4) (b : Bool) : Clocks :=
  if k = 0 then { c with sysLk := b } else if k = 1 then { c with tx0Lk := b }
  else if k = 2 then { c with tx1Lk := b } else { c with linkLk := b }

/-- Whether a PLL gives its clock: it has locked since it started; one that has lost its lock does not stop its islands (R450, R451). -/
def Clocks.gives (c : Clocks) (k : Fin 4) : Bool := c.locked k || c.lost.getLsbD k.val

/-- A PLL stops. -/
def Clocks.drop (c : Clocks) (k : Fin 4) : Clocks := { c.setLock k false with lost := c.lost &&& ~~~(1 <<< k.val : BitVec 4) }

/-- Whether a line HIRQx is driven high (R473): a source pending and enabled; low while the thermal shutdown latch holds the logic die
(R474). -/
def State.hirq (s : State) (one : Bool) : Bool :=
  !s.thermal.held && (allFin 48).any fun g =>
    (s.events.pend.get g &&& (if one then s.events.en1.get g else s.events.en0.get g)) != 0

end Sys2Proof.Machine
end

