-- ==== Sys2Proof/Machine/Params.lean ====
section
/-! DEFINITION. The parameter blocks: which fields exist, their reset values and defined bits, who writes them (R55, R99, R104,
R116–R131, R148–R151, R171–R192, R199, R259–R280, R338, R346–R348, R363, R413), their refusal rules (R103) and the
reading of the copies in force. -/
namespace Sys2Proof.Machine

/-- Reset value and defined bits of field `f` of relative block `r` of a port (R116, R119, R127, R131, R148, R150, R151,
R178, R180, R183, R188, R192). -/
def portField (odd : Bool) (r f : Nat) : Option (W × W) :=
  match r, f with
  | 0, 0 => some (0x08000A00, 0x0FFF0FFF)
  | 0, 1 => some (0, 0x001F3F3F)
  | 0, 2 => some (0x00012E02, 0x00033F1F)
  | 0, 3 => some (1, 0xFFFF)
  | 1, 0 => some (0x9610, if odd then 0x0003FFFD else 0x0003FFFF)
  | 1, 1 => some (0x00FAC688, 0xFFFFFFFF)
  | 2, 0 => some (0xC350, 0x00FFFFFF)
  | 2, 1 => some (0x30D40, 0x00FFFFFF)
  | 2, 2 => some (2, 0xF)
  | 3, 0 => some (0x1F4, 0xFFFF)
  | 4, 0 => some (0x300, 0x30F)
  | 4, 1 => some (0, 0xFFFFFFFF)
  | 4, 2 => some (0, 0xFFFFFFFF)
  | 4, 3 => some (0, 0xFFFF)
  | 4, 4 => some (0, 0xFFFF)
  | 5, 0 => some (0x00640140, 0x00FF03FF)
  | 5, 1 => some (0x100, 0xFFFFFFFF)
  | 6, 0 => some (0x08103002, 0x1F1FF00F)
  | 6, 1 => some (0x400, 0x00FFFFFF)
  | 7, 0 => some (0x04040851, 0x1F1F1FF1)
  | 7, 1 => some (0x004080C0, 0xFFFFFFFF)
  | 7, 2 => some (0x01000080, 0xFFFFFFFF)
  | 7, 3 => some (0x08000200, 0xFFFFFFFF)
  | 7, 4 => some (0xE0, 0xFF)
  | 8, 0 => some (0x00800001, 0x01FF0001)
  | 8, 1 => some (0xC00, 0x00FFFFFF)
  | 9, 0 => some (0, 0x0001FFFF)
  | 9, 1 => some (0x10, 0x7F)
  | 9, f =>
    if 8 ≤ f ∧ f ≤ 31 then (if (f - 8) % 3 = 0 then some (0x80004940, 0xFFFFFFFF) else some (1, 0x0FFF0FFF)) else none
  | 10, 0 => some (0x00063C00, 0x000FFFFF)
  | 10, 1 => some (0x3FF00010, 0xFFFFFFFF)
  | 10, 2 => some (0x00023001, 0x000FFF03)
  | 10, 3 => some (0x4D804440, 0xFFFFFFFF)
  | 10, 4 => some (0xFEB80148, 0xFFFFFFFF)
  | 11, f =>
    if f < 128 then
      match f % 8 with
      | 0 => some (1, 0x0FFF0FFF)
      | 1 => some (1, 0x0FFF0FFF)
      | 2 => some (0x00105D40, 0xFFFFFFFF)
      | 3 => some (0x07000140, 0x0F00FFFF)
      | 4 => some (0x00208200, 0x00FFFF01)
      | _ => none
    else none
  | _, _ => none

/-- Writable fields of block 0x001 (R199). -/
def transitField (f : Nat) : Option (W × W) :=
  match f with
  | 0 => some (0x00000F00, 0x00000F0F)
  | 1 => some (0x8000, 0xFFFFFFFF)
  | 2 => some (0x0384001E, 0xFFFFFFFF)
  | 3 => some (0x00081003, 0x00FFFF0F)
  | 4 => some (0x00640064, 0xFFFFFFFF)
  | 5 => some (0x00041000, 0x00FFFFFF)
  | 6 => some (0x40000018, 0xFFFF003F)
  | 7 => some (0x0020000A, 0x00FFFFFF)
  | 8 => some (0, 0xFFFFFFFF)
  | 9 => some (0, 0xFFFFFFFF)
  | 10 => some (0, 0x0000FF0F)
  | 11 => some (0, 0x0000FF03)
  | 12 => some (0, 0x0000FF01)
  | f =>
    if 16 ≤ f ∧ f ≤ 47 then
      match f % 8 with
      | 0 => some (0, 0x0000FF0F)
      | 1 => some (0, 0xFFFFFFFF)
      | 2 => some (0x000F4240, 0xFFFFFFFF)
      | 3 => some (0x01112666, 0xFFFFFFFF)
      | 4 => some (0, 0xFFFFFFFF)
      | 5 => some (0, 0xFFFFFFFF)
      | 6 => some (0x01000004, 0xFFFF000F)
      | _ => some (0x20000400, 0xFFFFFFFF)
    else none

/-- Whether a field of block 0x001 is one of the read-only ones (R199). -/
def transitRo (f : Nat) : Bool := (64 ≤ f && f ≤ 95) || (128 ≤ f && f ≤ 133)

/-- Reset value and defined bits of a stream's block S+`k` (R259, R260, R273, R278). -/
def streamField (st k f : Nat) : Option (W × W) :=
  match k, f with
  | 0, 0 => some (0, 0x0FFEFFFF)
  | 1, 0 => some (0, 0x0FFF0FFF)
  | 1, 1 => some (0x08000A00, 0x0FFF0FFF)
  | 1, 2 => some (0x08000A00, 0x1FFF1FFF)
  | 2, 0 => some (0xFFFF1000, 0xFFFFFF00)
  | 2, 1 => some (0, 0xFFFF)
  | 3, 0 => if st < 2 then some (0x9610, 0x0003FFDD) else none
  | 3, 1 => if st < 2 then some (0xE4, 0x000F00FF) else none
  | _, _ => none

/-- Reset value and defined bits of a writable parameter field; none where no such field exists (R55, R99). -/
def fieldInfo (blk f : Nat) : Option (W × W) :=
  if blk = 0 then
    (if f = 0 then some (0, 3) else if f = 1 then some (5, 0xF) else if f ≤ 5 then some (0, 0xF) else none)
  else if blk = 1 then transitField f
  else if blk = 2 then (if f = 0 then some (4, 0x0000FF05) else if f = 1 then some (0x28, 0x3F) else none)
  else if 0x040 ≤ blk ∧ blk < 0x140 then portField ((blk - 0x040) / 64 % 2 = 1) ((blk - 0x040) % 64) f
  else if 0x140 ≤ blk ∧ blk < 0x180 then (if f < 256 then some (0, 0xFFFFFFFF) else none)
  else if 0x180 ≤ blk ∧ blk < 0x1A0 then streamField ((blk - 0x180) / 4) ((blk - 0x180) % 4) f
  else if 0x1A0 ≤ blk ∧ blk < 0x1A8 then (if f < 256 then some (wn (0x00808000 + f), 0x00FFFFFF) else none)
  else if 0x1C0 ≤ blk ∧ blk < 0x1C8 then
    (match f with
     | 0 => some (0, 0xFF37FF2D)
     | 1 => some (0x3E8, 0x00FFFFFF)
     | 2 => some (0, 0xFFFF)
     | 3 => some (0, 1)
     | _ => none)
  else if blk = 0x1C8 ∨ blk = 0x1C9 then
    (if f < 256 then (if f % 2 = 0 then some (0, 0xFFFF733F) else some (0x80000000, 0xEFFFFFFF)) else none)
  else if 0x1D0 ≤ blk ∧ blk < 0x1D8 then
    (match f with
     | 0 => some (0, 0xFF30F903)
     | 1 => some (0, 0x0FFF0FFF)
     | 2 => some (0x00140028, 0xFFFFFFFF)
     | 3 => some (0, 0x00FF01FF)
     | 4 => some (0x050001F4, 0xFF00FFFF)
     | _ => none)
  else if blk = 0x1E0 then
    (if f < 16 then (if f % 2 = 0 then some (0x807, 0xFFFF) else some (0x00402814, 0x3FFFFFFF))
     else if f = 16 then some (0x3E8, 0xFFFF) else none)
  else none

/-- Whether a field is read-only (R99, R102, R103, R199). -/
def roField (blk f : Nat) : Bool :=
  (blk == 1 && transitRo f) || (0x3F0 ≤ blk && blk ≤ 0x3F3 && f < 256) || (blk == 0x3FE && f < 3)

/-- Whether a parameter field exists (R55). -/
def fieldExists (blk f : Nat) : Bool := (fieldInfo blk f).isSome || roField blk f

/-- The class of a block (R99, R100). -/
inductive BlkClass where
  | p
  | d
  | i
  | ro
  | none
deriving DecidableEq, Repr

def blkClass (blk : Nat) : BlkClass :=
  if blk = 0 then .d
  else if blk = 1 ∨ blk = 2 then .i
  else if 0x040 ≤ blk ∧ blk < 0x140 then (if (blk - 0x040) % 64 < 12 then .p else .none)
  else if 0x140 ≤ blk ∧ blk < 0x180 then .p
  else if 0x180 ≤ blk ∧ blk < 0x1A0 then (if (blk - 0x180) % 4 = 3 ∧ 0x188 ≤ blk then .none else .p)
  else if 0x1A0 ≤ blk ∧ blk < 0x1A8 then .p
  else if 0x1C0 ≤ blk ∧ blk < 0x1CA then .i
  else if 0x1D0 ≤ blk ∧ blk < 0x1D8 then .i
  else if blk = 0x1E0 then .i
  else if (0x3F0 ≤ blk ∧ blk ≤ 0x3F3) ∨ blk = 0x3FE then .ro
  else .none

/-- The port whose meridian a block of the port ranges is tied to (R99). -/
def blkPort (blk : Nat) : Option Port :=
  if 0x040 ≤ blk ∧ blk < 0x140 then some ⟨(blk - 0x040) / 64 % 4, by omega⟩
  else if 0x140 ≤ blk ∧ blk < 0x180 then some ⟨(blk - 0x140) / 16 % 4, by omega⟩
  else none

/-- The stream a block belongs to. -/
def blkStream (blk : Nat) : Option (Fin 8) :=
  if 0x180 ≤ blk ∧ blk < 0x1A0 then some ⟨(blk - 0x180) / 4 % 8, by omega⟩
  else if 0x1A0 ≤ blk ∧ blk < 0x1A8 then some ⟨(blk - 0x1A0) % 8, by omega⟩
  else none

/-- Whether an engine may write a block at all (R99): CE every writable block; PSn its port's blocks and block 0x1E0. -/
def blkWritable (blk : Nat) (e : Eng) : Bool :=
  match blkClass blk with
  | .p | .d | .i =>
    e.val == 0 ||
      (1 ≤ e.val && e.val ≤ 4 &&
        ((0x040 + 64 * (e.val - 1) ≤ blk && blk < 0x040 + 64 * (e.val - 1) + 64) || blk == 0x1E0))
  | _ => false

/-- Whether an engine may write a field (R55, R414: to PSn all but fields 2n and 2n + 1 of block 0x1E0 are read-only). -/
def fieldWritable (blk f : Nat) (e : Eng) : Bool :=
  blkWritable blk e && (fieldInfo blk f).isSome &&
    (e.val == 0 || blk != 0x1E0 || f / 2 == e.val - 1 && f < 16)

/-- A field of a copy: the listed word or the reset value (R99). -/
def PMap.fld (m : PMap) (blk f : Nat) : W :=
  (lookupN m (blk * 256 + f)).getD ((fieldInfo blk f).getD (0, 0)).1

/-- The fields of one block listed in a copy. -/
def PMap.block (m : PMap) (blk : Nat) : PMap := m.filter fun e => e.1 / 256 = blk

/-- Replaces the fields of one block by those of another copy. -/
def PMap.setBlock (m : PMap) (blk : Nat) (b : PMap) : PMap :=
  b.foldl (fun acc e => insertN acc e.1 e.2) (m.filter fun e => e.1 / 256 ≠ blk)

/-- The base block number of a port. -/
def pB (p : Port) : Nat := 0x040 + 64 * p.val

/-! ### Named fields of a copy -/

def PMap.rows (m : PMap) (p : Port) : Nat := Sys2Proof.fld (m.fld (pB p) 0) 27 16
def PMap.cols (m : PMap) (p : Port) : Nat := Sys2Proof.fld (m.fld (pB p) 0) 11 0
def PMap.blindRows (m : PMap) (p : Port) : Nat := Sys2Proof.fld (m.fld (pB p) 1) 20 16
def PMap.left (m : PMap) (p : Port) : Nat := Sys2Proof.fld (m.fld (pB p) 1) 5 0
def PMap.right (m : PMap) (p : Port) : Nat := Sys2Proof.fld (m.fld (pB p) 1) 13 8
def PMap.nSamp (m : PMap) (p : Port) : Nat := Sys2Proof.fld (m.fld (pB p) 2) 3 0
def PMap.orderB (m : PMap) (p : Port) : Bool := bitOf (m.fld (pB p) 2) 4
def PMap.lineNum (m : PMap) (p : Port) : Bool := bitOf (m.fld (pB p) 2) 17
def PMap.embEn (m : PMap) (p : Port) : Bool := bitOf (m.fld (pB p) 2) 16
def PMap.dt (m : PMap) (p : Port) : Nat := Sys2Proof.fld (m.fld (pB p) 2) 13 8
def PMap.lineFirst (m : PMap) (p : Port) : Nat := Sys2Proof.fld (m.fld (pB p) 3) 15 0
def PMap.linePixels (m : PMap) (p : Port) : Nat := m.left p + m.cols p + m.right p
def PMap.lines (m : PMap) (p : Port) : Nat := m.blindRows p + m.rows p
def PMap.enable (m : PMap) (p : Port) : Bool := bitOf (m.fld (pB p + 1) 0) 0
def PMap.gang (m : PMap) (p : Port) : Bool := p.val % 2 == 0 && bitOf (m.fld (pB p + 1) 0) 1
def PMap.vc (m : PMap) (p : Port) : Nat := Sys2Proof.fld (m.fld (pB p + 1) 0) 7 6
def PMap.rate (m : PMap) (p : Port) : Nat := Sys2Proof.fld (m.fld (pB p + 1) 0) 17 8
def PMap.nLanes (m : PMap) (p : Port) : Nat := Sys2Proof.fld (m.fld (pB p + 1) 0) 5 2
def PMap.slotOf (m : PMap) (p : Port) : Fin 16 := ⟨Sys2Proof.fld (m.fld (pB p + 4) 0) 3 0 % 16, by omega⟩
def PMap.tarr (m : PMap) (p : Port) : Int := (m.fld (pB p + 4) 1).toInt
def PMap.ttransit (m : PMap) (p : Port) : Int := (m.fld (pB p + 4) 2).toInt
def PMap.duty (m : PMap) (p : Port) : Nat := Sys2Proof.fld (m.fld (pB p + 4) 3) 15 0
def PMap.dutyTransit (m : PMap) (p : Port) : Nat := Sys2Proof.fld (m.fld (pB p + 4) 4) 15 0
def PMap.profileOf (m : PMap) : BitVec 2 := BitVec.ofNat 2 (Sys2Proof.fld (m.fld 0 0) 1 0)
def PMap.frugalPorts (m : PMap) : List Port := (allFin 4).filter fun p => bitOf (m.fld 0 1) p.val
def PMap.twinEn (m : PMap) : Bool := bitOf (m.fld 2 0) 0
def PMap.radTable (m : PMap) (p : Port) (k : Nat) : Int := (m.fld (0x140 + 16 * p.val + k / 256) (k % 256)).toInt
def PMap.streamCtl (m : PMap) (st : Fin 8) : W := m.fld (0x180 + 4 * st.val) 0
def PMap.streamOn (m : PMap) (st : Fin 8) : Bool := bitOf (m.streamCtl st) 0
def PMap.streamPort (m : PMap) (st : Fin 8) : Port := ⟨Sys2Proof.fld (m.streamCtl st) 3 2 % 4, by omega⟩
def PMap.streamTx (m : PMap) (st : Fin 8) : Fin 2 := ⟨Sys2Proof.fld (m.streamCtl st) 17 17 % 2, by omega⟩
def PMap.txCtl (m : PMap) (x : Fin 2) : W := m.fld (0x183 + 4 * x.val) 0

/-- Whether a port is the upper port of a ganged pair (R118). -/
def PMap.upperOfGang (m : PMap) (p : Port) : Bool :=
  if h : p.val % 2 = 1 then m.gang ⟨p.val - 1, by omega⟩ else false

/-- Tile columns and tiles of a port's active area (R278). -/
def PMap.tilesAcross (m : PMap) (p : Port) : Nat := (m.cols p + 63) / 64
def PMap.tileCount (m : PMap) (p : Port) : Nat := m.tilesAcross p * ((m.rows p + 63) / 64)

/-! ### Refusal rules (R103) -/

/-- The first entry of a list of (index, holds) that does not hold. -/
def firstBad : List (Nat × Bool) → Option Nat
  | [] => none
  | (i, ok) :: r => if ok then firstBad r else some i

def inR (x lo hi : Nat) : Bool := lo ≤ x && x ≤ hi

/-- Distinctness of the first `n` entries of a lane map of `bits`-bit entries (R117, R273). -/
def mapDistinct (w : W) (bits n : Nat) : Bool :=
  let es := (List.range n).map fun i => fld w (bits * i + bits - 1) (bits * i)
  es.eraseDups.length == es.length

/-- What the checks need to know of the machine besides the copies: which ports are off, which engines hold GPIO15. -/
structure ChkEnv where
  off : Port → Bool
  /-- A channel of the pair of B4/B5 (0) or B6/B7 (1) is not off. -/
  pairBusy : Fin 8 → Bool

/-- Block B+0 and block B+1 of a port (R117, R119, R122, R123). DT is checked in order A only, the order it is for (log
entry 149). `v` is the view after the meridian, `o` the copies in
force now. -/
def checkPortLink (env : ChkEnv) (v o : PMap) (p : Port) (r : Nat) : List (Nat × Bool) :=
  let b := pB p + r
  let i (f : Nat) := b * 256 + f
  match r with
  | 0 =>
    let plane := v.lines p * ((v.linePixels p * 2 + 63) / 64 * 64)
    let region := if v.gang p then 2 ^ 27 else 2 ^ 26
    let okBlind (x : Nat) : Bool := x % 8 == 0 && x ≤ 32
    [(i 0, inR (v.rows p) 48 2048 && inR (v.cols p) 64 2560 && v.cols p % 16 == 0),
     (i 1, v.blindRows p ≤ 16 && okBlind (v.left p) && okBlind (v.right p)),
     (i 2, inR (v.nSamp p) 1 8 && (v.orderB p || v.dt p == 0x2D || v.dt p == 0x2E) &&
        (!v.orderB p || (v.nSamp p * plane ≤ region && v.profileOf != 1)))]
  | _ =>
    let l := v.nLanes p
    let w1 := v.fld b 1
    let ents := (List.range l).map fun k => fld w1 (3 * k + 2) (3 * k)
    let gang := v.gang p
    let upperOn : Bool := if h : p.val % 2 = 0 then v.enable ⟨p.val + 1, by omega⟩ else false
    let same : Bool := (v.fld b 0 &&& (0xFFFFFFFE : W)) == (o.fld b 0 &&& (0xFFFFFFFE : W))
    [(i 0, inR (v.rate p) 8 450 && (inR l 1 4 || (l == 8 && gang)) && !(gang && upperOn) && (same || env.off p)),
     (i 1, mapDistinct w1 3 l && (gang || ents.all (· ≤ 3)) && (w1 == o.fld b 1 || env.off p))]

/-- Refusal of block 0x001 (R199, R200). -/
def checkTransit (v : PMap) : List (Nat × Bool) :=
  let g (f : Nat) := v.fld 1 f
  let i (f : Nat) := 256 + f
  let maxint := fld (g 2) 31 16
  let guard := fld (g 2) 15 0
  [(i 1, inR (g 1).toNat 0xCCD 0xA0000),
   (i 2, inR maxint 10 65535 && inR guard 1 3600 && guard < maxint),
   (i 3, inR (fld (g 3) 15 8) 4 64 && inR (fld (g 3) 3 0) 1 15),
   (i 4, inR (fld (g 4) 31 16) 1 1000 && inR (fld (g 4) 15 0) 1 1000),
   (i 5, inR (fld (g 5) 23 16) 1 255),
   (i 6, inR (fld (g 6) 5 4) 1 3 && inR (fld (g 6) 3 0) 1 15),
   (i 7, inR (fld (g 7) 23 16) 4 255 && inR (fld (g 7) 15 0) 1 3600),
   (i 8, (g 8) == 0 || inR (g 8).toNat 500000 3300000),
   (i 9, (g 9).toNat % 4096 == 0)] ++
  (allFin 4).map fun p => (i (22 + 8 * p.val), decide (fld (g (22 + 8 * p.val)) 3 0 ≤ 12))

/-- The lowest decrease of a port's radiance table, if any (R182). -/
def tableDecrease (v : PMap) (p : Port) : Option Nat :=
  (List.range 4095).find? fun k => decide (v.radTable p (k + 1) < v.radTable p k)

/-- Refusal of blocks B+5 to B+11 and of the radiance table. -/
def checkPortProc (v : PMap) (p : Port) (r : Nat) : List (Nat × Bool) :=
  let b := pB p + r
  let g (f : Nat) := v.fld b f
  let i (f : Nat) := b * 256 + f
  match r with
  | 2 => [(i 1, (g 1) != 0)]
  | 6 => [(i 0, fld (g 0) 28 24 ≤ 16 && fld (g 0) 20 16 ≤ 16 && fld (g 0) 3 0 ≤ 8)]
  | 7 =>
    let w1 := fld (g 0) 12 8
    [(i 0, fld (g 0) 28 24 + fld (g 0) 20 16 + w1 == 16 && w1 != 0 && fld (g 0) 7 4 ≤ 8),
     (i 2, fld (g 2) 15 0 ≤ fld (g 2) 31 16),
     (i 3, fld (g 2) 31 16 ≤ fld (g 3) 15 0)]
  | 8 => [(i 0, fld (g 0) 24 16 ≤ 256)]
  | 9 =>
    (i 1, inR (fld (g 1) 6 0) 1 64) ::
      (List.range 8).map fun z => (i (8 + 3 * z), inR (fld (g (8 + 3 * z)) 31 16) 0x0666 0x8000)
  | 10 =>
    [(i 0, fld (g 0) 19 16 ≤ 10),
     (i 2, fld (g 2) 1 0 != 3 && fld (g 2) 19 16 ≤ 8 && 0x10 ≤ fld (g 2) 15 8),
     (i 3, fld (g 3) 15 0 < fld (g 3) 31 16),
     (i 4, fld (g 4) 15 0 < fld (g 4) 31 16)]
  | 11 =>
    (List.range 16).map fun z =>
      (i (8 * z + 4), fld (g (8 * z + 4)) 15 12 != 0 && fld (g (8 * z + 4)) 11 8 != 0)
  | _ => []

/-- Refusal of a stream's blocks (R259, R260, R273, R278). -/
def checkStream (v o : PMap) (st : Fin 8) (k : Nat) : List (Nat × Bool) :=
  let b := 0x180 + 4 * st.val + k
  let g (f : Nat) := v.fld b f
  let i (f : Nat) := b * 256 + f
  match k with
  | 0 =>
    let c := g 0
    let fmt := fld c 7 6
    let dt := fld c 15 8
    let clash := (allFin 8).any fun t => t != st && v.streamOn t && v.streamTx t == v.streamTx st &&
      fld (v.streamCtl t) 20 18 == fld c 20 18
    [(i 0, (fld c 5 4 == 0 || fmt == 0) && (dt == 0 || inR dt 0x30 0x37) && !(fmt == 3 && dt == 0) &&
       !v.upperOfGang (v.streamPort st) && !(bitOf c 0 && clash))]
  | 1 =>
    let p := v.streamPort st
    let ch := fld (g 1) 27 16
    let cw := fld (g 1) 11 0
    let oh := fld (g 2) 28 16
    let ow := fld (g 2) 12 0
    let row := fld (g 0) 27 16
    let col := fld (g 0) 11 0
    [(i 0, col % 8 == 0 && row + ch ≤ v.rows p && col + cw ≤ v.cols p),
     (i 1, inR ch 8 2048 && inR cw 16 2560 && cw % 8 == 0),
     (i 2, inR oh 8 4096 && inR ow 16 5120 && ow % 8 == 0 && cw ≤ 16 * ow && ow ≤ 2 * cw && ch ≤ 16 * oh && oh ≤ 2 * ch)]
  | 2 =>
    [(i 0, fld (g 0) 31 16 != 0 && 1 ≤ fld (g 0) 15 8), (i 1, fld (g 1) 15 0 < v.tileCount (v.streamPort st))]
  | _ =>
    let c := g 0
    let l := fld c 4 2
    let on := bitOf (o.fld b 0) 0
    let same : Bool := (c &&& (0xFFFFFFFE : W)) == (o.fld b 0 &&& (0xFFFFFFFE : W))
    let used := (allFin 8).any fun t => o.streamOn t && (o.streamTx t).val == st.val
    [(i 0, inR (fld c 17 8) 8 450 && inR l 1 4 && (same || !on) && !(on && !bitOf c 0 && used)),
     (i 1, mapDistinct (g 1) 2 l && (g 1 == o.fld b 1 || !on))]

/-- A sequencing entry of a copy (R348). -/
def sxEntryOf (v : PMap) (e : Nat) : W × W :=
  (v.fld (0x1C8 + e / 128) (2 * (e % 128)), v.fld (0x1C8 + e / 128) (2 * (e % 128) + 1))

/-- The chain of entries from `e` to the one with END = 1, or none if it revisits an entry first (R347). -/
def sxChain (v : PMap) : Nat → List Nat → Nat → Option (List Nat)
  | 0, _, _ => none
  | n + 1, seen, e =>
    if seen.contains e then none
    else if bitOf (sxEntryOf v e).2 31 then some (seen ++ [e])
    else sxChain v n (seen ++ [e]) (fld (sxEntryOf v e).2 27 20)

def sxEnabled (v : PMap) (m : Fin 8) : Bool := bitOf (v.fld (0x1C0 + m.val) 0) 0
def sxChainOf (v : PMap) (m : Fin 8) : Option (List Nat) := sxChain v 257 [] (fld (v.fld (0x1C0 + m.val) 0) 15 8)

/-- Whether the chains of the enabled modulators are sound and disjoint (R347). -/
def sxChainsOk (v : PMap) : Bool :=
  (allFin 8).all (fun m => !sxEnabled v m || (sxChainOf v m).isSome) &&
  (allFin 8).all fun m => (allFin 8).all fun k =>
    m == k || !sxEnabled v m || !sxEnabled v k ||
      ((sxChainOf v m).getD []).all fun e => !((sxChainOf v k).getD []).contains e

/-- Refusal of Sextant blocks (R347). -/
def checkSextant (v : PMap) (blk : Nat) : List (Nat × Bool) :=
  let i (f : Nat) := blk * 256 + f
  if blk < 0x1C8 then
    [(i 0, fld (v.fld blk 0) 3 2 != 3 && sxChainsOk v), (i 1, v.fld blk 1 != 0)]
  else
    ((List.range 128).flatMap fun e =>
      let w0 := v.fld blk (2 * e)
      let w1 := v.fld blk (2 * e + 1)
      [(i (2 * e), fld w0 9 8 != 3 && fld w0 5 0 < 0x3B), (i (2 * e + 1), decide (fld w1 19 16 < 12))]) ++
    [(i 0, sxChainsOk v)]

/-- Peak of a phase in 1/256 mA (R365). -/
def peakOf (target damp : Nat) : Nat := target * (256 + damp)

/-- The largest peak a block can give its channel or pair, in 1/256 mA. -/
def blockPeak (v : PMap) (c : Nat) : Nat :=
  let cur := v.fld (0x1D0 + c) 1
  peakOf (max (fld cur 27 16) (fld cur 11 0)) (fld (v.fld (0x1D0 + c) 3) 23 16)

/-- Refusal of a bellows block (R363, R364). GPIO15 is held while block 0x002 EN is in force (R311); a GPIO is also held
as the position switch of another channel or as the ready input of a select (R414). -/
def checkBellows (env : ChkEnv) (v o : PMap) (c : Fin 8) : List (Nat × Bool) :=
  let b := 0x1D0 + c.val
  let g (f : Nat) := v.fld b f
  let i (f : Nat) := b * 256 + f
  let par := bitOf (g 0) 1
  let lim := if par then 3000 else 1500
  let gp := fld (g 0) 15 12
  let gpHeld : Bool :=
    ((allFin 8).any fun k => k != c && bitOf (o.fld (0x1D0 + k.val) 0) 8 && fld (o.fld (0x1D0 + k.val) 0) 15 12 == gp) ||
    ((List.range 8).any fun q => bitOf (o.fld 0x1E0 (2 * q)) 10 && fld (o.fld 0x1E0 (2 * q)) 15 12 == gp)
  let df := fld (g 3) 8 0
  [(i 0, (fld (g 0) 21 20 != 3 || c.val < 4) && !(par && c.val != 4 && c.val != 6) &&
      !(par != bitOf (o.fld b 0) 1 && env.pairBusy c) && gp != 15 && !(bitOf (g 0) 8 && gpHeld)),
   (i 1, fld (g 1) 27 16 ≤ lim && fld (g 1) 11 0 ≤ lim && (!par || blockPeak v c.val ≤ 3200 * 256)),
   (i 2, inR (fld (g 2) 31 16) 1 1000 && fld (g 2) 15 0 ≤ 1000),
   (i 3, fld (g 3) 23 16 ≤ 0x40 && (df == 0 || inR df 25 400)),
   (i 4, 1 ≤ fld (g 4) 15 0)]

/-- Refusal of block 0x1E0 (R413, R414). -/
def checkMp1 (v o : PMap) : List (Nat × Bool) :=
  let g (f : Nat) := v.fld 0x1E0 f
  let i (f : Nat) := 0x1E0 * 256 + f
  let held (q : W) : Bool := bitOf q 10 &&
    ((fld q 15 12 == 15 && o.twinEn) ||
     (allFin 8).any fun k => bitOf (o.fld (0x1D0 + k.val) 0) 8 && fld (o.fld (0x1D0 + k.val) 0) 15 12 == fld q 15 12)
  ((List.range 8).map fun s => (i (2 * s), fld (g (2 * s)) 7 0 != 0 && !held (g (2 * s)))) ++
    [(i 16, g 16 != 0)]

/-- The first field of a block that fails its checks (R103): `v` the view with every pending copy of the moment applied,
`o` the copies in force. -/
def checkBlock (env : ChkEnv) (v o : PMap) (blk : Nat) : Option Nat :=
  if blk = 0 then
    firstBad
      [(0, v.profileOf != 1 || (allFin 4).all fun p => !v.orderB p), (1, v.frugalPorts.length == 2)]
  else if blk = 1 then firstBad (checkTransit v)
  else if blk = 2 then firstBad [(2 * 256 + 1, inR (fld (v.fld 2 1) 5 0) 1 40)]
  else if 0x040 ≤ blk ∧ blk < 0x140 then
    (match blkPort blk with
     | some p =>
       let r := (blk - 0x040) % 64
       if r < 2 then firstBad (checkPortLink env v o p r) else firstBad (checkPortProc v p r)
     | none => none)
  else if 0x140 ≤ blk ∧ blk < 0x180 then
    (match blkPort blk with
     | some p => (tableDecrease v p).map fun k => (0x140 + 16 * p.val + (k + 1) / 256) * 256 + (k + 1) % 256
     | none => none)
  else if 0x180 ≤ blk ∧ blk < 0x1A0 then
    (match blkStream blk with
     | some st => firstBad (checkStream v o st ((blk - 0x180) % 4))
     | none => none)
  else if 0x1C0 ≤ blk ∧ blk < 0x1CA then firstBad (checkSextant v blk)
  else if h : 0x1D0 ≤ blk ∧ blk < 0x1D8 then firstBad (checkBellows env v o ⟨blk - 0x1D0, by omega⟩)
  else if blk = 0x1E0 then firstBad (checkMp1 v o)
  else none

/-! ### Read-only fields and reading (R102, R103, R199) -/

def pccWord (pcc : BitVec 24) (ticks : Nat) : W := wn (pcc.toNat * 256 + ticks / 2 ^ 32 % 256)

/-- A read-only field of block 0x001 (R199). -/
def transitRoField (t : TransitU) (egen : Port → W) (f : Nat) : W :=
  if f < 96 then
    let p : Port := ⟨(f - 64) / 8 % 4, by omega⟩
    let x := t.ports.get p
    match f % 8 with
    | 0 => egen p
    | 1 => x.tcount
    | 2 => wn x.lastTicks
    | 3 => pccWord x.lastPcc x.lastTicks
    | 4 =>
      let step := match t.cur with
        | some c => if c.port = p then c.step.val else if t.queue.any (fun q => q.1 = p) then 1 else 0
        | none => if t.queue.any (fun q => q.1 = p) then 1 else 0
      wn (x.abcode.toNat * 2 ^ 24 + x.domeab.toNat * 2 ^ 16 + b2n x.wdefer * 2 ^ 11 + b2n x.overdue * 2 ^ 10 +
        b2n x.domeout * 2 ^ 9 + b2n x.sceneOn * 2 ^ 8 + step)
    | 5 => x.abcount
    | 6 => x.tdome
    | _ => x.sbframes
  else match f with
    | 128 => t.trimcount
    | 129 => wn t.trimTicks
    | 130 => pccWord t.trimPcc t.trimTicks
    | 131 => t.refPpm
    | 132 => wn (t.prodDone.toNat * 256 + t.prodCode.toNat)
    | 133 => word4 (t.prodP.get 0) (t.prodP.get 1) (t.prodP.get 2) (t.prodP.get 3)
    | _ => 0

/-- Whether block 0x002 EN is in force. -/
def State.twinEn (s : State) : Bool := s.params.force.twinEn

/-- Whether the pair runs under the commit agreement: states RESYNC and LOCKSTEP (R317, R322). -/
def State.twinning (s : State) : Bool := s.twinEn && (s.twin.st == 3 || s.twin.st == 4)

/-- The agreed operating time (R326, R486): the local operating time outside twin operation. -/
def State.agreed (s : State) : Nat := if s.twinning then s.twin.agreedTicks else s.nv.optime

/-- A field of block 0x001 in force (R199). -/
def State.t1 (s : State) (f : Nat) : W := s.params.force.fld 1 f

/-- The effective interval in ticks (R203). -/
def State.effInterval (s : State) (p : Port) : Nat :=
  let m := Sys2Proof.fld (s.t1 2) 31 16
  16 * (if (s.port p).profile = 2 then min m 120 else m)

/-- Ticks since the port's last commit (R202). -/
def State.sinceCommit (s : State) (p : Port) : Nat := s.agreed - (s.tport p).lastTicks

/-- Whether the effective interval has passed since the port's last commit (R203). -/
def State.intervalOver (s : State) (p : Port) : Bool := decide (s.effInterval p ≤ s.sinceCommit p)

/-- The transit unit as its read-only fields show it: OVERDUE is set as soon as the interval has passed (R203). -/
def State.transitShown (s : State) : TransitU :=
  { s.transit with ports := updAll s.transit.ports fun p x => { x with overdue := x.overdue || s.intervalOver p } }

/-- The value in force of a field as engines and the mirror see it (R58, R105); 0 where no such field exists. -/
def State.force (s : State) (blk f : Nat) : W :=
  if blk = 1 ∧ transitRo f then transitRoField s.transitShown (fun p => (s.port p).egen) f
  else if 0x3F0 ≤ blk ∧ blk ≤ 0x3F3 then getN s.params.gens ((blk - 0x3F0) * 256 + f) 0
  else if blk = 0x3FE then
    (match f with | 0 => s.params.lastRefused | 1 => s.params.refusals | 2 => s.params.lastIndex | _ => 0)
  else if (fieldInfo blk f).isSome then s.params.force.fld blk f
  else 0

/-- The read-only fields as they stand, those that are not 0 (R58, R102, R103, R199). -/
def State.roCopy (s : State) : PMap :=
  let block (blk : Nat) (fs : List Nat) : PMap := fs.map fun f => (blk * 256 + f, s.force blk f)
  let gens : PMap := s.params.gens.map fun e => (0x3F000 + e.1, e.2)
  (block 1 ((List.range 256).filter transitRo) ++ gens ++ block 0x3FE [0, 1, 2]).filter fun e => e.2 ≠ 0

/-- The copies in force that a port's coming frame runs under: the class D copy it has adopted in place of block 0x000 (R519). -/
def State.portView (s : State) (p : Port) : PMap := s.params.force.setBlock 0 ((s.port p).devAdopted)

/-- PEER_OWNER (R311, R339): the level of GPIO15 while EN is in force. -/
def State.peerOwner (s : State) : Bool := s.twinEn && s.serial.gpio.getLsbD 15

/-- Whether any port runs. -/
def State.anyRunning (s : State) : Bool := (allFin 4).any fun p => (s.port p).st == .running

/-- The lowest-numbered running port. -/
def State.lowRunning (s : State) : Option Port := (allFin 4).find? fun p => (s.port p).st == .running

/-- The meridian count that MER, records and headers carry (R321): the local count plus the shadow's offset. -/
def State.agreedMer (s : State) (p : Port) : W := (s.port p).mer + s.twin.offsets.get p

end Sys2Proof.Machine
end

