-- ==== Sys2Proof/Machine/LinkBase.lean ====
section
/-! DEFINITION. The Ghenik link's frames: their layout, sending, and what every received frame goes through (R313–R317, R335). -/
namespace Sys2Proof.Machine

/-- Whether the link is in service (R317). -/
def State.linkUp (s : State) : Bool := 2 ≤ s.twin.st.val && s.twin.st.val ≤ 4

/-! ### Layout (R314) -/

/-- A payload brought to a multiple of 8 bytes (R314). -/
def pad8 (ws : List W) : List W := if ws.length % 2 = 0 then ws else ws ++ [0]

/-- The two header words of a frame. -/
def LinkFrame.header (f : LinkFrame) : List W :=
  [wn (f.type.toNat + 2 ^ 8 * f.seq.toNat + 2 ^ 16 * f.ack.toNat + 2 ^ 24 * f.cls), wn (4 * f.payload.length + 2 ^ 12 * f.port.val)]

/-- A frame on the lanes: header, payload, the CRC-32C of both, a reserved word. -/
def LinkFrame.words (f : LinkFrame) : List W :=
  let b := f.header ++ f.payload
  b ++ [crc32c (wordsBytes b), 0]

/-- What one frame cannot hold goes on in the next frame of its type: a frame with all 2,048 bytes is continued (log entry 161). -/
def linkChunks : Nat → List W → List (List W)
  | 0, _ => []
  | n + 1, ws => ws.take 512 :: if 512 ≤ ws.length then linkChunks n (ws.drop 512) else []

/-! ### Sending (R112, R315) -/

/-- The acknowledgement that every frame carries: the last sequence number received in order (R315). -/
def Twin.ackNo (t : Twin) : Byte := t.rxSeq - 1

/-- Sends a frame of classes 1 to 4 with the next sequence number; the acknowledgement goes with it (R315). The last frame of an image is
source 20 (R316, R340). -/
def State.linkPut (s : State) (f : LinkFrame) : State :=
  let s := s.modTwin fun t =>
    let g := { f with seq := t.txSeq, ack := t.ackNo }
    { t with txSeq := t.txSeq + 1, unacked := t.unacked ++ [g], lastSent := some g, ackDue := false }
  if f.type = 0x0B ∧ !(s.twin.queue.any fun g => g.type == 0x0B) then s.occur (srcLink 20) else s

/-- Held frames go while there is room (R315). -/
def State.linkPump : Nat → State → State
  | 0, s => s
  | n + 1, s =>
    match s.twin.queue with
    | f :: r => if s.twin.unacked.length < 128 then State.linkPump n ((s.modTwin fun t => { t with queue := r }).linkPut f) else s
    | [] => s

/-- Payloads ready to send, each in a frame of its own: a lower class before a higher one, in order within a class; held while 128 frames
are unacknowledged (R112, R315), with source 19 when the bound is met (R340). -/
def State.linkSendAll (s : State) (type : Byte) (cls : Nat) (p : Port) (payloads : List (List W)) : State :=
  let fs := payloads.map fun ws => ({ type := type, seq := 0, ack := 0, cls := cls, port := p, payload := pad8 ws } : LinkFrame)
  let held := !s.twin.queue.isEmpty
  let s := s.modTwin fun t => { t with queue := (t.queue.filter fun g => g.cls ≤ cls) ++ fs ++ t.queue.filter fun g => cls < g.cls }
  let s := State.linkPump s.twin.queue.length s
  if !held && !s.twin.queue.isEmpty then s.occur (srcLink 19) else s

/-- One payload, in as many frames as it takes. -/
def State.linkSend (s : State) (type : Byte) (cls : Nat) (p : Port) (payload : List W) : State :=
  s.linkSendAll type cls p (linkChunks (payload.length / 512 + 1) payload)

/-- Whether this device is the source of a port's resync (R318, R325): the prime, but for a port whose frame the shadow alone processed. -/
def Twin.isSource (t : Twin) (p : Port) : Bool := t.prime != t.fromPeer.get p

/-- A noted almanac record goes to the partner while the link is in service (R335). -/
def State.sendRecord (s : State) (r : Rec) : State :=
  if s.linkUp && !s.thermal.held && !bitOf r.w1 16 then s.linkSend 0x08 3 0 ([r.w0, r.w1, r.w2, r.w3] ++ r.payload) else s

/-! ### Receiving (R313, R315, R340) -/

/-- Frames that wait for the link when the twin island is reset and they are given up are counted (R466). -/
def State.linkDiscard (s : State) : State := s.count (384 + 21) s.twin.queue.length

/-- Training or retraining starts (R313, R317, R465): the twin island is reset, every lane's block lock is lost, source 1. -/
def State.linkRetrain (s : State) : State :=
  let s := (s.modTwin fun t => { t with trained := false, lock := 0, badRun := 0 }).occur (srcLink 1)
  let s := (s.islandReset 21).islandOut 21
  if s.twin.st = 5 ∧ bitOf (s.params.force.fld 2 0) 0 ∧ bitOf (s.params.force.fld 2 0) 2 then s.modTwin fun t => { t with st := 1 } else s

/-- A frame whose CRC is wrong is discarded and counted, source 17; the sixteenth in a row starts retraining (R313, R315, R340). -/
def State.rxBad (s : State) : State :=
  let s := (s.modTwin fun t => { t with crcerr := satAdd t.crcerr 1, badRun := t.badRun + 1 }).occur (srcLink 17)
  if 16 ≤ s.twin.badRun then s.linkRetrain else s

/-- A frame whose CRC is right brings its acknowledgement (R315): cumulative; held frames go while there is room. -/
def State.rxAck (s : State) (ack : Byte) : State :=
  State.linkPump 128 (s.modTwin fun t => { t with badRun := 0, unacked := t.unacked.filter fun f => 128 ≤ (ack - f.seq).toNat })

/-- A sequenced frame taken in order: it will be acknowledged (R315). -/
def State.linkRx (s : State) : State := s.modTwin fun t => { t with rxSeq := t.rxSeq + 1, ackDue := true }

/-- A frame of class 0: neither sequenced nor resent (R315). -/
def State.onClass0 (s : State) (h : RxHdr) (body : State → State) : State :=
  if s.thermal.held || !s.twin.trained then s
  else if !h.crcOk then s.rxBad
  else body (s.rxAck h.ack)

/-- A sequenced frame (R315): taken where it is the next in order and `takes` has room for it; out of order it is discarded and counted
(log entry 162), and acknowledged again up to the last one taken. -/
def State.onFrame (s : State) (h : RxHdr) (takes : State → Bool) (body : State → State) : State :=
  if s.thermal.held || !s.twin.trained then s
  else if !h.crcOk then s.rxBad
  else
    let s := s.rxAck h.ack
    if h.seq ≠ s.twin.rxSeq then s.modTwin fun t => { t with crcerr := satAdd t.crcerr 1, ackDue := true }
    else if takes s then body s.linkRx
    else s

/-- A sequenced frame of a link in service (R317). -/
def State.onLink (s : State) (h : RxHdr) (body : State → State) : State := s.onFrame h State.linkUp body

end Sys2Proof.Machine
end

