-- ==== Sys2Proof/Machine/Almanac.lean ====
section
/-! DEFINITION. Almanac records and the logic-die queue they are noted into (R422–R426). -/
namespace Sys2Proof.Machine

/-- Source unit codes of R423 beyond the UNIT_STATE slots. -/
def suStore : Nat := 182
def suLink : Nat := 183
def suTransit : Nat := 184
def suThermal : Nat := 185
def suPower : Nat := 186
def suParam : Nat := 187
def suAlmanac : Nat := 188
def suHost : Nat := 189

/-- Bytes a record takes, padding included (R422). -/
def recSize (r : Rec) : Nat := (16 + 4 * r.payload.length + 7) / 8 * 8

/-- The bytes of a record, padding included (R422). -/
def recBytes (r : Rec) : List Byte :=
  let b := wordsBytes ([r.w0, r.w1, r.w2, r.w3] ++ r.payload)
  b ++ List.replicate (recSize r - b.length) 0

/-- Bytes the queued records take of the 4 KiB queue (R426). -/
def queuedBytes (q : List (Rec × Option Req)) : Nat := (q.map fun r => recSize r.1).foldl (· + ·) 0

/-- A record stamped with the device's own operating time and power-cycle count (R422). `flags` is w1[23:16]. -/
def State.mkRec (s : State) (code sev src flags : Nat) (payload : List W) : Rec :=
  { w0 := wn (code + 2 ^ 12 * sev + 2 ^ 16 * (4 * payload.length) + 2 ^ 24 * src),
    w1 := wn (2 ^ 16 * flags),
    w2 := wn s.nv.optime,
    w3 := wn (s.nv.optime / 2 ^ 32 % 256 + 2 ^ 8 * s.nv.pcc.toNat),
    payload := payload }

/-- Whether record `i` of the list lies within the 4 KiB queue; one beyond it waits in its unit (R426). -/
def inQueue (q : List (Rec × Option Req)) (i : Nat) : Bool := decide (queuedBytes (q.take (i + 1)) ≤ 4096)

/-- Notes a record; `who` waits for its W25. One that the queue has room for is queued at once, and the partner gets its copy (R335, R426). -/
def State.queueRec (s : State) (r : Rec) (who : Option Req) : State :=
  let q := s.nv.queue ++ [(r, who)]
  let s := s.modNv fun n => { n with queue := q }
  if inQueue q (q.length - 1) then s.sendRecord r else s

/-- The records at these places are queued now, stamped with the time (R426), and sent to the partner as stamped; a mirrored record keeps the
time of the device it comes from (R422). -/
def State.queueStamp (s : State) (sel : Nat → Bool) : State :=
  let t := s.nv.optime
  let stamp (x : (Rec × Option Req) × Nat) : Rec × Option Req :=
    if sel x.2 && !bitOf x.1.1.w1 16 then
      ({ x.1.1 with w2 := wn t, w3 := wn (t / 2 ^ 32 % 256 + 2 ^ 8 * s.nv.pcc.toNat) }, x.1.2)
    else x.1
  let q := s.nv.queue.zipIdx.map stamp
  forEach (q.zipIdx.filter fun x => sel x.2) (fun x t => t.sendRecord x.1.1) (s.modNv fun n => { n with queue := q })

/-- Takes the first record out of the queue, which may let one that waits in its unit into it. -/
def State.queueTake (s : State) : State :=
  let q := s.nv.queue
  (s.modNv fun n => { n with queue := q.drop 1 }).queueStamp fun i => inQueue (q.drop 1) i && !inQueue q (i + 1)

/-- Notes a fixed-logic record (R424). A record that finds the queue full waits in its unit and follows in the same order,
so one list holds both (R426; log entry 17). -/
def State.note (s : State) (code sev src : Nat) (payload : List W) : State :=
  s.queueRec (s.mkRec code sev src 0 payload) none

/-- Records of severity 1 and the zero fields above come from R424's table; this is its row for a refused block. -/
def State.noteRefused (s : State) (blk idx : Nat) : State := s.note 0x400 1 suParam [wn blk, wn idx]

/-- A twin record 0x500 with the source of R340 (R424). -/
def State.noteTwin (s : State) (src : Nat) : State := s.note 0x500 0 suLink [wn src]

end Sys2Proof.Machine
end

