-- ==== Sys2Proof/Machine/Bellows.lean ====
section
/-! DEFINITION. The bellows channels' own rules: actions, grants of the high-side switches and releases (R362–R369). -/
namespace Sys2Proof.Machine

/-- The limit of a high-side switch, 3,200 mA, in 1/256 mA (R367). -/
def switchLimit : Nat := 3200 * 256

/-- The other channel on a channel's high-side switch (R362). -/
def otherBlw (c : Fin 8) : Fin 8 := if h : c.val % 2 = 0 then ⟨c.val + 1, by omega⟩ else ⟨c.val - 1, by omega⟩

def blwCtl (m : PMap) (c : Fin 8) : W := m.fld (0x1D0 + c.val) 0
def blwEn (m : PMap) (c : Fin 8) : Bool := bitOf (blwCtl m c) 0
def blwPar (m : PMap) (c : Fin 8) : Bool := (c.val == 4 || c.val == 6) && bitOf (blwCtl m c) 1

/-- The values an action of channel `c` starts with (R363, R364). -/
def blwActOf (m : PMap) (c : Fin 8) (pulse : Bool) : BlwAct :=
  let g (f : Nat) := m.fld (0x1D0 + c.val) f
  { ipull := fld (g 1) 11 0, ihold := fld (g 1) 27 16, tpull := fld (g 2) 15 0, trel := fld (g 2) 31 16,
    damp := fld (g 3) 23 16, dfreq := fld (g 3) 8 0, thold := fld (g 4) 15 0, pos := bitOf (g 0) 8,
    pgpio := ⟨fld (g 0) 15 12 % 16, by omega⟩, plevel := bitOf (g 0) 11, pulse := pulse }

/-- Whether a dome channel is provisioned (R369). -/
def blwProvisioned (m : PMap) (c : Fin 8) : Bool :=
  let a := blwActOf m c false
  blwEn m c && decide (100 ≤ if a.tpull = 0 then a.ihold else a.ipull) && (a.pos || decide (1 ≤ a.tpull))

/-- The target in force, in mA (R365): a release falls linearly to 0 over its ramp. -/
def blwTarget (b : Blw) : Nat :=
  if b.st = 4 then (rndDiv (b.target * (b.ramp - b.phasePeriods) : Nat) b.ramp).toNat else b.target

/-- The dither added to the target in force (R365), in 1/(256 × 10^6) mA: a triangle of ±DAMP × target at DFREQ, rising from zero at the
action's start; a test pulse has none (R371). -/
def blwDither (b : Blw) : Int :=
  if b.st = 5 then 0 else
  let f : Nat := b.act.dfreq * 40 * b.periods % 1000000
  let tri : Int := if f ≤ 250000 then 4 * f else if f ≤ 750000 then 2000000 - 4 * f else 4 * f - 4000000
  (b.act.damp * blwTarget b : Nat) * tri

/-- The peak of the phase a channel is in, in 1/256 mA (R365, R367; for a release, of the target it fell from, log entry 18). -/
def presentPeak (b : Blw) : Nat :=
  if b.st = 2 then peakOf b.act.ipull b.act.damp
  else if b.st = 3 then peakOf b.act.ihold b.act.damp
  else if b.st = 4 then peakOf b.target b.act.damp
  else if b.st = 5 then 100 * 256
  else 0

/-- Whether a channel is active: it carries current (R362). -/
def blwActive (b : Blw) : Bool := b.st == 2 || b.st == 3 || b.st == 4 || b.st == 5

/-! ### Pairs (R368) and channels out of service -/

/-- The lower channel of the pair that a channel belongs to in force, if it is paralleled. -/
def State.pairOf (s : State) (c : Fin 8) : Option (Fin 8) :=
  if blwPar s.params.force c then some c
  else if c.val % 2 = 1 ∧ blwPar s.params.force (otherBlw c) then some (otherBlw c)
  else none

/-- Whether the fault manager keeps a channel out of service. -/
def State.blwOut (s : State) (c : Fin 8) : Bool := !((s.unit (uBlw c)).st == 0 || (s.unit (uBlw c)).st == 3)

/-- What a channel without current shows: off, or 6 while it is kept out of service (R374). -/
def State.blwRest (s : State) (c : Fin 8) : BlwSt := if s.blwOut c then 6 else 0

/-- A channel that carries nothing shows state 6 from its isolation on. -/
def State.blwShut (s : State) (c : Fin 8) : State :=
  if (s.blw c).st = 0 then s.modBlw c fun b => { b with st := s.blwRest c } else s

/-- The upper channel of a pair shows state 7 while it follows, and off, cut or isolated when it does not. -/
def State.parFollow (s : State) (c : Fin 8) : State :=
  let up := if c.val % 2 = 1 then c else otherBlw c
  let follows := blwPar s.params.force (otherBlw up)
  let out := s.blwOut up
  s.modBlw up fun b =>
    if follows && b.st == 0 && !out then { b with st := 7 }
    else if b.st == 7 && (!follows || out && !blwActive (s.blw (otherBlw up))) then { b with st := if out then 6 else 0 }
    else b

/-- An event source of a channel (R375). The upper channel of a pair raises sources 5 and 6 only (R368). -/
def State.blwOccur (s : State) (c : Fin 8) (k : Nat) : State :=
  match s.pairOf c with
  | some l => if l = c ∨ k = 5 ∨ k = 6 then s.occur (srcBlw c k) else s
  | none => s.occur (srcBlw c k)

/-! ### Requests and grants (R366, R367) -/

/-- A request refused: counted, source 4 (R367, R370). -/
def State.blwRefuse (s : State) (c : Fin 8) : State :=
  (s.modBlw c fun b => { b with refused := satAdd b.refused 1, nextAct := none }).blwOccur c 4

/-- A grant (R367): into the test pulse, into hold where TPULL is 0 or the action resumes from release, or into pull-in. The action that the
request carries starts with it (R364, R365); a test pulse takes its release ramp from the block in force and leaves the open report of an
earlier release to come (R369, R371). -/
def State.blwGrant (s : State) (c : Fin 8) (resumed test : Bool) : State :=
  let trel := fld ((s.params.force.fld (0x1D0 + c.val) 2)) 31 16
  (s.modBlw c fun b =>
    if test then
      { b with st := 5, act := { b.act with trel := trel }, nextAct := none, target := 100, periods := 0, phasePeriods := 0, req := none,
               actions := satAdd b.actions 1, wantClosed := false }
    else
      let a := b.nextAct.getD b.act
      let hold := resumed || a.tpull == 0
      { b with st := if hold then 3 else 2, act := a, nextAct := none, target := if hold then a.ihold else a.ipull, periods := 0,
               phasePeriods := 0, req := none, actions := satAdd b.actions 1, wantClosed := decide (c.val < 4),
               wantOpen := false }).blwOccur c 0

/-- The peak of the first phase that a request asks for (R365, R367). -/
def requestPeak (b : Blw) (resumed test : Bool) : Nat :=
  let a := b.nextAct.getD b.act
  if test then 100 * 256 else if resumed || a.tpull == 0 then peakOf a.ihold a.damp else peakOf a.ipull a.damp

/-- A request of a channel under R367, evaluated at once. -/
def State.blwRequest (s : State) (c : Fin 8) (resumed test : Bool) : State :=
  let o := s.blw (otherBlw c)
  let peak := requestPeak (s.blw c) resumed test
  if s.bellows.locked || s.bellows.lowVact then s.blwRefuse c
  else if peak + presentPeak o ≤ switchLimit then s.blwGrant c resumed test
  else if o.req.isSome then s.blwRefuse c
  else
    (s.modBlw c fun b =>
      { b with st := if b.st = 4 then 4 else 1, req := some (peak, resumed), waits := satAdd b.waits 1 }).blwOccur c 3

/-- A phase change of channel `c` re-evaluates the waiting request of the other channel on the switch (R367). -/
def State.blwReeval (s : State) (c : Fin 8) : State :=
  let o := otherBlw c
  match (s.blw o).req with
  | some (peak, resumed) =>
    if !(s.bellows.locked || s.bellows.lowVact) && decide (peak + presentPeak (s.blw c) ≤ switchLimit) then
      s.blwGrant o resumed ((s.unit (uBlw o)).st == 2)
    else s
  | none => s

/-! ### Releases and cuts (R366, R370, R373) -/

/-- A release reaching a channel (R366, ACT 0); after shutdown or power-fail its ramp lasts at most 2 ms (R373). A test pulse that it ends, or
that it keeps from starting, is made again: the unit is isolated and not yet in test (log entry 169). -/
def State.blwRelease (s : State) (c : Fin 8) : State :=
  let b := s.blw c
  let s := if (s.unit (uBlw c)).st = 2 ∧ (b.st = 1 ∨ b.st = 5) then s.modUnit (uBlw c) fun x => { x with st := 1 } else s
  if b.st = 1 then s.modBlw c fun b => { b with st := s.blwRest c, req := none, nextAct := none, wantClosed := false }
  else if b.st = 2 ∨ b.st = 3 ∨ b.st = 5 then
    let ms := if s.bellows.locked then min b.act.trel 2 else b.act.trel
    (s.modBlw c fun b =>
      { b with st := 4, phasePeriods := 0, ramp := 25 * ms, wantClosed := false,
               wantOpen := if b.st = 5 then b.wantOpen else decide (c.val < 4) }).blwReeval c
  else if b.st = 4 then
    s.modBlw c fun b =>
      let b := { b with req := none, nextAct := none }
      if s.bellows.locked then { b with target := blwTarget b, phasePeriods := 0, ramp := min (b.ramp - b.phasePeriods) 50 } else b
  else s

/-- A protective cut (R370): the channel is off at once; it shows state 6 while the fault manager keeps it out of service. A test pulse that
still waits is made again. -/
def State.blwCut (s : State) (c : Fin 8) : State :=
  let s := if (s.unit (uBlw c)).st = 2 ∧ (s.blw c).st = 1 then s.modUnit (uBlw c) fun x => { x with st := 1 } else s
  ((s.modBlw c fun b =>
    { b with st := s.blwRest c, req := none, nextAct := none, target := 0, wantClosed := false,
             wantOpen := if blwActive b && b.st != 5 then decide (c.val < 4) else b.wantOpen }).blwReeval c).parFollow c

/-- Whether the fault manager lets a channel work (R287 states 0 and 3), or both of a pair (R368). -/
def State.blwFree (s : State) (c : Fin 8) : Bool :=
  !s.blwOut c && (!blwPar s.params.force c || !s.blwOut (otherBlw c))

/-- An action (ACT 1, or ACT 2 where `pulse`) reaching a channel, settled by its state (R366). A release in progress keeps its own values until
the new action is granted (R364). -/
def State.blwAction (s : State) (c : Fin 8) (pulse : Bool) : State :=
  let b := s.blw c
  if !blwEn s.params.force c ∨ b.st = 7 then s
  else if !s.blwFree c then s.blwRefuse c
  else if b.st = 2 ∨ b.st = 3 then s.modBlw c fun b => { b with act := { b.act with pulse := pulse } }
  else if b.st = 0 ∨ b.st = 1 ∨ b.st = 4 then
    (s.modBlw c fun b =>
      { b with nextAct := some (blwActOf s.params.force c pulse), req := none, st := if b.st = 1 then 0 else b.st }).blwRequest c
        (b.st == 4) false
  else s.blwRefuse c

/-- Every active channel releases at once and no request is granted until the next boot (R373). -/
def State.blwShutdown (s : State) : State :=
  forEach (allFin 8) (fun c t => t.blwRelease c) { s with bellows := { s.bellows with locked := true } }

/-- The release of every action by low VACT (R370): each ended action and each request withdrawn is counted and raises source 4. -/
def State.blwLowVact (s : State) : State :=
  forEach (allFin 8) (fun c t =>
    let b := t.blw c
    if b.st = 1 ∨ b.st = 2 ∨ b.st = 3 ∨ b.st = 5 ∨ b.req.isSome then (t.blwRelease c).blwRefuse c else t) s

end Sys2Proof.Machine
end

