-- ==== Sys2Proof/Machine/StoreOps.lean ====
section
/-! DEFINITION. The stacked store: location of an address, spare rows, reads with their error handling, writes and poison
(R234–R247, R306). -/
namespace Sys2Proof.Machine

/-! ### Unit identifiers of store units (R284) -/

def rowUid (ch bank row : Nat) : W := wn (3 * 2 ^ 24 + ch * 2 ^ 17 + bank * 2 ^ 13 + row)
def bankUid (ch bank : Nat) : W := wn (4 * 2 ^ 24 + ch * 2 ^ 17 + bank * 2 ^ 13)
def chanUid (ch : Nat) : W := wn (5 * 2 ^ 24 + ch * 2 ^ 17)

/-! ### Location (R235) -/

/-- Whether an address lies in the retirement reserve (R236). -/
def inReserve (a : Nat) : Bool := 0xC0000000 ≤ a && a < 0xD0000000

/-- Whether an address lies in the range withdrawn in 15-channel mode, from the start of the migration (R236, R250). -/
def State.withdrawn (s : State) (a : Nat) : Bool := (s.store.ch15 || s.store.mig) && 0xF1000000 ≤ a

/-- Whether a range of internal addresses meets the reserve or a withdrawn range (R239). -/
def State.unbacked (s : State) (a n : Nat) : Bool :=
  (decide (a < 0xD0000000) && decide (0xC0000000 < a + n)) ||
    ((s.store.ch15 || s.store.mig) && decide (0xF1000000 < a + n))

/-- Whether an address lies in a range of R236, R238 or R280 called reserved, whose reads return 0. -/
def inReservedRange (a : Nat) : Bool :=
  (0x5A000000 ≤ a && a < 0x60000000) ||
  (0x80000000 ≤ a && a < 0x90000000 && 0x01400000 ≤ a % 0x04000000) ||
  (0x90000000 ≤ a && a < 0x98000000 && 0x00F00020 ≤ a % 0x01000000) ||
  (0x98010000 ≤ a && a < 0x98050000 && 0x6000 ≤ a % 0x10000) ||
  (0x98050090 ≤ a && a < 0x98060000) ||
  (0x98070008 ≤ a && a < 0x98100000)

/-- Compacted 2 KiB block number of an address (R235). -/
def blockOf (a : Nat) : Nat := (if a < 0xC0000000 then a else a - 0x10000000) / 2048

/-- Channel, bank and row of a block in one layout: `ret` is the retired channel in 15-channel mode. -/
def placeOf (b : Nat) (ret : Option Nat) : Nat × Nat × Nat :=
  let nch := if ret.isSome then 15 else 16
  let i := b % nch
  let ch := match ret with
    | some r => if i < r then i else i + 1
    | none => i
  let q := b / nch
  let k := q / 8192
  (ch, if 12 ≤ k then k + 1 else k, q % 8192)

/-- Channel, bank and row of an address; during a migration the blocks at or above the pointer are in the new layout (R250). -/
def State.locate (s : State) (a : Nat) : Nat × Nat × Nat :=
  let b := blockOf a
  let new := s.store.ch15 || (s.store.mig && s.store.migNext ≤ b)
  placeOf b (if new then some s.store.retch.val else none)

/-! ### Spare rows (R248, R249, R306) -/

def insertNat (x : Nat) : List Nat → List Nat
  | [] => [x]
  | y :: r => if x ≤ y then x :: y :: r else y :: insertNat x r
def sortNat (l : List Nat) : List Nat := l.foldr insertNat []

/-- The `i`-th number outside a rising list. -/
def nthOutside (i : Nat) (used : List Nat) : Nat := used.foldl (fun x u => if u ≤ x then x + 1 else x) i

/-- Spares of bank 12 taken by row entries, among them spares that failed (R306). -/
def entrySpares (es : List RowEntry) : List Nat :=
  sortNat ((es.map (·.spare)) ++ ((es.filter fun e => e.bank = 12).map (·.row))).eraseDups

/-- Retired banks of a channel, in ascending order. -/
def retiredBanks (w : BitVec 16) : List Nat := (List.range 16).filter fun b => w.getLsbD b

/-- Unretired rows of a retired bank: each took a spare (R306). -/
def bankRows (es : List RowEntry) (b : Nat) : Nat := 8192 - (es.filter fun e => e.bank = b).length

/-- Spares taken by retired banks. -/
def bankSpares (es : List RowEntry) (w : BitVec 16) : Nat := ((retiredBanks w).map (bankRows es)).foldl (· + ·) 0

/-- The row a location is redirected to (R235, R306). -/
def State.physRow (s : State) (ch : Fin 16) (bank row : Nat) : Nat × Nat :=
  let es := s.fm.map.rows.get ch
  match es.find? fun e => e.bank = bank ∧ e.row = row with
  | some e => (12, e.spare)
  | none =>
    let w := s.fm.map.banks.get ch
    if w.getLsbD bank then
      let before := (((retiredBanks w).filter fun b => b < bank).map (bankRows es)).foldl (· + ·) 0
      let i := row - (es.filter fun e => e.bank = bank ∧ e.row < row).length
      (12, nthOutside (before + i) (entrySpares es))
    else (bank, row)

/-- Spares held by rows under test. -/
def State.seqSpares (s : State) (ch : Fin 16) : List Nat := (s.store.seqs.filter fun q => q.ch = ch).map (·.spare)

/-- Free spare rows of a channel. -/
def State.freeSpares (s : State) (ch : Fin 16) : Nat :=
  let es := s.fm.map.rows.get ch
  8192 - (entrySpares es).length - bankSpares es (s.fm.map.banks.get ch) - (s.seqSpares ch).length

/-- The next free spare row of a channel's bank 12, if any (R248). -/
def State.nextSpare (s : State) (ch : Fin 16) : Option Nat :=
  if s.freeSpares ch = 0 then none
  else
    let es := s.fm.map.rows.get ch
    let used := sortNat ((entrySpares es ++ s.seqSpares ch).eraseDups)
    some (nthOutside (bankSpares es (s.fm.map.banks.get ch)) used)

/-- A detected error of a row (R245, R248 step 1): absorbed if the row is in the sequence already (R292); else its copy to the
next free spare begins. With no spare free its channel is retired (R249, R298). -/
def State.rowDetect (s : State) (ch : Fin 16) (bank row : Nat) (cause : Byte) : State :=
  let same (q : RowSeq) : Bool := q.ch == ch && q.bank.val == bank && q.row == row
  if s.thermal.shutdown then s
  else if s.store.seqs.any same then
    s.modStore fun t =>
      { t with seqs := t.seqs.map fun q => if same q && q.cause == 0xFF then { q with cause := cause } else q }
  else match s.nextSpare ch with
    | some sp =>
      s.modStore fun t =>
        { t with seqs := t.seqs ++
            [{ ch := ch, bank := ⟨bank % 16, by omega⟩, row := row, spare := sp, phase := 0, cause := cause }] }
    | none => s.modFm fun m => { m with storePend := m.storePend ++ [(chanUid ch.val, false)] }

/-! ### Words: check, poison (R244–R247) -/

def wordLoc (s : State) (w : Nat) : Fin 16 × Nat × Nat :=
  let l := s.locate (8 * w)
  let c : Fin 16 := ⟨l.1 % 16, by omega⟩
  (c, s.physRow c l.2.1 l.2.2)

/-- Writes the poison pattern into a word (R247). -/
def Store.poisonWord (t : Store) (w : Nat) : Store :=
  { t with poison := if t.poison.contains w then t.poison else w :: t.poison,
           mem := Mem.write t.mem (8 * w) (List.replicate 8 0xFF),
           soft := t.soft.filter (· != w), hard := t.hard.filter (· != w) }

/-- What the check of a 64-bit word does to the word (R245): a single-bit error is corrected, counted and reported, an uncorrectable one
poisons the word. Copies and migrations do the same and carry poison on (R248, R249, R250). -/
def State.copyWord (s : State) (w : Nat) : State :=
  let c := (wordLoc s w).1
  if s.store.poison.contains w then s.modStore fun t => { t with poisonAddr := wn (8 * w) }
  else if s.store.hard.contains w then
    (s.modStore fun t => { (t.poisonWord w) with ue := satAdd t.ue 1, poisonAddr := wn (8 * w) }).occur (srcChan c 1)
  else if s.store.soft.contains w then
    (s.modStore fun t =>
      { t with soft := t.soft.filter (· != w), ce := t.ce + 1, fixed := (t.passes, w) :: t.fixed }).occur (srcChan c 0)
  else s

/-- The check of one 64-bit word on a read (R245): an uncorrectable error is a detected error of the row; a corrected one is when it is the
second in the row within one scrub pass or recurs in its word. -/
def State.checkWord (s : State) (w : Nat) : State :=
  let l := wordLoc s w
  let t := s.copyWord w
  if s.store.poison.contains w then t
  else if s.store.hard.contains w then t.rowDetect l.1 l.2.1 l.2.2 1
  else if s.store.soft.contains w then
    let again := s.store.fixed.any fun f => f.2 == w
    let second := s.store.fixed.any fun f => f.1 == s.store.passes && f.2 != w && wordLoc s f.2 == l
    if again || second then t.rowDetect l.1 l.2.1 l.2.2 0 else t
  else s

/-- The words with errors or poison that `at'` names, by address: what a copy of them finds (R247–R250). -/
def Store.flawed (t : Store) (at' : Nat → Bool) : List Nat := sortNat ((t.soft ++ t.hard ++ t.poison).filter at')

/-- Copies the words that `at'` names (R248, R249, R250); the others hold no error. -/
def State.copyWords (s : State) (at' : Nat → Bool) : State := forEach (s.store.flawed at') (fun w t => t.copyWord w) s

/-- The 64-bit words that meet a byte range. -/
def wordsOf (a n : Nat) : List Nat := if n = 0 then [] else (List.range ((a + n - 1) / 8 - a / 8 + 1)).map (a / 8 + ·)

/-- Counts the 64-byte transactions of a range on their channels (R234, R478 counters 216–231). -/
def State.countLines (s : State) (a n : Nat) : State :=
  if n = 0 then s
  else forEach ((List.range ((a + n - 1) / 64 - a / 64 + 1)).map (a / 64 + ·))
    (fun l t => t.count (216 + (t.locate (64 * l)).1) 1) s

/-- The byte an address reads as, with no check: 0 in the range that R236 calls reserved for every reader, free once the contents are
lost (R240). -/
def State.storeByte (s : State) (a : Nat) : Byte :=
  if 0x5A000000 ≤ a ∧ a < 0x60000000 then 0
  else match s.store.lost with
    | some g => Config.lostByte g a
    | none => Mem.get s.store.mem a

/-- Bytes as they stand, with no check. -/
def State.storeBytes (s : State) (a n : Nat) : List Byte := (List.range n).map fun i => s.storeByte (a + i)

/-- A 32-bit word as it stands, with no check. -/
def State.storeWord (s : State) (a : Nat) : W :=
  word4 (s.storeByte a) (s.storeByte (a + 1)) (s.storeByte (a + 2)) (s.storeByte (a + 3))

/-- A halfword as it stands, with no check. -/
def State.storeHalf (s : State) (a : Nat) : Nat := (s.storeByte a).toNat + 256 * (s.storeByte (a + 1)).toNat

/-- The checks of the words of a range that is read (R245), and the range's transactions. -/
def State.storeCheck (s : State) (a n : Nat) : State := forEach (wordsOf a n) (fun w t => t.checkWord w) (s.countLines a n)

/-- A read of a byte range: the bytes, and the state after the checks of its words. -/
def State.storeRead (s : State) (a n : Nat) : List Byte × State :=
  let s := s.storeCheck a n
  (s.storeBytes a n, s)

/-- Whether a byte range holds a poisoned word, after its check. -/
def State.poisoned (s : State) (a n : Nat) : Bool :=
  !s.store.poison.isEmpty && (wordsOf a n).any fun w => s.store.poison.contains w

/-- Bytes of one 64-bit word: a whole word takes fresh check bits; part of a poisoned word is discarded and recorded (R244,
R247). -/
def State.storePart (s : State) (a : Nat) (bs : List Byte) : State :=
  let w := a / 8
  if bs.length = 8 ∧ a % 8 = 0 then
    s.modStore fun t =>
      { t with mem := Mem.write t.mem a bs, poison := t.poison.filter (· != w), soft := t.soft.filter (· != w),
               hard := t.hard.filter (· != w) }
  else
    let s := s.checkWord w
    if s.store.poison.contains w then s.modStore fun t => { t with poisonAddr := wn (8 * w) }
    else s.modStore fun t => { t with mem := Mem.write t.mem a bs }

/-- Cuts a write into the parts of each 64-bit word; `fuel` bounds their number. -/
def State.storeParts : Nat → Nat → List Byte → State → State
  | 0, _, _, s => s
  | fuel + 1, a, bs, s =>
    if bs.isEmpty then s
    else
      let n := 8 - a % 8
      State.storeParts fuel (a + n) (bs.drop n) (s.storePart a (bs.take n))

/-- A write of a byte string. -/
def State.storeWrite (s : State) (a : Nat) (bs : List Byte) : State :=
  State.storeParts (bs.length / 8 + 2) a bs (s.countLines a bs.length)

/-- Zeroes a range as one write (R240, R136). -/
def Mem.clear (m : Mem) (a n : Nat) : Mem := m.filter fun e => !(a ≤ e.1 && e.1 < a + n)

end Sys2Proof.Machine
end

