-- ==== Sys2Proof/Machine/FaultBase.lean ====
section
/-! DEFINITION. The fault manager's shared rules: identifiers (R284), detection and isolation (R287, R292), decisions (R288,
R308), the transient window (R293), program errors (R285). -/
namespace Sys2Proof.Machine

/-! ### Identifiers -/

/-- The identifier of a UNIT_STATE slot (R284, R308). -/
def slotUid (u : Fin 182) : W :=
  let n := u.val
  if n < 96 then wn (1 * 2 ^ 24 + n)
  else if n < 108 then wn (2 * 2 ^ 24 + (n - 96))
  else if n < 112 then wn (6 * 2 ^ 24 + (n - 108))
  else if n < 120 then wn (8 * 2 ^ 24 + (n - 112))
  else if n < 128 then wn (7 * 2 ^ 24 + (n - 120))
  else if n < 134 then wn (10 * 2 ^ 24 + (n - 128))
  else wn (9 * 2 ^ 24 + (n - 134))

/-- The slot an identifier names, none for store units and for invalid identifiers (R284). -/
def uidSlot (w : W) : Option (Fin 182) :=
  let i := fld w 23 0
  match fld w 31 24 with
  | 1 => if h : i < 96 then some ⟨i, by omega⟩ else none
  | 2 => if h : i < 12 then some ⟨96 + i, by omega⟩ else none
  | 6 => if h : i < 4 then some ⟨108 + i, by omega⟩ else none
  | 7 => if h : i < 8 then some ⟨120 + i, by omega⟩ else none
  | 8 => if h : i < 8 then some ⟨112 + i, by omega⟩ else none
  | 9 => if h : i < 48 then some ⟨134 + i, by omega⟩ else none
  | 10 => if h : i < 6 then some ⟨128 + i, by omega⟩ else none
  | _ => none

def uidCh (w : W) : Fin 16 := ⟨fld w 20 17 % 16, by omega⟩
def uidBank (w : W) : Nat := fld w 16 13
def uidRow (w : W) : Nat := fld w 12 0
def isRowUid (w : W) : Bool := fld w 31 24 == 3 && fld w 23 21 == 0
def isBankUid (w : W) : Bool := fld w 31 24 == 4 && fld w 23 21 == 0 && fld w 12 0 == 0
def isChanUid (w : W) : Bool := fld w 31 24 == 5 && fld w 23 21 == 0 && fld w 16 0 == 0

/-- Whether an identifier names a unit (R284). -/
def uidValid (w : W) : Bool := (uidSlot w).isSome || isRowUid w || isBankUid w || isChanUid w

/-! ### Ownership (R311, R332) -/

/-- OWNER falls (R311): source 9, record 0x500, source 5 of the transmitters (R283), and the bellows channels release over
TREL (R372). -/
def State.dropOwner (s : State) : State :=
  if s.twin.owner then
    let t := (((s.modTwin fun t => { t with owner := false, lowerAtMer := false }).occur (srcLink 9)).occur
      (srcTx 0 5)).occur (srcTx 1 5)
    forEach (allFin 8) (fun c t => t.blwRelease c) (t.noteTwin 9)
  else s

/-- A yield becomes due (R332): in LOCKSTEP the owner's next AGREE carries the swap; before that it waits, is counted and
raises source 29, with its record 0x500 (R424). -/
def State.yieldDue (s : State) : State :=
  if s.twinEn && s.twin.owner then
    if s.twin.st = 4 then s.modTwin fun t => { t with swapAt := true }
    else
      ((s.modTwin fun t => { t with yieldWait := true, yields := satAdd t.yields 1 }).occur (srcLink 29)).noteTwin 29
  else s

/-! ### Decisions -/

/-- Sets FAULT (R287, R308). -/
def State.setFault (s : State) : State := s.modFm fun m => { m with fault := true }

/-- The meridian count that a decision carries (R308). -/
def State.decisionMer (s : State) : W :=
  match s.lowRunning with
  | some p => s.agreedMer p
  | none => 0

/-- The UNIT_STATE slot or source code a record names for a unit (R423). -/
def sourceOf (uid : W) : Nat :=
  match uidSlot uid with
  | some u => u.val
  | none => suStore

/-- One more lifetime count (R442 w17–w22). -/
def State.life (s : State) (i : Fin 6) : State := s.modNv fun n => { n with life := upd n.life i fun c => satAdd c 1 }

/-- A decision (R287, R288, R308): FM_LAST and FM_LASTOUT, its almanac record. -/
def State.fmDecide (s : State) (uid : W) (cause : Byte) (out : Nat) : State :=
  let mer := s.decisionMer
  let sev := if out = 1 ∨ out = 2 ∨ out = 3 ∨ out = 6 then 3 else 2
  let s := s.modFm fun m =>
    { m with last := uid, lastMer := BitVec.ofNat 16 mer.toNat, lastCause := cause, lastOut := BitVec.ofNat 8 out }
  s.note (0x100 + out) sev (sourceOf uid) [uid, cause.zeroExtend 32, mer]

/-- A permanent decision: counted, FAULT set (R287, R308). -/
def State.fmPermanent (s : State) : State :=
  ((s.modFm fun m => { m with permanent := satAdd m.permanent 1 }).life 1).setFault

/-- Two words of an outcome wait for channel 13 of the requesting engine, its W25 after them (R302). -/
def State.fmOutcome (s : State) (r : Option Req) (uid : W) (out : Nat) : State :=
  match r with
  | some q => s.modFm fun m => { m with outcomes := m.outcomes ++ [(q, [uid, wn out])] }
  | none => s

/-- Puts waiting outcomes into channel 13, whole pairs in order, and sets each requester's W25 (R302, R67). -/
def State.fmDeliver (s : State) : State :=
  s.fm.outcomes.foldl (fun t o =>
    let ch := (t.eng o.1.eng).chans.get 13
    let first := t.fm.outcomes.find? fun x => x.1.eng = o.1.eng
    if first = some o ∧ ch.length ≤ 2 then
      let t := t.modFm fun m => { m with outcomes := m.outcomes.erase o }
      let t := t.modEng o.1.eng fun en => { en with chans := upd en.chans 13 (· ++ o.2) }
      let t := forEach (allFin 4) (fun c t => t.latch o.1.eng c 24) t
      t.latch o.1.eng o.1.ctx 25
    else t) s

/-! ### Program errors (R285) -/

/-- A program error: counted and recorded; no test, no FAULT. -/
def State.programError (s : State) (u : Fin 182) (cause : Byte) (addr word : W) : State :=
  ((s.modFm fun m => { m with program := satAdd m.program 1 }).life 2).note 0x110 1 u.val [cause.zeroExtend 32, addr, word]

/-! ### Transients (R288, R293) -/

/-- The transients of a unit that lie within the last 9,600 ticks. -/
def inWindow (now : Nat) (times : List Nat) : List Nat := times.filter fun t => now - t ≤ 9600

/-- Whether a transient found now is the ninth within the window (R293). -/
def ninth (now : Nat) (times : List Nat) : Bool := times.length == 8 && (inWindow now times).length == 8

/-- The last eight. -/
def last8 (l : List Nat) : List Nat := l.drop (l.length - 8)

/-- VAL of a temperature sensor changes: source 2s + 1 (R395). -/
def State.sensorChange (s : State) (u : Fin 182) : State :=
  if h : 134 ≤ u.val then s.occur (srcSensor ⟨u.val - 134, by omega⟩ 1) else s

/-- Back in service after a transient; a bellows channel that showed state 6 is off. -/
def State.inService (s : State) (u : Fin 182) : State :=
  let s := s.sensorChange u
  let s := s.modUnit u fun x => { x with st := 0, byError := false, window := false, saved := none, retryCause := none }
  if h : 112 ≤ u.val ∧ u.val < 120 then
    s.modBlw ⟨u.val - 112, by omega⟩ fun b => if b.st = 6 then { b with st := 0 } else b
  else s

/-- A passed test of a detected error: the transient count advances, and the ninth within the window is noted (R288, R293). -/
def State.countTransient (s : State) (u : Fin 182) : State :=
  let now := s.agreed
  s.modUnit u fun x =>
    { x with total := if x.total = 0xFF then x.total else x.total + 1, times := last8 (x.times ++ [now]),
             window := ninth now x.times, saved := some (x.total, x.times) }

/-- A transient counted is taken back: its retry failed with the same cause (R289). -/
def State.uncountTransient (s : State) (u : Fin 182) : State :=
  s.modUnit u fun x =>
    match x.saved with
    | some q => { x with total := q.1, times := q.2, window := false, saved := none }
    | none => x

/-- A counted transient closes with its retry made, or with no retry to make (R288, R289, R293; log entry 107): its decision is recorded;
the ninth within the window is decided permanent by window and the unit goes to state 4. -/
def State.closeTransient (s : State) (u : Fin 182) : State :=
  let x := s.unit u
  if x.window then
    let s := ((s.sensorChange u).fmPermanent.fmDecide (slotUid u) x.cause 2).fmOutcome x.reqTest (slotUid u) 2
    s.modUnit u fun x => { x with st := 4, reqTest := none, retryCause := none, window := false, saved := none }
  else
    let s := ((s.modFm fun m => { m with transient := satAdd m.transient 1 }).life 0).fmDecide (slotUid u) x.cause 0
    (s.fmOutcome x.reqTest (slotUid u) 0).inService u |>.modUnit u fun x => { x with reqTest := none }

/-! ### Detection and isolation (R287, R292) -/

/-- What isolation does beside state 1: a lane's invocation is abandoned and kept for its retry, a bellows channel ramps down,
an engine is held by the fault manager (R81, R287, R369). -/
def State.isolate (s : State) (u : Fin 182) (cause : Byte) : State :=
  let s := (s.sensorChange u).modUnit u fun x => { x with st := 1, cause := cause, byError := true }
  if h : u.val < 96 then
    s.modLane ⟨u.val, h⟩ fun l => { l with abandoned := l.invoc, invoc := none, ctx := { l.ctx with block := .ready } }
  else if h : 112 ≤ u.val ∧ u.val < 120 then
    let c : Fin 8 := ⟨u.val - 112, by omega⟩
    let t := s.modBlw c fun b =>
      if b.st = 1 then
        { b with act := b.nextAct.getD b.act, nextAct := none, failedSt := if b.req.any fun r => r.2 then 3 else 2 }
      else { b with failedSt := b.st }
    ((t.blwRelease c).blwShut c).parFollow c
  else if h : 128 ≤ u.val ∧ u.val < 134 then
    s.modEng ⟨u.val - 128, by omega⟩ fun e => { e with st := 5 }
  else s

/-- A retry that has failed with the cause it retried counts as a program error (R289): the unit stays in service, its count does not
advance, and a requester hears that the test passed. `exc` is the exception that told of it: its cause, its address, its word. -/
def State.retryRepeats (s : State) (u : Fin 182) (cause : Byte) (exc : Option (Byte × W × W)) : State :=
  let x := s.unit u
  let w := exc.getD (cause, 0, 0)
  ((((s.uncountTransient u).programError u w.1 w.2.1 w.2.2).fmOutcome x.reqTest (slotUid u) 0).inService u).modUnit u fun x =>
    { x with reqTest := none }

/-- A detected error of a unit (R287, R292): isolated from state 0; absorbed in states 1, 2 and 4; in state 3 the same cause is
a program error and another cause closes the transient and starts anew (a cluster, which retries nothing, has closed it before); in state 6
the requested test becomes the targeted test. After the thermal shutdown latch no further decision is made (R292). -/
def State.detect (s : State) (u : Fin 182) (cause : Byte) (exc : Option (Byte × W × W) := none) : State :=
  let x := s.unit u
  if s.thermal.shutdown then s
  else if x.st = 0 then s.isolate u cause
  else if x.st = 1 ∨ x.st = 2 ∨ x.st = 6 then
    s.modUnit u fun x => { x with cause := if x.byError then x.cause else cause, byError := true }
  else if x.st = 3 then
    if 96 ≤ u.val ∧ u.val < 108 then s.isolate u cause
    else if x.retryCause = some cause then s.retryRepeats u cause exc
    else
      let t := s.closeTransient u
      if (t.unit u).st = 0 then t.isolate u cause else t
  else s

/-- Ends a retry that has succeeded, or that a program error of its own has ended (R285, R289): the transient closes. -/
def State.retryDone (s : State) (u : Fin 182) : State :=
  if (s.unit u).st = 3 then s.closeTransient u else s

/-! ### The retirement map (R305, R309) -/

def State.laneRetired (s : State) (l : LaneNo) : Bool :=
  s.fm.map.lanes.getLsbD l.val || s.fm.map.clusters.getLsbD (l.val / 8)
def State.portRetired (s : State) (p : Port) : Bool := s.fm.map.ports.getLsbD p.val
def State.blwRetired (s : State) (c : Fin 8) : Bool := s.fm.map.bellows.getLsbD c.val
def State.modRetired (s : State) (m : Fin 8) : Bool := s.fm.map.mods.getLsbD m.val
def State.engRetired (s : State) (e : Eng) : Bool := s.fm.map.engines.getLsbD e.val

end Sys2Proof.Machine
end

