-- ==== Sys2Proof/Machine/OutputBase.lean ====
section
/-! DEFINITION. Stream frames: header lines, stream records, the end and the cutting of a frame, what a change of the stream's
blocks does (R265–R281). -/
namespace Sys2Proof.Machine

/-- Address of a stream's output buffer (R236, R280). -/
def streamBase (st : Fin 8) : Nat := 0x90000000 + st.val * 0x01000000

/-- A short packet: its 16-bit value in two bytes (R271). -/
def shortPkt (st : Fin 8) (tx : Fin 2) (vc : Nat) (dt : Nat) (v : Nat) : Pkt :=
  { stream := st, tx := tx, vc := BitVec.ofNat 3 vc, dt := BitVec.ofNat 8 dt, bytes := (wordBytes (wn v)).take 2 }

/-- The CSI-2 frame number of a stream frame (R271). -/
def csiNumber (frames : W) : Nat := 1 + frames.toNat % 65535

/-- Whether a packet is an image line (R263, R279): its type is not that of a short packet or of embedded data. -/
def isImagePkt (k : Pkt) : Bool := 0x12 < k.dt.toNat

/-- Image lines of an output frame (R262, R279: for FMT 3 the rows of its tiles). -/
def outLines (pb : PMap) (st : Fin 8) (tile : Nat) : Nat :=
  let c := pb.streamCtl st
  if fld c 7 6 = 3 then
    let p := pb.streamPort st
    let n := pb.tileCount p
    let across := pb.tilesAcross p
    let tiles := fld (pb.fld (0x182 + 4 * st.val) 0) 15 8
    ((List.range tiles).map fun i =>
      let t := (tile + i) % n
      min 64 (pb.rows p - t / across * 64)).foldl (· + ·) 0
  else fld (pb.fld (0x181 + 4 * st.val) 2) 28 16

/-- Tiles whose rows are all among the first `lines` packets of an export frame (R279). -/
def tilesSent (pb : PMap) (st : Fin 8) (tile lines : Nat) : Nat :=
  let p := pb.streamPort st
  let n := pb.tileCount p
  let across := pb.tilesAcross p
  let tiles := fld (pb.fld (0x182 + 4 * st.val) 0) 15 8
  ((List.range tiles).foldl (fun (a : Nat × Nat) i =>
    let t := (tile + i) % n
    let rows := min 64 (pb.rows p - t / across * 64)
    if a.2 + rows ≤ lines ∧ a.1 = i then (a.1 + 1, a.2 + rows) else a) (0, 0)).1

/-- Raises a count word of the stream record, saturating (R280). -/
def recAdd (v : Vector W 8) (i : Fin 8) (n : Nat) : Vector W 8 := upd v i fun c => satAdd c n

/-- Writes the stream record whole (R280). -/
def State.streamRecord (s : State) (st : Fin 8) : State :=
  s.storeWrite (streamBase st + 0x00F00000) (wordsBytes (s.stream st).srec.toList)

/-- The final flags of a frame: its own but for provisional (R270). -/
def OutFrame.finalFlags (f : OutFrame) : W := f.flags &&& (0xFDFF0000 : W)

/-- A frame's flags and generation are final (R269, R279): they go into line 1 of the next header, and the export cursor advances past the
tiles sent, unless START has placed it anew meanwhile. -/
def State.streamFinal (s : State) (st : Fin 8) (f : OutFrame) : State :=
  let exp := fld (f.pb.streamCtl st) 7 6 = 3
  s.modStream st fun x =>
    { x with
      cursor := if exp ∧ !f.placed then (f.tile + tilesSent f.pb st f.tile f.sentLines) % (f.pb.tileCount (f.pb.streamPort st)) else x.cursor
      prevHead := if f.stale then x.prevHead
        else some ((f.head.set 3 (wn (fld (f.head.getD 3 0) 15 0) ||| f.finalFlags)).set 4 f.egen)
      cur := none }

/-- A stream frame's Frame End has been sent (R280, R283): the stream record is written whole; source 1. -/
def State.streamEnded (s : State) (st : Fin 8) (f : OutFrame) : State :=
  let s := s.modStream st fun x =>
    { x with srec := recAdd (upd (upd (upd x.srec 0 fun _ => f.head.getD 1 0) 1 fun _ => f.head.getD 2 0) 2 fun _ => f.finalFlags >>> 16) 3 1 }
  (s.streamRecord st).occur (srcStream st 1)

/-- A frame sent in full ends with its Frame End. -/
def State.streamFrameOver (s : State) (st : Fin 8) (f : OutFrame) : State := (s.streamFinal st f).streamEnded st f

/-- Cuts the frame in progress (R275): the packets of its lines that still wait are dropped, what was not sent is counted as discarded, its
final flags carry truncated, and its Frame End follows what of it and of earlier frames still waits. So does a frame of which only the last
Line End or the Frame End has still to be sent, with no line discarded. -/
def State.streamCut (s : State) (st : Fin 8) : State :=
  let x := s.stream st
  match x.cur with
  | none => s
  | some f =>
    let lost := outLines f.pb st f.tile - f.sentLines
    let f := { f with flags := f.flags ||| (0x00100000 : W) }
    let fe := shortPkt st (f.pb.streamTx st) (fld (f.pb.streamCtl st) 20 18) 0x01 (csiNumber (f.head.getD 1 0))
    let keep := x.pkts.filter fun k => k.dt == 0x00 || k.dt == 0x01 || k.dt == 0x12
    let pkts := if outLines f.pb st f.tile ≤ f.nextLine then keep else keep ++ [fe]
    let s := (s.streamFinal st f).modStream st fun x =>
      { x with pkts := pkts, ending := x.ending ++ [f], srec := recAdd (recAdd x.srec 4 1) 5 lost }
    (s.occur (srcStream st 2)).occur (srcTx (f.pb.streamTx st) 3)

/-- What it does that a stream's block S+0 or S+2 in force changes from `o` to `n` (R276, R279). -/
def State.streamChange (s : State) (st : Fin 8) (o n : PMap) : State :=
  let was := o.streamOn st
  let is := n.streamOn st
  let start := fld (n.fld (0x182 + 4 * st.val) 1) 15 0
  let moved := fld (o.fld (0x182 + 4 * st.val) 1) 15 0 != start
  let s := s.modStream st fun x =>
    { x with cursor := if moved || (!was && is) then start else x.cursor, srcPort := n.streamPort st,
             cur := if moved || (!was && is) then x.cur.map fun f => { f with placed := true, stale := f.stale || (!was && is) } else x.cur }
  if !was && is then s.modStream st fun x => { x with on := true, eligible := 0, firstPend := true, due := [], prevHead := none }
  else if was && !is then
    let s := s.modStream st fun x => { x with on := false, due := [] }
    if bitOf (n.streamCtl st) 23 then s.streamCut st else s
  else if is && o.streamPort st != n.streamPort st then s.modStream st fun x => { x with due := [] }
  else s

/-- Packets of a transmitter that wait when its island is reset are discarded and counted (R466). -/
def State.txDiscard (s : State) (x : Fin 2) : State :=
  let mine (k : Pkt) : Bool := k.tx == x
  let n := ((allFin 8).map fun st => ((s.stream st).pkts.filter mine).length).foldl (· + ·) 0
  forEach (allFin 8) (fun st t => t.modStream st fun q => { q with pkts := q.pkts.filter (!mine ·) }) (s.count (384 + 17 + x.val) n)

/-- What it does that a transmitter's block in force changes (R273, R283 source 0). -/
def State.txChange (s : State) (x : Fin 2) (o n : PMap) : State :=
  let was := bitOf (o.txCtl x) 0
  let is := bitOf (n.txCtl x) 0
  let s := s.modTx x fun t => { t with on := is }
  let s := if was && !is then
      let s := if (s.txs.get x).line = 1 then (s.modTx x fun t => { t with line := 0 }).occur (srcTx x 1) else s
      ((s.txDiscard x).islandReset (17 + x.val)).modClocks fun c => c.drop ⟨1 + x.val, by omega⟩
    else if !was && is then s.islandOut (17 + x.val) else s
  if !was && is then
    let s := (s.modTx x fun t => { t with line := 0 }).occur (srcTx x 0)
    if 150 < fld (n.txCtl x) 17 8 then s.occur (srcTx x 2) else s
  else s

/-- The most recently written slot whose valid bit is set, the frame's own apart: its previous corrected frame (R173). -/
def PortS.prevFor (x : PortS) (fr : Frame) : Option (Fin 4) :=
  x.slotOrder.find? fun j => (x.slots.get j).valid && fr.slot != some j

/-- A source frame of port `p`, ending at count `m`, is found patched or held: the stream frames that show it take the flag,
a held frame's further lines come from the previous corrected frame, and line 1 of the next header and the stream record show the final
flags (R265, R267, R269, R280). -/
def State.markStreams (s : State) (p : Port) (m : W) (patched held : Bool) (prev : Option (Fin 4)) : State :=
  let fl : W := (if patched then 0x00010000 else 0 : W) ||| (if held then 0x00020000 else 0 : W)
  let am := m + s.twin.offsets.get p
  let f (x : OutFrame) : OutFrame :=
    if x.port = p ∧ x.src = m then { x with flags := x.flags ||| fl, slot := if held then prev else x.slot } else x
  let mine (ws : List W) : Bool := fld (nthW ws 0) 13 12 == p.val && nthW ws 2 == am
  let h (ws : List W) : List W := if mine ws then ws.set 3 (nthW ws 3 ||| fl) else ws
  let late (x : Stream) : Bool := fl != 0 && x.prevHead.any mine && x.srec.get 1 == am && x.srec.get 0 == nthW (x.prevHead.getD []) 1
  let ls := (allFin 8).filter fun st => late (s.stream st)
  let s := { s with streams := updAll s.streams fun _ x =>
    { x with due := x.due.map f, cur := x.cur.map f, ending := x.ending.map f, prevHead := x.prevHead.map h,
             srec := if late x then upd x.srec 2 fun w => w ||| (fl >>> 16) else x.srec } }
  forEach ls (fun st t => t.streamRecord st) s

/-- OWNER moves to this device: each enabled stream flags one frame as failover, the one in progress or else the next, and the
transmitters raise source 4 (R281, R283). -/
def State.outputsGain (s : State) : State :=
  let s := { s with streams := updAll s.streams fun _ x =>
    if x.on then
      match x.cur with
      | some f => { x with cur := some { f with flags := f.flags ||| (0x00080000 : W) } }
      | none => { x with failover := true }
    else x }
  (s.occur (srcTx 0 4)).occur (srcTx 1 4)

end Sys2Proof.Machine
end

