-- ==== Sys2Proof/Machine/Apply.lean ====
section
/-! DEFINITION. Pending copies taking effect (R100–R103, R519), the states of a port (R122, R125, R133), the abandonment of a
transit (R220, R221). -/
namespace Sys2Proof.Machine

/-! ### Abandoning a transit (R220, R221) -/

/-- Whether an abandonment code has a dome cause (R220); code 0x09 takes the partner's. -/
def domeCode (code : Nat) (asPartner : Bool) : Bool :=
  if code = 9 then asPartner else code == 1 || code == 2 || code == 3 || code == 6

/-- Sets W25 of every context that joined the port's transit (R204). -/
def State.transitWake (s : State) (p : Port) : State :=
  let ws := s.transit.waiters
  let s := s.modTransit fun t => { t with waiters := t.waiters.filter fun w => w.2 ≠ p }
  forEach (ws.filter fun w => w.2 = p) (fun w t => t.latch 0 w.1 25) s

/-- The dome channel of a port (R362). -/
def domeOf (p : Port) : Fin 8 := ⟨p.val, by omega⟩

/-- Whether a cluster carries transit work (R140, R142): clocked, and in no port's bands. -/
def State.transitCluster (s : State) (k : Fin 12) : Bool :=
  (s.cluster k).mhz != 0 && !((allFin 4).any fun q => (s.port q).st == .running && (s.port q).bands.any fun b => clusterOf b.lane == k)

/-- The transit in progress is abandoned with `code`, now (R220, R221): the port stays due, at its place in the queue. A dome that is closed or
closing, in steps 2 to 5, releases, and the hold ends after its open report or OPEN_WAIT; otherwise the hold ends at the next meridian. A
commit already made is not undone. A report that did not come is a detected error of the dome: what its retry repeats is the closing or the
opening (R221, R289). -/
def State.transitAbandonNow (s : State) (code : Nat) (asPartner : Bool) : State :=
  match s.transit.cur with
  | none => s
  | some c =>
    if c.merging then s
    else
      let p := c.port
      let b := s.blw (domeOf p)
      let moving := 2 ≤ c.step.val && c.step.val ≤ 5 && (b.st == 2 || b.st == 3)
      let dome := domeCode code asPartner
      let s := s.modTransit fun t => { t with cur := none, queue := t.queue.insertIdx (min c.place t.queue.length) (p, c.asked) }
      let s := s.modTPort p fun x =>
        let n := if dome then (if x.domeab = 0xFF then x.domeab else x.domeab + 1) else 0
        { x with abcode := BitVec.ofNat 8 code, abcount := satAdd x.abcount 1, domeab := n, abTicks := some s.agreed,
                 domeout := x.domeout || decide (3 ≤ n.toNat) }
      let fresh := !s.blwOut (domeOf p)
      let s := if c.step.val ≤ 5 then s.blwRelease (domeOf p) else s
      let s := s.modPort p fun x => { x with holdEnds := !moving }
      let s := (s.note 0x300 1 suTransit [wn p.val, wn code]).transitWake p
      if code = 3 ∨ (code = 1 ∧ blwProvisioned s.params.force (domeOf p)) then
        let s := s.detect (uBlw (domeOf p)) 0xFD
        if fresh && s.blwOut (domeOf p) then
          s.modBlw (domeOf p) fun x => { x with failedSt := if code = 3 then 4 else if b.st = 3 then 3 else 2 }
        else s
      else s

/-- A cause of abandonment (R220). In LOCKSTEP the prime's causes wait for its next AGREE and the shadow's have no effect of their own;
a port that leaves the running state ends its transit at once (R211, R222, R322). -/
def State.transitAbandon (s : State) (code : Nat) (asPartner : Bool) : State :=
  if s.twinning && code != 5 && code != 9 then
    if s.twin.prime then
      s.modTransit fun t => { t with cur := t.cur.map fun c => if c.abPend = 0 then { c with abPend := code } else c }
    else s
  else s.transitAbandonNow code asPartner

/-- Abandons the transit if it is the port's (R211). -/
def State.transitAbandonPort (s : State) (p : Port) (code : Nat) : State :=
  match s.transit.cur with
  | some c => if c.port = p then s.transitAbandon code false else s
  | none => s

/-! ### Refusals and generations (R102, R103) -/

/-- A pending copy refused (R103): block 0x003FE takes the block, the count and the failing index; record 0x400. -/
def State.refuseBlock (s : State) (blk idx : Nat) : State :=
  (s.modParams fun q =>
    { q with lastRefused := wn blk, refusals := satAdd q.refusals 1, lastIndex := wn idx }).noteRefused blk idx

/-- One more commit generation of a block (R102). -/
def State.genInc (s : State) (blk : Nat) : State :=
  s.modParams fun q => { q with gens := insertN q.gens blk (getN q.gens blk 0 + 1) }

/-- What a check needs of the machine (R117, R364). -/
def State.chkEnv (s : State) : ChkEnv :=
  { off := fun p => (s.port p).st == .off
    pairBusy := fun c => (s.blw c).st != 0 && (s.blw c).st != 7 || (s.blw (otherBlw c)).st != 0 && (s.blw (otherBlw c)).st != 7 }

/-- The copies in force, with a class D copy that has passed its check in the place of block 0x000 (R519). -/
def State.committed (s : State) : PMap :=
  if s.params.devChecked then
    (match lookupN s.params.pending 0 with
     | some c => s.params.force.setBlock 0 c
     | none => s.params.force)
  else s.params.force

/-- Removes a pending copy. -/
def State.dropPending (s : State) (blk : Nat) : State :=
  s.modParams fun q => { q with pending := eraseN q.pending blk, streamTie := eraseN q.streamTie blk }

/-! ### What follows a block's taking effect -/

/-- ACTIVE or BLIND in force changes (R122, R164, R165, R173): F and the ring restart, the destripe offsets are zero, the slots lose their
valid bits. -/
def PortS.newGeometry (x : PortS) : PortS :=
  { x with fCount := 0, col := [], rowOff := [], slots := updAll x.slots fun _ d => { d with valid := false } }

/-- A watch zone whose EN or rectangle changes returns to CLEAR with its counter and history cleared; the frame that ended there moves it
no more (R194). The return enters the zone's entry meridian, and no w14 and no notification (log entry 152). -/
def State.zonesChange (s : State) (p : Port) (o n : PMap) : State :=
  let b := pB p + 11
  let same (z : Nat) : Bool := o.fld b (8 * z) == n.fld b (8 * z) && o.fld b (8 * z + 1) == n.fld b (8 * z + 1) &&
    bitOf (o.fld b (8 * z + 4)) 0 == bitOf (n.fld b (8 * z + 4)) 0
  let m := (s.agreedMer p).extractLsb' 0 16
  s.modPort p fun x =>
    { x with zones := updAll x.zones fun z y =>
        if same z.val then y
        else { y with st := 0, ctr := 0, maxima := [], entry := if y.st = 0 then y.entry else m },
             tail := x.tail.map fun fr => { fr with stat := { fr.stat with
        zones := updAll fr.stat.zones fun z y => if same z.val then y else { y with old := true } } } }

/-- What a class P block's taking effect does beside its values (R122, R197, R273, R276). -/
def State.afterP (s : State) (blk : Nat) (o : PMap) : State :=
  let n := s.params.force
  match blkPort blk, blkStream blk with
  | some p, _ =>
    if blk = pB p then
      if n.fld blk 0 ≠ o.fld blk 0 ∨ n.fld blk 1 ≠ o.fld blk 1 then s.modPort p PortS.newGeometry else s
    else if blk = pB p + 10 then s.modPort p fun x => { x with curveChanged := true }
    else if blk = pB p + 11 then s.zonesChange p o n
    else s
  | none, some st =>
    if 0x180 ≤ blk ∧ blk < 0x1A0 then
      (if (blk - 0x180) % 4 = 0 ∨ (blk - 0x180) % 4 = 2 then s.streamChange st o n
       else if h : (blk - 0x180) % 4 = 3 ∧ st.val < 2 then s.txChange ⟨st.val, h.2⟩ o n
       else s)
    else s
  | none, none => s

/-- One pending class P copy taking effect, or refused, against the view `v` of the moment (R101, R103). -/
def State.applyOneP (v o : PMap) (blk : Nat) (copy : PMap) (s : State) : State :=
  let s := s.dropPending blk
  match checkBlock s.chkEnv v o blk with
  | some i => s.refuseBlock blk i
  | none =>
    let before := s.params.force
    ((s.modParams fun q => { q with force := q.force.setBlock blk copy }).genInc blk).afterP blk before

/-- Pending copies that take effect together, in ascending block number (R101). -/
def State.applyBatch (s : State) (l : List (Nat × PMap)) : State :=
  let o := s.committed
  let v := l.foldl (fun m e => m.setBlock e.1 e.2) o
  forEach l (fun e t => t.applyOneP v o e.1 e.2) s

/-- The pending class P copies tied to a port (R100). -/
def State.pendingOf (s : State) (p : Port) : List (Nat × PMap) :=
  s.params.pending.filter fun e =>
    blkClass e.1 == .p && (match blkPort e.1 with
      | some q => q == p
      | none => lookupN s.params.streamTie e.1 == some p)

/-! ### Class D (R519) -/

/-- Counts the class D copy as in force once every running port has adopted it (R100, R519). -/
def State.devSettle (s : State) : State :=
  match lookupN s.params.pending 0 with
  | some c =>
    if s.params.devChecked && (allFin 4).all fun p => (s.port p).st != .running || s.params.devAdopters.contains p then
      ((s.modParams fun q => { q with force := q.force.setBlock 0 c, devChecked := false, devAdopters := [] }).dropPending
        0).genInc 0
    else s
  | none => s

/-- The check of the pending class D copy, once (R519), with `also` the copies that take effect at the same moment. -/
def State.devCheck (s : State) (also : List (Nat × PMap)) : State :=
  match lookupN s.params.pending 0 with
  | some c =>
    if s.params.devChecked then s
    else
      let v := also.foldl (fun m e => m.setBlock e.1 e.2) (s.params.force.setBlock 0 c)
      match checkBlock s.chkEnv v s.params.force 0 with
      | some i => (s.dropPending 0).refuseBlock 0 i
      | none => s.modParams fun q => { q with devChecked := true }
  | none => s

/-- A running port adopts the pending class D copy at its meridian, or takes the copy in force (R519). -/
def State.devAdopt (s : State) (p : Port) (also : List (Nat × PMap)) : State :=
  let s := s.devCheck also
  match lookupN s.params.pending 0 with
  | some c =>
    if s.params.devChecked then
      ((s.modPort p fun x => { x with devAdopted := c }).modParams fun q =>
        { q with devAdopters := if q.devAdopters.contains p then q.devAdopters else q.devAdopters ++ [p] }).devSettle
    else s
  | none => s

/-- The class D copy a port takes up as it enters running (R519): the one under adoption if it has passed its check. -/
def State.devEnter (s : State) (p : Port) : State :=
  let c := match lookupN s.params.pending 0 with
    | some c => if s.params.devChecked then c else s.params.force.block 0
    | none => s.params.force.block 0
  (s.modPort p fun x => { x with devAdopted := c }).modParams fun q =>
    if q.devChecked then { q with devAdopters := if q.devAdopters.contains p then q.devAdopters else q.devAdopters ++ [p] }
    else q

/-! ### Port states (R125) -/

/-- Entry to sync (R122, R133, R173). -/
def State.portSync (s : State) (p : Port) : State :=
  (s.islandOut (13 + p.val)).modPort p fun x =>
    { x.newGeometry with st := .sync, skewSeen := false, frame := none, sgenCount := 0, sgenNow := 0, sgenNext := 0, altSgen := 0, halfRate := false,
                         batch := 0, batchPend := false, windowOpen := false }

/-- Whether the frame that ended last on port `p` has invocations left in the lanes that `at'` names (R24, R97, R140): one runs, or elements of
a band there have not passed phase C. -/
def State.tailOn (s : State) (p : Port) (at' : LaneNo → Bool) : Bool :=
  ((allFin 96).any fun l => at' l && ((s.lane l).invoc.any fun v => v.port == p && v.tail)) ||
  match (s.port p).tail with
  | none => false
  | some fr =>
    !(fr.skipped || fr.startDisc || fr.stopped || fr.heldStart || fr.held || fr.deadlinePassed || fr.statDone) &&
    fr.bands.any fun b => at' b.lane &&
      (List.range (fr.pb.rows p)).any fun r => (List.range b.width).any fun i =>
        match lookupN fr.pix (r * fr.pb.cols p + b.first + i) with
        | some x => !x.doneC
        | none => true

/-- Whether earlier frames still have invocations in a cluster (R97). -/
def State.tailsIn (s : State) (k : Fin 12) : Bool := (allFin 4).any fun p => s.tailOn p fun l => clusterOf l == k

/-- A cluster's clock target (R140): a change takes effect after the cluster's last invocation for the earlier frame (R455 step 1); the clock
then stands until DCO_RESTART, or stays parked. -/
def State.clusterClock (s : State) (k : Fin 12) (mhz : Nat) : State :=
  s.modCluster k fun c =>
    if c.mhz = mhz then { c with clkNext := none }
    else if s.tailsIn k then { c with clkNext := some mhz }
    else { c with mhz := mhz, stopped := decide (mhz ≠ 0), clkNext := none }

/-- The clock targets that waited for the last invocation of an earlier frame (R455). -/
def State.clocksTake (s : State) : State :=
  forEach (allFin 12) (fun k t =>
    match (t.cluster k).clkNext with
    | some f => t.clusterClock k f
    | none => t) s

/-- The serving lanes of a port that has stopped running are parked once its last frame needs them no more (R140): the clusters that no other
running port's band uses. -/
def State.parkLanes (s : State) (p : Port) : State :=
  if (s.port p).st = .running then s
  else
    forEach (allFin 12) (fun k t =>
      let mine := (t.port p).bands.any fun b => clusterOf b.lane == k
      let others := (allFin 4).any fun q => (t.port q).st == .running && (t.port q).bands.any fun b => clusterOf b.lane == k
      if mine && !others then t.clusterClock k 0 else t) s

/-! ### The commit agreement where no port runs (R320, R322, R324) -/

/-- A block as AGREE carries it: fields 0 to w − 1. -/
def blockEntry (e : Nat × PMap) : List W :=
  let w := (e.2.map fun x => x.1 % 256 + 1).foldl max 0
  wn (2 ^ 28 + w * 2 ^ 16 + e.1) :: (List.range w).map fun f => e.2.fld e.1 f

/-- AGREE's words (R324). The generations of R333, for which R324 has no entry, follow as a kind of their own (log entry 164). -/
def agreeWords (a : Agreement) : List W :=
  let n := a.blocks.length + a.retires.length + a.rotOut.length + a.rotBack.length + a.withdrawn.length + a.gens.length
  let ids (k : Nat) (l : List W) : List W := l.flatMap fun u => [wn (k * 2 ^ 28), u]
  [wn (a.port.val + 2 ^ 4 * a.stage + 2 ^ 8 * b2n a.swap + 2 ^ 16 * n), a.m, wn a.ticks,
    wn (a.ticks / 2 ^ 32 % 256 + 2 ^ 8 * a.pcc.toNat), a.sgen.zeroExtend 32, wn (a.decision.toNat + 2 ^ 8 * a.abcode.toNat),
    a.rho, 0] ++ a.blocks.flatMap blockEntry ++ ids 2 a.retires ++ ids 3 a.rotOut ++ ids 4 a.rotBack ++ ids 5 a.withdrawn ++
    a.gens.flatMap fun e => [wn (6 * 2 ^ 28 + e.1), e.2]

/-- The prime's copies that take effect at once where no port runs go to the shadow in an AGREE of their own (R322, log entry 165). -/
def State.agreeNow (s : State) (l : List (Nat × PMap)) : State :=
  if l.isEmpty || !s.twinning || !s.twin.prime then s
  else
    s.linkSend 0x04 1 0 (agreeWords
      { port := 0, m := 0, stage := 0, swap := false, ticks := s.nv.optime, pcc := s.nv.pcc, sgen := 0, decision := 0, abcode := 0, rho := 0,
        blocks := l, gens := [], retires := [], rotOut := [], rotBack := [], withdrawn := [] })

/-- The pending copies of a port that has left running (R100): at once; in twin operation with the AGREE of another port, or where none runs
at once on both devices what the prime has committed (R320, R322). -/
def State.pendingIdle (s : State) (p : Port) : State :=
  if !s.twinning then s.applyBatch (s.pendingOf p)
  else if s.anyRunning || !s.twin.prime then s
  else
    let l := s.params.pending
    (s.agreeNow l).applyBatch (l.filter fun e => blkClass e.1 == .p)

/-- The class D copy where no port runs (R519); a shadow's own copy waits for the prime's (R320). -/
def State.devIdle (s : State) : State :=
  if s.twinning && !s.twin.prime then s else (s.devCheck []).devSettle

/-- Leaves the running state (R100, R125, R211, R519): the pending copies tied to the port take effect at that moment (in twin operation
with the AGREE of another port, R322), the class D adoption no longer waits for it, its transit is abandoned. A frame in progress
never ends: a stream that has begun it completes it from the previous corrected frame (R277). -/
def State.portLeave (s : State) (p : Port) (dst : PortSt) : State :=
  let s := match (s.port p).frame with
    | some fr =>
      let t := s.markStreams p fr.m false true ((s.port p).prevFor fr)
      { t with streams := updAll t.streams fun _ x => { x with due := x.due.filter fun f => !(f.port == p && f.src == fr.m) } }
    | none => s
  let s := (s.modPort p fun x => { x with st := dst, frame := none }).parkLanes p
  let s := s.transitAbandonPort p 5
  (s.pendingIdle p).devSettle

/-- Whether a port is enabled in force: the upper port of a ganged pair is no port of its own (R118, R298). -/
def State.portEnabled (s : State) (p : Port) : Bool :=
  s.params.force.enable p && !s.portRetired p && !s.params.force.upperOfGang p

/-- A stopped port whose ENABLE is 1 in force is syncing; one whose ENABLE is 0 is off (R125). -/
def State.portFollow (s : State) (p : Port) : State :=
  let en := s.portEnabled p
  match (s.port p).st with
  | .off => if en then s.portSync p else s
  | .sync | .stalled => if en then s else (s.modPort p fun x => { x with st := .off, frame := none }).islandReset (13 + p.val)
  | .running => s

/-- A class P copy committed while its port is not running takes effect at once (R100). -/
def State.applyIdleP (s : State) (p : Port) (blk : Nat) : State :=
  match lookupN s.params.pending blk with
  | some c => (s.applyBatch [(blk, c)]).portFollow p
  | none => s

end Sys2Proof.Machine
end

