-- ==== Sys2Proof/Machine/NvBase.lean ====
section
/-! DEFINITION. The NV store's pages, protected items and page writes (R434, R435, R439–R441) and the retirement map's layout
(R309). -/
namespace Sys2Proof.Machine

/-- First byte address of a page write. -/
def NvWrite.base (w : NvWrite) : Nat := 256 * w.page + w.off

/-- The bytes that a page write leaves within its span, as byte addresses. -/
def NvWrite.leaves (w : NvWrite) (a : Nat) : Bool :=
  decide (256 * w.page + w.skip.1 ≤ a) && decide (a < 256 * w.page + w.skip.2)

/-- Whether a page write writes a byte address. -/
def NvWrite.covers (w : NvWrite) (a : Nat) : Bool :=
  decide (w.base ≤ a) && decide (a < w.base + w.bytes.length) && !w.leaves a

/-- Whether a page write changes an 8-byte group, and whether it writes the whole of it (R435). -/
def NvWrite.touches (w : NvWrite) (g : Nat) : Bool := (List.range 8).any fun i => w.covers (8 * g + i)
def NvWrite.whole (w : NvWrite) (g : Nat) : Bool := (List.range 8).all fun i => w.covers (8 * g + i)

/-- The groups that a page write changes, ascending (R435). -/
def NvWrite.groups (w : NvWrite) : List Nat := ((List.range 32).map fun k => 32 * w.page + k).filter w.touches

/-- One group of a page write placed into a memory. -/
def NvWrite.putGroup (w : NvWrite) (m : Mem) (g : Nat) : Mem :=
  ((List.range 8).filter fun i => w.covers (8 * g + i)).foldl
    (fun m i => Mem.write m (8 * g + i) [w.bytes.getD (8 * g + i - w.base) 0]) m

/-- A page write's bytes placed into a memory. -/
def applyNvWrite (m : Mem) (w : NvWrite) : Mem :=
  if w.skip.1 < w.skip.2 then w.groups.foldl w.putGroup m else Mem.write m w.base w.bytes

/-- The NV contents as a read finds them: a read of a busy page waits for its write and returns the new contents (R435). -/
def Nv.view (n : Nv) : Mem := n.writes.foldl applyNvWrite n.mem

/-- The groups that such a read finds uncorrectable, and those it finds correctable. -/
def Nv.badView (n : Nv) : List Nat := n.bad.filter fun g => !n.writes.any (·.whole g)
def Nv.softView (n : Nv) : List Nat := n.soft.filter fun g => !n.writes.any (·.touches g)

/-- Whether a page write is the host's. -/
def NvWrite.isHost (w : NvWrite) : Bool := w.src == .host || w.src == .hostMirrored || w.src == .prot

/-- Whether a page write belongs to a flush (R430). -/
def NvWrite.isFlush (w : NvWrite) : Bool :=
  match w.src with
  | .flushCounter | .flushLog _ | .flushState _ _ => true
  | _ => false

/-- A host page write joins the queue so that host and flush writes alternate (R430): after the last host write and one flush write,
or after the write in progress. -/
def hostInsert (l : List NvWrite) (w : NvWrite) : List NvWrite :=
  let i := l.length - (l.reverse.takeWhile fun x => !x.isHost).length
  l.take (i + 1) ++ [w] ++ l.drop (i + 1)

/-- Queues a host page write (R112, R435). -/
def State.nvQueue (s : State) (w : NvWrite) : State := s.modNv fun n => { n with writes := hostInsert n.writes w }

/-- A protected item: number, first byte of copies A and B, data bytes (R440, R441). -/
structure NvItem where
  no : BitVec 16
  a : Nat
  b : Nat
  len : Nat
deriving DecidableEq, Repr

def devPage (d : Nat) : Nat := (1792 + d) * 256
def itemIdentity : NvItem := ⟨1, devPage 0, devPage 1, 240⟩
def itemCounters : NvItem := ⟨2, devPage 2, devPage 3, 96⟩
def itemState : NvItem := ⟨3, devPage 4, devPage 5, 20⟩
def itemSecurity : NvItem := ⟨4, devPage 6, devPage 7, 36⟩
def itemPasswords : NvItem := ⟨5, devPage 8, devPage 9, 64⟩
def itemMap : NvItem := ⟨6, devPage 16, devPage 49, 8256⟩
def itemPage (q : Nat) : NvItem := ⟨Config.pageItem q, (1664 + 2 * q) * 256, (1665 + 2 * q) * 256, 240⟩

/-- Offset of the trailer: the next 16-byte boundary after the data (R439). -/
def NvItem.trailer (t : NvItem) : Nat := (t.len + 15) / 16 * 16

/-- Trailer words 0–2 (R439). -/
def NvItem.head (t : NvItem) (gen : W) : List W := [gen, wn (t.no.toNat + 2 ^ 16 * 0x5A7E), wn t.len]

/-- The generation of the copy at `base` if it is valid (R439). -/
def Nv.copyGen (n : Nv) (t : NvItem) (base : Nat) : Option W :=
  let m := n.view
  let at' := base + t.trailer
  let gen := Mem.word m at'
  let hd := t.head gen
  let crc := crc32c (Mem.read m base t.len ++ wordsBytes hd)
  let bad := n.badView.any fun g => base / 8 ≤ g && g < (base + t.trailer + 16) / 8
  if Mem.word m (at' + 4) = nthW hd 1 ∧ Mem.word m (at' + 8) = nthW hd 2 ∧ Mem.word m (at' + 12) = crc ∧ !bad then
    some gen
  else none

/-- Whether generation `x` exceeds `y` by 1 to 0x7FFF_FFFF modulo 2^32 (R439). -/
def newer (x y : W) : Bool := 1 ≤ (x - y).toNat && (x - y).toNat ≤ 0x7FFFFFFF

/-- The newer valid copy: whether it is B, and its generation (R439). -/
def Nv.newest (n : Nv) (t : NvItem) : Option (Bool × W) :=
  match n.copyGen t t.a, n.copyGen t t.b with
  | some x, some y => if newer y x then some (true, y) else some (false, x)
  | some x, none => some (false, x)
  | none, some y => some (true, y)
  | none, none => none

/-- The data of an item, zeros when both copies are invalid (R439). -/
def Nv.itemRead (n : Nv) (t : NvItem) : List Byte :=
  match n.newest t with
  | some (false, _) => Mem.read n.view t.a t.len
  | some (true, _) => Mem.read n.view t.b t.len
  | none => List.replicate t.len 0

/-- Bytes placed over a byte string from an offset. -/
def overlay (d : List Byte) (off : Nat) (bs : List Byte) : List Byte := d.take off ++ bs ++ d.drop (off + bs.length)

/-- Cuts a byte string at page boundaries into page writes in ascending order. -/
def pageWrites (src : NvSrc) : Nat → Nat → List Byte → List NvWrite
  | 0, _, _ => []
  | fuel + 1, a, bs =>
    if bs.isEmpty then []
    else
      let n := 256 - a % 256
      { page := a / 256, off := a % 256, bytes := bs.take n, src := src } :: pageWrites src fuel (a + n) (bs.drop n)

/-- A write of an item (R439): the other copy, with the data merged and the next generation, its pages in ascending order. With
both copies invalid it goes to copy A (log entry 20). -/
def Nv.itemWrite (n : Nv) (t : NvItem) (off : Nat) (bs : List Byte) (src : NvSrc) : Nv :=
  let cur := n.newest t
  let base := match cur with
    | some (false, _) => t.b
    | _ => t.a
  let gen := match cur with
    | some (_, g) => g + 1
    | none => 1
  let d := overlay (n.itemRead t) off bs
  let hd := t.head gen
  let pad := Mem.read n.view (base + t.len) (t.trailer - t.len)
  let all := d ++ pad ++ wordsBytes (hd ++ [crc32c (d ++ wordsBytes hd)])
  { n with writes := n.writes ++ pageWrites src (all.length / 256 + 2) base all }

/-! ### The retirement map (R309) -/

/-- One channel block, 128 words. -/
def rmapBlock (m : RMap) (ch : Fin 16) : List W :=
  let es := m.rows.get ch
  let w0 := wn ((m.banks.get ch).toNat + 2 ^ 16 * es.length)
  let ws := es.map fun e => wn (2 ^ 31 + e.bank * 2 ^ 26 + e.row * 2 ^ 13 + e.spare)
  w0 :: ws ++ List.replicate (127 - ws.length) 0

/-- The 16 channel blocks. -/
def rmapBlocks (m : RMap) : List W := (allFin 16).flatMap (rmapBlock m)

/-- Words 0–14 of the map header. -/
def rmapHead (m : RMap) : List W :=
  [m.gen, m.lanes.extractLsb' 0 32, m.lanes.extractLsb' 32 32, m.lanes.extractLsb' 64 32,
    wn (m.clusters.toNat + 2 ^ 12 * m.ports.toNat + 2 ^ 16 * m.bellows.toNat + 2 ^ 24 * m.mods.toNat),
    wn (m.engines.toNat + match m.chan with
      | some c => 2 ^ 8 + 2 ^ 12 * c.val
      | none => 0)] ++ List.replicate 9 0

/-- The header's 16 words: w15 is the CRC-32C of w0–w14 and the blocks. -/
def rmapHeader (m : RMap) : List W := rmapHead m ++ [crcWords (rmapHead m ++ rmapBlocks m)]

/-- The bytes of the map as NV holds them. -/
def rmapBytes (m : RMap) : List Byte := wordsBytes (rmapHeader m ++ rmapBlocks m)

/-- A channel block read back. -/
def parseBlock (ws : List W) : BitVec 16 × List RowEntry :=
  let w0 := nthW ws 0
  let n := min (fld w0 23 16) 96
  (BitVec.ofNat 16 (fld w0 15 0),
    (((ws.drop 1).take n).filter fun w => bitOf w 31).map fun w =>
      { bank := fld w 29 26, row := fld w 25 13, spare := fld w 12 0 })

/-- A map read back from the layout of R309; an item that no copy gives starts empty (R441). -/
def parseMap (bs : List Byte) : RMap :=
  let ws := bytesWords bs
  let blk (c : Fin 16) := parseBlock ((ws.drop (16 + 128 * c.val)).take 128)
  let w4 := nthW ws 4
  let w5 := nthW ws 5
  { gen := nthW ws 0
    lanes := (nthW ws 3 ++ nthW ws 2 : BitVec 64) ++ nthW ws 1
    clusters := BitVec.ofNat 12 (fld w4 11 0)
    ports := BitVec.ofNat 4 (fld w4 15 12)
    bellows := BitVec.ofNat 8 (fld w4 23 16)
    mods := BitVec.ofNat 8 (fld w4 31 24)
    engines := BitVec.ofNat 6 (fld w5 5 0)
    chan := if bitOf w5 8 then some ⟨fld w5 15 12 % 16, by omega⟩ else none
    banks := updAll (Vector.replicate 16 0) fun c _ => (blk c).1
    rows := updAll (Vector.replicate 16 []) fun c _ => (blk c).2 }

/-- Enters a change of the map: the generation advances and the map is written to NV (R305, R309). -/
def State.mapEntry (s : State) (f : RMap → RMap) : State :=
  let s := s.modFm fun m => { m with map := { f m.map with gen := m.map.gen + 1 } }
  s.modNv fun n => n.itemWrite itemMap 0 (rmapBytes s.fm.map) .item

end Sys2Proof.Machine
end

