-- ==== Sys2Proof/Machine/EngineBase.lean ====
section
/-! DEFINITION. Starting, stopping and restarting engines (R45, R81–R84, R111, R411, R415, R475) and taking an exception (R78,
R285), the one operation every faulting instruction uses. -/
namespace Sys2Proof.Machine

def engCE : Eng := 0
def engME : Eng := 5

/-- Contexts of an engine (R41). -/
def nCtx (e : Eng) : Nat := if e.val = 0 then 4 else if e.val = 5 then 2 else 1

/-- Bytes of program and data memory (R41). -/
def progSize (e : Eng) : Nat := if e.val = 0 then 131072 else if e.val = 5 then 32768 else 16384
def dataSize (e : Eng) : Nat := if e.val = 0 then 131072 else 32768

/-- The entries that an engine's data memory holds for its contexts (R475), but for zeros and those held in force as 0x0000. -/
def readRoutes (e : Eng) (m : Mem) : List Route :=
  ((allFin 4).filter fun c => c.val < nCtx e).flatMap fun c =>
    (allFin 24).filterMap fun w =>
      let h := Mem.half m (0x7B00 + 0x40 * c.val + 2 * w.val)
      let src := h % 2048
      if hs : src < 1536 then
        if h ≠ 0 ∧ h / 2048 % 16 = 0 then some { ctx := c, input := w, on := decide (0x8000 ≤ h), src := ⟨src, hs⟩ } else none
      else none

/-- The entry point of context `c` (R86); a program counter has its two low bits zero (R44, log entry 177). -/
def entryOf (e : Eng) (en : Engine) (c : Fin 4) : W :=
  (if c.val = 0 then wn en.entry0.toNat
   else if e.val = 0 then wn (en.entryN.toNat + 0x4000 * (c.val - 1))
   else wn en.entryN.toNat) &&& 0xFFFFFFFC

/-- Drops the error marks of whole words written. -/
def freshWords (l : List Nat) (a n : Nat) : List Nat := l.filter fun w => !(decide (a / 4 ≤ w) && decide (w < (a + n) / 4))

/-- Fixed logic reads `n` bytes of an engine's data memory: each word with a single-bit error is corrected in place, with source 1 of the
engine (R43); log entry 178 says what an uncorrectable one reads as. -/
def State.dataFix (s : State) (e : Eng) (a n : Nat) : State :=
  let hit (w : Nat) : Bool := a / 4 ≤ w && 4 * w < a + n
  let soft := (s.eng e).dataSoft.filter hit
  if soft.isEmpty then s
  else forEach soft (fun _ t => t.occur (srcEng e 1)) (s.modEng e fun en => { en with dataSoft := en.dataSoft.filter fun w => !hit w })

/-- Byte addresses of an engine's MP1 ring or of the ME's MP0 ring (R411, R415). -/
def ringBase (e : Eng) : Nat := if e.val = 5 then 0x7E00 else 0x7C00

/-- Indices of the pending descriptors of a ring, oldest first. -/
def ringPending (m : Mem) (base : Nat) : List Nat :=
  let pi := (Mem.word m base).toNat % 16
  let ci := (Mem.word m (base + 4)).toNat % 16
  (List.range (min ((pi + 16 - ci) % 16) 8)).map fun i => (ci + i) % 16

/-- Discards the pending descriptors with status 0x04 and CI brought to PI (R411, R415 at a retirement). -/
def ringDiscard (m : Mem) (base : Nat) : Mem :=
  let m := (ringPending m base).foldl (fun m i => Mem.set m (base + 0x10 + 16 * (i % 8) + 15) 4) m
  Mem.setWord m (base + 4) (wn ((Mem.word m base).toNat % 16))

/-- The word that holds a ring's CI has been written whole: fresh check bits (R43). -/
def Engine.ciFresh (en : Engine) (base : Nat) : Engine :=
  { en with dataBad := freshWords en.dataBad (base + 4) 4, dataSoft := freshWords en.dataSoft (base + 4) 4 }

/-- Discards the pending descriptors of an engine's ring with status 0x04. -/
def Engine.ringDrop (en : Engine) (base : Nat) : Engine := { en.ciFresh base with data := ringDiscard en.data base }

/-- The sequencer of a ring reads its indices and its head descriptor (R43, R411, R415). -/
def State.ringFix (s : State) (e : Eng) (base : Nat) : State :=
  let s := s.dataFix e base 8
  match (ringPending (s.eng e).data base).head? with
  | some i => s.dataFix e (base + 0x10 + 16 * (i % 8)) 16
  | none => s

/-- The transfers of an engine on the balls no longer write anything back (R415). -/
def State.mp1Detach (s : State) (e : Eng) : State :=
  s.modSerial fun x =>
    match x.mp1 with
    | some t => if t.eng.val = e.val then { x with mp1 := some { t with live := false } } else x
    | none => x

/-- What the command queue and the completion port do when the CE starts again (R111): words of a partly sent completion that still
wait in the outbound buffer are discarded with it (log entry 21). -/
def State.ceRestart (s : State) : State :=
  let cpl (m : Msg) : Bool := m.dst.val == 0 && m.ch.val == 14
  let part := ((s.eng engCE).partials.toList.any fun l => !l.isEmpty) || (s.eng engCE).out.any cpl
  let s := s.modQueue fun q => { q with given := 0, taken := 0, partialDiscard := q.partialDiscard || part }
  s.modEng engCE fun en =>
    { en with partials := Vector.replicate 4 [], out := en.out.filter fun m => !cpl m,
              chans := upd en.chans 15 fun _ => [] }

/-- Sets an engine's contexts as R45 defines, reads its routes (R475), clears its latches (R476), and for the CE and a PS engine
discards its MP1 ring (R415). -/
def State.engReset (s : State) (e : Eng) : State :=
  let s := s.dataFix e 0x7B00 (0x40 * nCtx e)
  let s := if e.val = 5 then s else s.dataFix e 0x7C00 4
  let s := s.modEng e fun en =>
    let data := if e.val = 5 then en.data
      else Mem.setWord en.data 0x7C04 (wn ((Mem.word en.data 0x7C00).toNat % 16))
    let en := if e.val = 5 then en else en.ciFresh 0x7C00
    { en with
      run := 0, stopDue := false, data := data, routes := readRoutes e data
      ctxs := updAll en.ctxs fun c _ => { Ctx.zero with pc := entryOf e en c } }
  let s := if e.val = 5 then s else s.mp1Detach e
  if e.val = 0 then s.ceRestart else s

/-- Starts the CE or a PS engine (R82). -/
def State.engStart (s : State) (e : Eng) : State := (s.engReset e).modEng e fun en => { en with st := 1 }

/-! ### Software-controlled selects (R419) -/

/-- Whether a select of MP0 is under software control. -/
def State.mp0Soft (s : State) (sel : Nat) : Bool := bitOf s.serial.swsel (16 + sel)

/-- Whether a device is bound by R418: it drives none of MP1's balls. -/
def State.mp1Bound (s : State) : Bool := s.twinEn && !s.twin.owner

/-- Whether a select of MP1 is under software control; of no effect on SEL0–SEL3 of a device bound by R418 (R419). -/
def State.mp1Soft (s : State) (sel : Nat) : Bool := bitOf s.serial.swsel sel && !(sel < 4 && s.mp1Bound)

/-- Whether the fills of the production loader have MP0 at its command boundaries (R409): those of a load in progress whose select is not
under software control (R419; log entry 179). -/
def State.prodFills (s : State) : Bool := s.transit.prodBusy && !s.mp0Soft 0

/-- A written MP_SWSEL takes effect for each port that is idle (R419): source 20 when software control of a select changes. -/
def State.swTake (s : State) : State :=
  match s.serial.swPend with
  | none => s
  | some v =>
    let x := s.serial
    let m0 : W := if x.mp0.isNone then 0x000F0000 else 0
    let m1 : W := if x.mp1.isNone then 0x0000FFFF else 0
    let m := m0 ||| m1
    let new := (v &&& m) ||| (x.swsel &&& ~~~m)
    let ctl : W := 0x000300FF
    let s := s.modSerial fun x => { x with swsel := new, swPend := if m = 0x000FFFFF then none else some v }
    if new &&& ctl ≠ x.swsel &&& ctl then s.occur (srcSerial 20) else s

/-- Discards every descriptor of the ME's MP0 ring, the one in progress among them (R411); a select that waited for its end changes hands
(R419). -/
def State.mp0Discard (s : State) : State :=
  let s := s.modEng engME fun en => en.ringDrop 0x7E00
  (s.modSerial fun x =>
    match x.mp0 with
    | some (.ring _ _) => { x with mp0 := none, mp0Done := 0 }
    | _ => { x with mp0Done := 0 }).swTake

/-- The fault manager restarts the ME from its mask ROM (R84): the pending descriptors of its MP0 ring are discarded (R411); what
follows is the command ME_RESTART_DONE. -/
def State.meRestart (s : State) : State :=
  if s.engRetired engME then s
  else
    s.mp0Discard.modBoot fun b => { b with meRestarting := true }

/-! ### Exceptions (R78, R285) -/

/-- Word of an engine's program memory, of a lane's kernel. -/
def State.insnWord (s : State) (ag : Agent) (pc : W) : W :=
  match ag with
  | .eng e => Mem.word (s.eng e).prog pc.toNat
  | .lane l => Mem.word (s.cluster (clusterOf l)).kernel pc.toNat

/-- An engine takes an exception (R78): it stops with all its contexts and captures the cause, the address and word of the
instruction and the data address; source 0; the error goes to the fault manager (R285): cause 0x05 is a detected error of
the engine, any other a program error, after which the ME is restarted. A fetch outside program memory captures the word 0 (log entry
143). -/
def State.engException (s : State) (e : Eng) (cause : Byte) (data : W) : State :=
  let en := s.eng e
  let pc := (en.ctxs.get en.run).pc
  let word := if cause = 6 then 0 else s.insnWord (.eng e) pc
  let s := s.modEng e fun en => { en with st := 4, exc := ⟨cause, pc, word, data⟩ }
  let s := (s.traceFlow e en.run 4 pc [cause]).occur (srcEng e 0)
  if cause = 5 then s.detect (uEng e) 0 (some (cause, pc, word))
  else
    let s := s.programError (uEng e) cause pc word
    if e.val = 5 then s.meRestart else s

/-- An element nothing is known of yet. -/
def Pix.zero : Pix :=
  { valid := false, p := 0, cls := 0, w0 := 0, w3 := 0, w10 := 0, w11 := 0, incl := false, hold := false, y := 0, c := 0, cobj := 0,
    doneA := false, doneB := false, doneC := false, lost := false, raw := none, word := none }

/-- A group is given up (R285, R296): no lane waits for it, its tile is left to the frame-deadline patch; what its arrays hold for its
neighbours is open (log entry 3). -/
def State.giveUp (s : State) (v : Invoc) : State :=
  forEach (List.range 8) (fun i t =>
    let w := t.free
    let y := w.2.free
    let mark (d : Nat) (f : Pix → Pix) (fr : Frame) : Frame :=
      if d ≤ v.row ∧ v.row - d < fr.pb.rows v.port then
        let k := (v.row - d) * fr.pb.cols v.port + v.col + i
        { fr with pix := insertN fr.pix k (f (getN fr.pix k Pix.zero)) }
      else fr
    let all (fr : Frame) : Frame :=
      mark 4 (fun x => { x with doneC := true, lost := true })
        (mark 2 (fun x => { x with doneB := true, lost := true, y := y.1.toInt })
          (mark 0 (fun x => { x with doneA := true, lost := true, p := w.1.toInt }) fr))
    y.2.modPort v.port fun x => if v.tail then { x with tail := x.tail.map all } else { x with frame := x.frame.map all }) s

/-- A group that will not be retried (R285, R296): counted, left to the frame-deadline patch. -/
def State.noRetry (s : State) (l : LaneNo) : State :=
  let s := s.modFm fun m => { m with noretry := satAdd m.noretry 1 }
  match (s.lane l).abandoned with
  | some v => (s.giveUp v).modLane l fun x => { x with abandoned := none }
  | none => s

/-- Gives up the invocation that a lane runs, if any. -/
def State.dropInvoc (s : State) (l : LaneNo) : State :=
  let s := match (s.lane l).invoc with
    | some v => s.giveUp v
    | none => s
  s.modLane l fun x => { x with invoc := none, ctx := { x.ctx with block := .ready } }

/-- A cluster's island is reset alone (R465, R466): the transfers that its lanes wait for complete as discarded and are counted. -/
def State.clusterReset (s : State) (k : Fin 12) : State :=
  let ls := (allFin 96).filter fun l => clusterOf l == k
  let n := (ls.map fun l => ((s.lane l).ctx.tags.toList.filter (·.isSome)).length).foldl (· + ·) 0
  forEach ls (fun l t => t.modLane l fun x => { x with ctx := { x.ctx with tags := Vector.replicate 4 none } })
    ((s.islandReset k.val).count (384 + k.val) n)

/-- A detected error of a cluster (R287, R289, R465): on isolation its island is reset and its lanes' groups are given up. -/
def State.clusterDetect (s : State) (k : Fin 12) (cause : Byte) : State :=
  let was := (s.unit (uCluster k)).st
  let s := s.detect (uCluster k) cause
  if was ≠ 1 ∧ (s.unit (uCluster k)).st = 1 then
    forEach ((allFin 96).filter fun l => clusterOf l == k) (fun l t => t.dropInvoc l) (s.clusterReset k)
  else s

/-- A lane takes an exception (R78, R285): its group invocation is abandoned. Cause 0x05 is a detected error of the lane, or of its
cluster where tile memory raised it; any other cause is a program error and the lane takes its next group. A retry that it ends closes
as the transient already decided (R289). -/
def State.laneException (s : State) (l : LaneNo) (cause : Byte) (data : W) (tile : Bool) : State :=
  let x := s.lane l
  let pc := x.ctx.pc
  let word := if cause = 6 then 0 else s.insnWord (.lane l) pc
  let s := (s.modLane l fun x => { x with exc := ⟨cause, pc, word, data⟩ }).occur (srcLane l 0)
  if cause = 5 ∧ !tile then (s.detect (uLane l) 0 (some (cause, pc, word))).dropInvoc l
  else
    let s := s.dropInvoc l
    if cause = 5 then s.clusterDetect (clusterOf l) 0
    else
      (s.programError (uLane l) cause pc word).retryDone (uLane l)

/-- The exception of whoever executes. -/
def State.raise (s : State) (ag : Agent) (cause : Byte) (data : W) : State :=
  match ag with
  | .eng e => s.engException e cause data
  | .lane l => s.laneException l cause data false

/-! ### Stops (R83) -/

/-- Whether an engine has SEND words or TILE transfers outstanding. The CE's assembled completions that wait for the ring are no such words: they
have entered channel 14 (R83, R108; log entry 145). -/
def engBusy (en : Engine) : Bool := !en.out.isEmpty || en.ctxs.toList.any fun c => c.tags.toList.any (·.isSome)

/-- A stop that has met its meridian completes once nothing is outstanding (R83). -/
def State.stopSettle (s : State) (e : Eng) : State :=
  let en := s.eng e
  if en.st = 2 ∧ en.stopDue ∧ !engBusy en then s.modEng e fun en => { en with st := 3, stopDue := false } else s

/-- Stop requests take effect (R83). -/
def State.stopsTake (s : State) : State :=
  forEach (allFin 6) (fun e t =>
    if (t.eng e).st = 2 then (t.modEng e fun en => { en with stopDue := true }).stopSettle e else t) s

end Sys2Proof.Machine
end

