-- ==== Sys2Proof/Machine/Retire.lean ====
section
/-! DEFINITION. Retirements and rotations taking effect (R248–R253, R287, R298–R299, R304–R306) and what happens at once when no
port runs. -/
namespace Sys2Proof.Machine

/-! ### Store units -/

/-- First block of the withdrawn range: the migration's pointer starts there (R250). -/
def migStart : Nat := (0xF1000000 - 0x10000000) / 2048

/-- A channel meets a condition for retirement (R249, R250, R252): the first is entered in the map and its migration starts; a
second stays in service with FAIL2, FAULT and a record, and the device yields. -/
def State.chanRetire (s : State) (ch : Fin 16) (cause : Byte) (who : Option Req) (decided : Bool) : State :=
  if s.fm.map.chan.isSome then
    if s.fm.map.chan = some ch then s
    else ((s.modStore fun t => { t with fail2 := true }).setFault.fmDecide (chanUid ch.val) cause 1).yieldDue
  else
    let out := if who.isSome then 3 else 1
    let s := if decided then s
      else ((if who.isSome then s else s.fmPermanent).fmDecide (chanUid ch.val) cause out).fmOutcome who (chanUid ch.val) out
    let s := s.mapEntry fun m => { m with chan := some ch }
    let s := s.modStore fun t =>
      { t with retch := ch, mig := true, migNext := migStart,
               mem := t.mem.filter fun e => decide (e.1 < 0xF1000000),
               poison := t.poison.filter fun w => decide (8 * w < 0xF1000000),
               seqs := t.seqs.filter fun q => q.ch ≠ ch }
    s.occur (srcChan ch 5)

/-- A bank is retired onto spare rows, its remaining rows copied as R248 step 1 copies; or its channel where the spares do not suffice or
the bank is bank 12 (R249). -/
def State.bankRetire (s : State) (ch : Fin 16) (bank : Nat) (cause : Byte) (who : Option Req) (decided : Bool) : State :=
  if (s.fm.map.banks.get ch).getLsbD bank then s
  else if bank = 12 ∨ s.freeSpares ch < bankRows (s.fm.map.rows.get ch) bank then s.chanRetire ch cause who false
  else
    let out := if who.isSome then 3 else 1
    let s := if who.isSome || decided then s else s.fmPermanent
    let s := if decided then s else (s.fmDecide (bankUid ch.val bank) cause out).fmOutcome who (bankUid ch.val bank) out
    let s := s.copyWords fun w => let l := wordLoc s w; l.1 == ch && l.2.1 == bank
    (s.mapEntry fun m => { m with banks := upd m.banks ch fun w => w ||| (1 <<< bank : BitVec 16) }).occur (srcChan ch 4)

/-- A row's retirement is entered in the map (R248 step 3b, R306): on its spare; a failed spare moves the row it served too; a
97th entry retires the channel, 64 rows of a bank retire the bank. -/
def State.rowRetire (s : State) (q : RowSeq) : State :=
  let s := s.modStore fun t => { t with seqs := t.seqs.erase q }
  let es := s.fm.map.rows.get q.ch
  if 96 ≤ es.length then s.chanRetire q.ch 0xFD none false
  else
    let moved := if q.bank = 12 then es.map fun e => if e.spare = q.row then { e with spare := q.spare } else e else es
    let s := s.mapEntry fun m =>
      { m with rows := upd m.rows q.ch fun _ => moved ++ [⟨q.bank.val, q.row, q.spare⟩] }
    let s := s.occur (srcChan q.ch 3)
    if 64 ≤ ((s.fm.map.rows.get q.ch).filter fun e => e.bank = q.bank.val).length then
      s.bankRetire q.ch q.bank.val 0xFD none false
    else s

/-- A store unit whose retirement waits, by its identifier (R301 SVC 0x04, R249). -/
def State.storeRetire (s : State) (uid : W) (decided : Bool) : State :=
  let who := (s.fm.storeReqs.find? fun r => r.1 = uid).map (·.2)
  let s := s.modFm fun m => { m with storeReqs := m.storeReqs.filter fun r => r.1 ≠ uid }
  let cause : Byte := if who.isSome then 0xFF else 0xFD
  if isChanUid uid then s.chanRetire (uidCh uid) cause who decided
  else if isBankUid uid then s.bankRetire (uidCh uid) (uidBank uid) cause who decided
  else
    match s.nextSpare (uidCh uid) with
    | some sp =>
      let s := (s.fmDecide uid cause 3).fmOutcome who uid 3
      s.rowRetire
        { ch := uidCh uid, bank := ⟨uidBank uid % 16, by omega⟩, row := uidRow uid, spare := sp, phase := 3, cause := cause }
    | none => s.chanRetire (uidCh uid) 0xFD who decided

/-- The first block above the pointer to be moved has been moved; at the last, 15-channel mode is in force (R250). -/
def State.migrate (s : State) : State :=
  if s.store.mig then
    let n := s.store.migNext - 1
    let s := s.copyWords fun w => blockOf (8 * w) == n
    let s := s.modStore fun t => { t with migNext := n }
    if n = 0 then
      (s.modStore fun t => { t with mig := false, ch15 := true }).occur (srcChan s.store.retch 6)
    else s
  else s

/-! ### Units of UNIT_STATE -/

/-- The port is switched off and its streams stop (R277, R298). -/
def State.portOff (s : State) (p : Port) : State :=
  if (s.port p).st = .off then s
  else if (s.port p).st = .running then (s.portLeave p .off).islandReset (13 + p.val)
  else (s.modPort p fun x => { x with st := .off, frame := none }).islandReset (13 + p.val)

/-- A retired lane's work is given up (R147, R285). -/
def State.laneGone (s : State) (l : LaneNo) : State :=
  let s := match (s.lane l).abandoned with
    | some v => s.giveUp v
    | none => s
  (s.dropInvoc l).modLane l fun x => { x with abandoned := none }

/-- A transit that has still to measure its dome by a modulator is abandoned with code 0x06 when the modulator is retired (R211, R216,
R298). -/
def State.transitModLost (s : State) (k : Fin 8) : State :=
  match s.transit.cur with
  | some c =>
    let w := s.params.force.fld 1 (16 + 8 * c.port.val)
    if c.step.val ≤ 4 ∧ bitOf w 3 ∧ fld w 2 0 = k.val then s.transitAbandon 6 false else s
  | none => s

/-- A lane that carries transit work, in the steps that use it, is lost to it: the transit is abandoned with code 0x08 (R211). -/
def State.transitLaneLost (s : State) (u : Fin 182) : State :=
  if h : u.val < 96 then
    match s.transit.cur with
    | some c => if (c.step.val = 4 ∨ c.step.val = 5) ∧ s.transitCluster (clusterOf ⟨u.val, h⟩) then s.transitAbandon 8 false else s
    | none => s
  else s

/-- The map bit of a unit. -/
def mapBit (u : Fin 182) (m : RMap) : RMap :=
  let n := u.val
  if n < 96 then { m with lanes := m.lanes ||| (1 <<< n : BitVec 96) }
  else if n < 108 then { m with clusters := m.clusters ||| (1 <<< (n - 96) : BitVec 12) }
  else if n < 112 then { m with ports := m.ports ||| (1 <<< (n - 108) : BitVec 4) }
  else if n < 120 then { m with bellows := m.bellows ||| (1 <<< (n - 112) : BitVec 8) }
  else if n < 128 then { m with mods := m.mods ||| (1 <<< (n - 120) : BitVec 8) }
  else if n < 134 then { m with engines := m.engines ||| (1 <<< (n - 128) : BitVec 6) }
  else m

/-- What a retirement does to the unit's work (R298, R299, R415). Lanes isolated when their cluster falls, or in the sequence since, are
retired with it, each with its own map entry; its other lanes only lose their work (R292, R305). -/
def State.retireEffect (s : State) (u : Fin 182) : State :=
  let n := u.val
  if h : n < 96 then
    (s.transitLaneLost u).laneGone ⟨n, h⟩
  else if h : n < 108 then
    let k : Fin 12 := ⟨n - 96, by omega⟩
    forEach ((allFin 96).filter fun l => l.val / 8 = n - 96)
      (fun l t =>
        let st := (t.unit (uLane l)).st.toNat
        if 1 ≤ st ∧ st ≤ 4 then
          ((t.modUnit (uLane l) fun x => { x with st := 5, rotate := false, backAtMer := false, failAtMer := false }).mapEntry
            (mapBit (uLane l))).laneGone l
        else t.laneGone l)
      (s.clusterReset k)
  else if h : n < 112 then ((s.portOff ⟨n - 108, by omega⟩).setFault).yieldDue
  else if h : n < 120 then
    let c : Fin 8 := ⟨n - 112, by omega⟩
    let s := ((s.blwRelease c).blwShut c).parFollow c
    if hc : n - 112 < 4 then s.modTPort ⟨n - 112, hc⟩ fun x => { x with domeout := true } else s
  else if h : n < 128 then
    let k : Fin 8 := ⟨n - 120, by omega⟩
    let s := s.modMod k fun m =>
      { m with cond := .idle, pend := none, chain := [], edges := 0, testing := false, checking := none, trimDue := false,
               trimming := none }
    let q := s.sextant
    ({ s with sextant := { q with checkDue := if q.checkDue = some k then none else q.checkDue } }).transitModLost k
  else if h : n < 134 then
    let e : Eng := ⟨n - 128, by omega⟩
    let s := s.modEng e fun en => { (if e.val = 5 then en else en.ringDrop (ringBase e)) with st := 4 }
    let s := if e.val = 5 then s.mp0Discard else s.mp1Detach e
    s.setFault.yieldDue
  else s

/-- A unit in state 4 becomes retired (R287 state 5, R298, R305), with an entry in the map where the map has a place for it (R309); a requested
retirement is answered (R302). -/
def State.retireUnit (s : State) (u : Fin 182) : State :=
  let x := s.unit u
  let s := s.modUnit u fun x => { x with st := 5, reqRetire := none, rotate := false, backAtMer := false, failAtMer := false }
  let s := if u.val < 134 then s.mapEntry (mapBit u) else s
  let s := match x.reqRetire with
    | some r => (s.fmDecide (slotUid u) x.cause 3).fmOutcome (some r) (slotUid u) 3
    | none => s
  s.retireEffect u

/-- Pending retirements that may take effect now: those `ok` names among the units, and the store's; outcomes asked for follow
(R287, R298, R302). -/
def State.retirePending (s : State) (ok : Fin 182 → Bool) (store : Bool) : State :=
  let s := forEach (allFin 182) (fun u t => if (t.unit u).st = 4 ∧ ok u then t.retireUnit u else t) s
  let s :=
    if store then
      let s := forEach (s.store.seqs.filter fun q => q.phase = 3) (fun q t => t.rowRetire q) s
      let l := s.fm.storePend
      forEach l (fun w t => t.storeRetire w.1 w.2) (s.modFm fun m => { m with storePend := [] })
    else s
  s.fmDeliver

/-- Units out for test whose test has failed are pending retirement from the first meridian after it (R287). -/
def State.failedBack (s : State) : State :=
  forEach (allFin 182) (fun u t =>
    if (t.unit u).st = 6 ∧ (t.unit u).failAtMer then t.modUnit u fun x => { x with st := 4, failAtMer := false } else t) s

/-- Units back from state 6 at the first meridian after their test (R287, R288). -/
def State.rotateBack (s : State) : State :=
  forEach (allFin 182) (fun u t =>
    if (t.unit u).st = 6 ∧ (t.unit u).backAtMer then (t.inService u).modUnit u fun x => { x with backAtMer := false }
    else t) s

/-- Rotations out that wait for a meridian take place (R304). -/
def State.rotateOut (s : State) (ok : Fin 182 → Bool) : State :=
  forEach (allFin 182) (fun u t =>
    if (t.unit u).rotate ∧ ok u then t.modUnit u fun x => { x with st := 6, rotate := false } else t) s

/-- What takes effect at once when no port runs: retirements (R287), stops (R83), returns and rotations (R304), and the class D
copy (R100). -/
def State.settleIdle (s : State) : State :=
  if s.anyRunning then s
  else ((((s.failedBack.retirePending (fun _ => true) true).rotateBack).rotateOut fun _ => true).stopsTake).devIdle

/-- A unit whose retry or test has just left it in state 4 is retired at once when no port runs (R287). -/
def State.settleUnit (s : State) (u : Fin 182) : State := if (s.unit u).st = 4 then s.settleIdle else s

end Sys2Proof.Machine
end

