-- ==== Sys2Proof/Machine/Bands.lean ====
section
/-! DEFINITION. Lane lists, drafting, bands, forced levels, the duty cluster, cluster clocks and kernel loads (R37–R40, R97, R118,
R140–R147, R300, R455). -/
namespace Sys2Proof.Machine

/-! ### Who serves whom (R37, R118, R140–R142) -/

/-- A lane retired on the twin partner, by the identifiers of what the partner has retired (R146, R294). -/
def State.peerLane (s : State) (l : LaneNo) : Bool :=
  s.twin.peerMap.contains (slotUid (uLane l)) || s.twin.peerMap.contains (slotUid (uCluster (clusterOf l)))

/-- Whether a lane counts as retired for drafting: retired here, or parked for the partner (R142, R146). -/
def State.laneLost (s : State) (l : LaneNo) : Bool := s.laneRetired l || s.peerLane l

/-- Whether a cluster is out for a test (R304). -/
def State.clusterOut (s : State) (k : Fin 12) : Bool := (s.unit (uCluster k)).st == 6

/-- Whether a lane can work in a lane list: not lost and not out for a test (R142, R304). -/
def State.laneWorks (s : State) (l : LaneNo) : Bool :=
  !s.laneLost l && (s.unit (uLane l)).st != 6 && !s.clusterOut (clusterOf l)

/-- What one computation runs under: the profile actually run and the ports it serves. -/
structure Plan where
  frugal : Bool
  /-- Active ports of FRUGAL, ascending. -/
  active : List Port
deriving DecidableEq, Repr

/-- The plan of a forced level for the copies `v` and a damper stage (R27, R300). -/
def planOf (v : PMap) (stage level : Nat) : Plan :=
  { frugal := v.profileOf == 3 || 4 ≤ stage || level == 1 || level == 2
    active := if level = 2 then v.frugalPorts.take 1 else v.frugalPorts }

/-- Home lanes of one port number by itself (R141). -/
def homeOne (pl : Plan) (p : Port) : List LaneNo :=
  if pl.frugal then
    (match pl.active.idxOf? p with
     | some i => (allFin 96).filter fun l => 12 * i ≤ l.val && l.val < 12 * i + 12
     | none => [])
  else (allFin 96).filter fun l => 16 * p.val ≤ l.val && l.val < 16 * p.val + 16

/-- Home lanes of a port; a ganged pair has those of both its ports (R118, R141). -/
def homeLanes (v : PMap) (pl : Plan) (p : Port) : List LaneNo :=
  homeOne pl p ++ (if h : p.val % 2 = 0 then (if v.gang p then homeOne pl ⟨p.val + 1, by omega⟩ else []) else [])

/-- The running ports that a plan serves, ascending. -/
def State.served (s : State) (v : PMap) (pl : Plan) : List Port :=
  (allFin 4).filter fun p => (s.port p).st == .running && !(homeLanes v pl p).isEmpty

/-- Whether a cluster holds no home lane of a served port (R141). -/
def State.isReserve (s : State) (v : PMap) (pl : Plan) (k : Fin 12) : Bool :=
  (s.served v pl).all fun p => (homeLanes v pl p).all fun l => clusterOf l != k

def lanesOf (k : Fin 12) : List LaneNo := (allFin 96).filter fun l => clusterOf l == k

/-- The duty cluster (R142): the highest-numbered reserve cluster with no retired lane that is not out for a test. -/
def State.dutyCluster (s : State) (v : PMap) (pl : Plan) : Option (Fin 12) :=
  ((allFin 12).filter fun k =>
    s.isReserve v pl k && !s.clusterOut k && (lanesOf k).all fun l => !s.laneLost l).getLast?

/-! ### Drafting (R145) -/

/-- Clusters drafted so far with the slot they run, and lanes taken. -/
structure Draft where
  clusters : List (Fin 12 × Fin 16)
  taken : List LaneNo
deriving DecidableEq, Repr

/-- The lane that replaces a missing home lane of a port running `slot`, if any (R145 step 3). -/
def State.draftOne (s : State) (v : PMap) (pl : Plan) (duty : Fin 12) (slot : Fin 16) (d : Draft) : Option (LaneNo × Draft) :=
  let free (l : LaneNo) : Bool := s.laneWorks l && !d.taken.contains l
  match (allFin 96).find? fun l => free l && d.clusters.any fun c => c.1 == clusterOf l && c.2 == slot with
  | some l => some (l, { d with taken := d.taken ++ [l] })
  | none =>
    match (allFin 96).find? fun l => free l && s.isReserve v pl (clusterOf l) && clusterOf l != duty &&
        !d.clusters.any fun c => c.1 == clusterOf l with
    | some l => some (l, { clusters := d.clusters ++ [(clusterOf l, slot)], taken := d.taken ++ [l] })
    | none => none

/-- Drafts for `n` missing lanes. -/
def State.draftMany (s : State) (v : PMap) (pl : Plan) (duty : Fin 12) (slot : Fin 16) :
    Nat → Draft → Option (List LaneNo × Draft)
  | 0, d => some ([], d)
  | n + 1, d =>
    match s.draftOne v pl duty slot d with
    | none => none
    | some (l, d) =>
      match State.draftMany s v pl duty slot n d with
      | none => none
      | some (ls, d) => some (l :: ls, d)

/-- Bands of a lane list over `cols` active columns, widths in eights (R144). -/
def bandsOf (list : List LaneNo) (cols : Nat) : List Band :=
  let groups := cols / 8
  let n := list.length
  let q := groups / n
  let extra := groups % n
  (list.zip (List.range n)).map fun x =>
    { lane := x.1, first := 8 * (q * x.2 + min x.2 extra), width := 8 * (q + if x.2 < extra then 1 else 0) }

/-- Lane lists of the served ports in order, or none where a port's cannot be built within 224 columns a band (R144, R145). -/
def State.listsFor (s : State) (v : PMap) (pl : Plan) (duty : Fin 12) :
    List Port → Draft → Option (List (Port × List LaneNo) × Draft)
  | [], d => some ([], d)
  | p :: r, d =>
    let home := homeLanes v pl p
    let own := home.filter fun l => s.laneWorks l
    match s.draftMany v pl duty (s.params.force.slotOf p) (home.length - own.length) d with
    | none => none
    | some (ls, d) =>
      let list := own ++ ls
      if list.isEmpty ∨ 28 < (s.params.force.cols p / 8 + list.length - 1) / list.length then none
      else match State.listsFor s v pl duty r d with
        | none => none
        | some (rest, d) => some ((p, list) :: rest, d)

/-- The outcome of the computation at a level (R300). -/
def State.listsAt (s : State) (v : PMap) (stage level : Nat) : Option (List (Port × List LaneNo) × Draft × Fin 12) :=
  let pl := planOf v stage level
  match s.dutyCluster v pl with
  | none => none
  | some duty =>
    (s.listsFor v pl duty (s.served v pl) ⟨[], []⟩).map fun r => (r.1, r.2, duty)

/-- The lowest forced level at which the lists can be built (R300); at level 3 there are none. -/
def State.levelFor (s : State) (v : PMap) (stage : Nat) : Nat × Option (List (Port × List LaneNo) × Draft × Fin 12) :=
  match s.listsAt v stage 0 with
  | some r => (0, some r)
  | none =>
    match s.listsAt v stage 1 with
    | some r => (1, some r)
    | none =>
      match s.listsAt v stage 2 with
      | some r => (2, some r)
      | none => (3, none)

/-! ### Clusters (R97, R140, R143, R455) -/

/-- The kernel slot of a reserve cluster (R104, R142): any reserve cluster below C8 runs the slot of C8's field, as R142 says of a duty cluster
there (log entry 144). -/
def reserveSlot (v : PMap) (k : Fin 12) : Fin 16 :=
  ⟨fld (v.fld 0 (if 8 ≤ k.val then k.val - 6 else 2)) 3 0 % 16, by omega⟩

/-- Loads a slot's kernel into a cluster by broadcast (R97): the kernel bytes, entry point and windows; the lanes' registers
start from zero (R45). A poisoned store word leaves an uncorrectable word in every lane's copy (R247). -/
def State.kernelLoad (s : State) (k : Fin 12) (slot : Fin 16) : State :=
  let base := 0x98000000 + 4096 * slot.val
  let r := s.storeRead base 4096
  let s := r.2
  let bad := (s.store.poison.filter fun w => base ≤ 8 * w && 8 * w < base + 4096).flatMap fun w =>
    let i := (8 * w - base) / 4
    (List.range 8).flatMap fun j => [1024 * j + i, 1024 * j + i + 1]
  let ks := s.queue.kslots.get slot
  let s := s.modCluster k fun c =>
    { c with kernel := Mem.write [] 0 r.1, entry := ks.entry, windows := ks.windows, stale := false, slot := some slot, next := none,
             kernelBad := bad, kernelSoft := [] }
  forEach (lanesOf k) (fun l t => t.modLane l fun x =>
    { x with ctx := Ctx.zero, v := Vector.replicate 8 (Vector.replicate 8 0), p := Vector.replicate 4 0 }) s

/-- A cluster at a meridian: its slot and its clock target. A changed slot, or a direct write to the slot in use, reloads the
kernel, after the cluster's last invocation for the earlier frame (R97). -/
def State.clusterSet (s : State) (k : Fin 12) (slot : Option (Fin 16)) (mhz : Nat) : State :=
  let c := s.cluster k
  let s := match slot with
    | some n =>
      if c.slot = some n ∧ !c.stale then s.modCluster k fun c => { c with next := none }
      else if s.tailsIn k then s.modCluster k fun c => { c with next := some n }
      else s.kernelLoad k n
    | none => s
  s.clusterClock k mhz

/-- The clock of serving, drafted and duty clusters (R140). -/
def clockOf (pl : Plan) (stage : Nat) : Nat := if pl.frugal then 350 else if 2 ≤ stage then 400 else 500

/-- The clusters after port `p`'s lists have changed: those that serve `p` take its slot and clock; those that no port's band uses
are the reserve's, a stopped port's home clusters among them (R140, R142, R143; log entry 180). -/
def State.clustersSet (s : State) (p : Port) (v : PMap) (pl : Plan) (stage : Nat) (duty : Option (Fin 12)) : State :=
  let users (k : Fin 12) : List Port :=
    (allFin 4).filter fun q => (s.port q).st == .running && (s.port q).bands.any fun b => clusterOf b.lane == k
  let f := clockOf pl stage
  forEach (allFin 12) (fun k t =>
    match users k with
    | [] =>
      let clean := s.isReserve v pl k && !s.clusterOut k && (lanesOf k).all fun l => !s.laneLost l
      if duty = some k then t.clusterSet k (some (reserveSlot v k)) f
      else if clean && stage < 2 && !pl.frugal then t.clusterSet k (some (reserveSlot v k)) 500
      else t.clusterSet k none 0
    | q :: r => if q = p ∨ r.contains p then t.clusterSet k (some (s.params.force.slotOf q)) f else t) s

/-- UNIT_STATE 8 follows the partner's map (R146, R287). -/
def State.parkPeers (s : State) : State :=
  forEach (allFin 96) (fun l t =>
    let st := (t.unit (uLane l)).st
    if st = 0 ∧ t.peerLane l ∧ !t.laneRetired l then t.modUnit (uLane l) fun x => { x with st := 8 }
    else if st = 8 ∧ !t.peerLane l then t.modUnit (uLane l) fun x => { x with st := 0 }
    else t) s

/-- Step 4 of R25 for port `p` under damper stage `stage`: the forced level, its lane list and bands, its clusters (R144–R147, R300).
FORCED and FLOOR of FM_STATUS follow, and FAULT at level 3 (R300, R308). The lanes' clocks and slots take effect with it. -/
def State.bandsSet (s : State) (p : Port) (stage : Nat) : State :=
  let s := s.parkPeers
  let v := s.portView p
  let r := s.levelFor v stage
  let pl := planOf v stage r.1
  let list := match r.2 with
    | some x => ((x.1.find? fun e => e.1 = p).map (·.2)).getD []
    | none => []
  let duty := r.2.map (·.2.2)
  let old := (s.port p).bands.map (·.lane)
  let s := s.modPort p fun x =>
    { x with bands := bandsOf list (s.params.force.cols p), bandGen := if list == old then x.bandGen else x.bandGen + 1,
             profile := if pl.frugal then 3 else v.profileOf, level := r.1, stage := stage }
  let s := s.modFm fun m => { m with forced := BitVec.ofNat 2 r.1, floor := (s.dutyCluster v pl).isSome }
  let s := if r.1 = 3 then s.setFault else s
  s.clustersSet p v pl stage duty

/-- Where no port runs a change of the device stage applies at once (R381): the reserve's clusters take their clocks (R140). -/
def State.stageIdle (s : State) (stage : Nat) : State :=
  if s.anyRunning then s
  else
    let v := s.params.force
    let r := s.levelFor v stage
    s.clustersSet 0 v (planOf v stage r.1) stage (r.2.map (·.2.2))

/-- Drafted lanes in a port's list: those outside its home lanes (R170 w1). -/
def draftedIn (p : Port) (fr : Frame) : Nat :=
  let pl : Plan := { frugal := fr.profile == 3, active := if fr.level = 2 then fr.pb.frugalPorts.take 1 else fr.pb.frugalPorts }
  let home := homeLanes fr.pb pl p
  (fr.bands.filter fun b => !home.contains b.lane).length

end Sys2Proof.Machine
end

