-- ==== Sys2Proof/Machine/ThermalBase.lean ====
section
/-! DEFINITION. Temperature conditions, zone stages and the thermal settings table (R379–R385). -/
namespace Sys2Proof.Machine

/-- Zone of a sensor (R379). -/
def zoneOfSensor (t : Fin 48) : Fin 4 := if t.val < 32 then 0 else if t.val < 40 then 1 else if t.val < 44 then 2 else 3

def thermWord (th : Thermal) (i : Nat) : W := nthW th.table i
def warnOf (th : Thermal) (z : Fin 4) : Int := sfld (thermWord th (1 + 2 * z.val)) 15 0
def throtOf (th : Thermal) (z : Fin 4) : Int := sfld (thermWord th (1 + 2 * z.val)) 31 16
def shutOf (th : Thermal) (z : Fin 4) : Int := sfld (thermWord th (2 + 2 * z.val)) 15 0
def extEnabled (th : Thermal) (t : Fin 48) : Bool := t.val < 44 || bitOf (thermWord th 10) (t.val - 44)
def extShutUse (th : Thermal) (t : Fin 48) : Bool := t.val < 44 || bitOf (thermWord th 10) (t.val - 44 + 4)

/-- Validity of a sensor: 0 valid, 1 suspect, 2 broken, 3 disabled (R382). -/
def State.sensorVal (s : State) (t : Fin 48) : Nat :=
  let u := (s.unit (uSensor t)).st
  if !extEnabled s.thermal t then 3
  else if u = 1 ∨ u = 2 ∨ u = 3 then 1
  else if u = 7 then 2
  else 0

/-- A condition against its threshold, in Q9.6: sets at or above it, clears 4 K below, else keeps (R379). -/
def condAt (was : Bool) (reading th : Int) : Bool :=
  if th ≤ reading then true else if reading < th - 256 then false else was

/-- The three conditions of a sensor at a reading. -/
def sensorConds (th : Thermal) (z : Fin 4) (x : Sensor) (reading : Int) : Sensor :=
  { x with wrn := condAt x.wrn reading (warnOf th z), thr := condAt x.thr reading (throtOf th z),
           shutc := decide (shutOf th z ≤ reading) }

/-- Whether a sensor's conditions count for its zone (R382, R384). -/
def State.counts (s : State) (t : Fin 48) : Bool :=
  s.sensorVal t == 0 || (s.sensorVal t == 1 && (s.sensor t).keeps)

def State.zoneHot (s : State) (z : Fin 4) : Bool :=
  (allFin 48).any fun t => zoneOfSensor t == z && s.counts t && (s.sensor t).thr
def State.zoneWarm (s : State) (z : Fin 4) : Bool :=
  (allFin 48).any fun t => zoneOfSensor t == z && s.counts t && (s.sensor t).wrn
def State.zoneSuspect (s : State) (z : Fin 4) : Bool :=
  (allFin 48).any fun t => zoneOfSensor t == z && s.sensorVal t == 1
def State.zoneBroken (s : State) (z : Fin 4) : Bool :=
  (allFin 48).any fun t => zoneOfSensor t == z && s.sensorVal t == 2

/-- Whether the stage that AGREE carries governs (R381). -/
def State.stageAgreed (s : State) : Bool := s.twinning

/-- The device stage (R381). -/
def State.deviceStage (s : State) : Nat := if s.stageAgreed then s.thermal.agreed else s.thermal.stage

/-- A change of the device stage from `old` is noted, and applies at once where no port runs (R381). -/
def State.stageFollow (s : State) (old : Nat) : State :=
  let n := s.deviceStage
  if n = old then s else (s.note 0x200 0 suThermal [4, wn old, wn n]).stageIdle n

/-- AGREE's stage becomes the device stage (R381). -/
def State.stageCarry (s : State) (n : Nat) : State := (s.modThermal fun t => { t with agreed := n }).stageFollow s.deviceStage

/-- Sets a zone's stage, a change noted, and with it the highest of the four (R381). -/
def State.setZone (s : State) (z : Fin 4) (n : Fin 5) : State :=
  let old := s.thermal.zones.get z
  if old = n then s
  else
    let t := s.modThermal fun t =>
      let zs := t.zones.set z n
      { t with zones := zs, stage := zs.toList.foldl (fun m x => max m x.val) 0 }
    (t.note 0x200 0 suThermal [wn z.val, wn old.val, wn n.val]).stageFollow s.deviceStage

/-- A zone after a change of its sensors: a broken sensor sets stage 4 (R384); becoming hot raises the stage by 1 (R380). -/
def State.zoneAfter (s : State) (z : Fin 4) (wasHot : Bool) : State :=
  let n := s.thermal.zones.get z
  if s.zoneBroken z then s.setZone z 4
  else if !wasHot && s.zoneHot z then s.setZone z ⟨min (n.val + 1) 4, by omega⟩
  else s

/-- Whether a settings table is acceptable (R385). -/
def thermalOk (ws : List W) : Bool :=
  let th : Thermal := { Thermal.zero with table := ws }
  ((allFin 4).all fun z =>
    decide (warnOf th z + 320 ≤ throtOf th z) && decide (throtOf th z + 320 ≤ shutOf th z) &&
      decide (5760 ≤ shutOf th z) && decide (shutOf th z ≤ 8320)) &&
  fld (nthW ws 9) 15 0 != 0 && fld (nthW ws 9) 31 16 != 0 &&
  (List.range 4).all fun j => !bitOf (nthW ws 10) j || fld (nthW ws (11 + 3 * j)) 31 8 ≤ 7

/-- The sources of the sensors whose conditions or validity differ from those in `o` (R395). -/
def State.sensorNews (s o : State) : State :=
  forEach (allFin 48) (fun t x =>
    let a := o.sensor t
    let b := s.sensor t
    let x := if a.wrn ≠ b.wrn ∨ a.thr ≠ b.thr ∨ a.shutc ≠ b.shutc then x.occur (srcSensor t 0) else x
    if o.sensorVal t = s.sensorVal t then x else x.occur (srcSensor t 1)) s

/-- A settings table comes into force, at once for the conditions of the readings held and for the zone stages (R385). -/
def State.thermalApply (s : State) (ws : List W) (seq : Byte) : State :=
  let t := s.modThermal fun t => { t with table := ws, seq := seq }
  let t := forEach (allFin 48) (fun x t =>
    if t.sensorVal x = 0 ∧ (t.sensor x).everRead then
      t.modSensor x fun y => sensorConds t.thermal (zoneOfSensor x) y y.read.toInt
    else t) t
  (forEach (allFin 4) (fun z t => t.zoneAfter z (s.zoneHot z)) t).sensorNews s

/-- The ME has written w0 of its settings table (R385): a SEQ other than the one in force makes the unit take the table, at once
for the conditions of the readings it holds and the zone stages, or refuse it with record 0x203. -/
def State.thermalTake (s : State) : State :=
  let ws := bytesWords (Mem.read (s.eng engME).data 0x7F00 128)
  let seq := BitVec.ofNat 8 (fld (nthW ws 0) 7 0)
  if seq = s.thermal.seq then s
  else if thermalOk ws then
    (s.dataFix engME 0x7F00 128).thermalApply ws seq
  else ((s.dataFix engME 0x7F00 128).modThermal fun t => { t with refused := true }).note 0x203 1 suThermal [seq.zeroExtend 32]

end Sys2Proof.Machine
end

