-- ==== Sys2Proof/Machine/NvOps.lean ====
section
/-! DEFINITION. The almanac buffer and log, the counter record, flushes, clears, page writes, passwords and what boot does with the
NV store (R422–R446). -/
namespace Sys2Proof.Machine

/-! ### Reads of NV (R435, R439) -/

/-- A read of NV bytes: a correctable group is rewritten, sets CE and is counted; an uncorrectable group reads as ones, sets UE, is counted
and recorded. A page that is being written answers with its new contents (R435). -/
def State.nvRead (s : State) (a n : Nat) : List Byte × State :=
  let cs := s.nv.softView.filter fun g => a / 8 ≤ g && 8 * g < a + n
  let s := forEach cs (fun g t =>
    (t.modNv fun n => { n with ce := true, ceN := satAdd n.ceN 1, soft := n.soft.filter fun x => x != g }).occur (srcAlm 8)) s
  let bad := s.nv.badView
  let gs := bad.filter fun g => a / 8 ≤ g && 8 * g < a + n
  let v := s.nv.view
  let bs := (List.range n).map fun i => if bad.contains ((a + i) / 8) then 0xFF else Mem.get v (a + i)
  (bs, forEach gs (fun g t =>
    ((t.modNv fun n => { n with ue := true, ueN := satAdd n.ueN 1 }).note 0x005 1 suAlmanac [wn (8 * g)]).occur (srcAlm 9)) s)

/-- What a read of a protected item does besides giving its data: both copies are read whole to be judged (R435, R439), and an invalid one
raises source 13 (R448). -/
def State.itemCheck (s : State) (t : NvItem) : State :=
  let size := t.trailer + 16
  let s := (((s.nvRead t.a size).2).nvRead t.b size).2
  if (s.nv.copyGen t t.a).isNone || (s.nv.copyGen t t.b).isNone then s.occur (srcAlm 13) else s

/-! ### Passwords (R437, R438) -/

/-- The eight bytes of a password (R441 item 5). -/
def Nv.password (n : Nv) (r : Fin 4) (write : Bool) : List Byte :=
  ((n.itemRead itemPasswords).drop (16 * r.val + if write then 8 else 0)).take 8

def allZero (bs : List Byte) : Bool := bs.all (· == 0)

/-- Whether a region is open for writing: its password is 0, or it has been given (R437, R438). -/
def Nv.writeOpen (n : Nv) (r : Fin 4) : Bool := n.openW.getLsbD r.val || allZero (n.password r true)

/-- Whether a region is open for reading: also when it is open for writing (R437). -/
def Nv.readOpen (n : Nv) (r : Fin 4) : Bool := n.openR.getLsbD r.val || allZero (n.password r false) || n.writeOpen r

/-- The enforce flag, in effect only with a key hash provisioned (R88, R441 item 4). -/
def Nv.keyHash (n : Nv) : List Byte := (n.itemRead itemSecurity).take 32
def Nv.enforce (n : Nv) : Bool := !allZero n.keyHash && ((n.itemRead itemSecurity).getD 32 0).getLsbD 0

/-! ### The counter record (R442, R443) -/

/-- The 24 words of the counter record, with the flush sequence number begun: after a hand-over those that reached the analog die, with
the counts that it keeps itself (R16, R444, R445). -/
def State.counterWords (s : State) : List W :=
  let n := s.nv
  let t := s.transit
  if !n.handWords.isEmpty then n.handWords.take 17 ++ n.life.toList ++ [n.flushBegun]
  else
  [wn n.optime, pccWord n.pcc n.optime] ++ (allFin 4).map (fun p => (t.ports.get p).tcount) ++
    (allFin 4).flatMap (fun p => [wn (t.ports.get p).lastTicks, pccWord (t.ports.get p).lastPcc (t.ports.get p).lastTicks]) ++
    [t.trimcount, wn t.trimTicks, pccWord t.trimPcc t.trimTicks] ++ n.life.toList ++ [n.flushBegun]

/-- A tick count and a power-cycle count from their two words. -/
def ticksOf (lo hi : W) : Nat := lo.toNat + 2 ^ 32 * fld hi 7 0
def pccOf (hi : W) : BitVec 24 := BitVec.ofNat 24 (fld hi 31 8)

/-- Takes the counters up from a counter record, the power-cycle count one higher, saturating (R231, R443). -/
def State.takeCounters (s : State) (ws : List W) : State :=
  let pcc := pccOf (nthW ws 1)
  let s := s.modNv fun n =>
    { n with optime := ticksOf (nthW ws 0) (nthW ws 1), pcc := if pcc = 0xFFFFFF then pcc else pcc + 1,
             life := updAll n.life fun i _ => nthW ws (17 + i.val), flushBegun := nthW ws 23,
             savedTicks := ticksOf (nthW ws 0) (nthW ws 1) }
  s.modTransit fun t =>
    { t with
      trimcount := nthW ws 14, trimTicks := ticksOf (nthW ws 15) (nthW ws 16), trimPcc := pccOf (nthW ws 16)
      ports := updAll t.ports fun p x =>
        { x with tcount := nthW ws (2 + p.val), lastTicks := ticksOf (nthW ws (6 + 2 * p.val)) (nthW ws (7 + 2 * p.val)),
                 lastPcc := pccOf (nthW ws (7 + 2 * p.val)) } }

/-- Saves the counter record (R442). -/
def State.saveCounters (s : State) (src : NvSrc) : State :=
  let ws := s.counterWords
  s.modNv fun n => n.itemWrite itemCounters 0 (wordsBytes ws) src

/-! ### The log (R427, R428, R431) -/

/-- The logical end (R447 ALM_END). -/
def Nv.almEnd (n : Nv) : Nat := n.dirtyStart + n.dirty.length

/-- The log byte at a logical offset: in NV, in the dirty part, or 0 at or beyond the end (R431). -/
def Nv.logByte (n : Nv) (x : Nat) : Byte :=
  if x < n.dirtyStart then Mem.get n.view x else n.dirty.getD (x - n.dirtyStart) 0

/-- Whether two records are identical for R427: w0, flag 16 and payload. -/
def sameRec (a b : Rec) : Bool := a.w0 == b.w0 && bitOf a.w1 16 == bitOf b.w1 16 && a.payload == b.payload

/-- One more repeat, saturating at 65,535 (R422). -/
def Rec.repeat1 (r : Rec) : Rec :=
  { r with w1 := if fld r.w1 15 0 = 0xFFFF then r.w1 else r.w1 + 1 }

/-- The device-state item (R441 item 3). -/
def State.stateWords (s : State) (logEnd : Nat) (seqNo : W) : List W :=
  [wn logEnd, s.nv.lost, s.nv.clears, seqNo, wn (b2n s.fm.clearPend)]

/-- LOG_END and the flush sequence number completed, as item 3 holds them once the writes in the queue are done. -/
def Nv.stateEnd (n : Nv) : Nat × W :=
  match n.writes.reverse.findSome? (fun w => match w.src with
      | .flushState q e => some (e, q)
      | _ => none) with
  | some r => r
  | none => (n.logEnd, n.flushDone)

/-- Where the log bytes begin that a flush has still to write: after those already in its page writes, or at the last record if that has been
repeated since (R427). -/
def Nv.flushFrom (n : Nv) : Nat :=
  match n.last with
  | some (off, r) => if off < n.flushTo ∧ n.dirtyStart ≤ off ∧ Mem.read n.view off (recSize r) ≠ recBytes r then off else n.flushTo
  | none => n.flushTo

/-- The dirty part from there on goes into page writes (R430 part 2). -/
def State.flushPages (s : State) : State :=
  s.modNv fun n =>
    let a := n.flushFrom
    let bs := n.dirty.drop (a - n.dirtyStart)
    { n with writes := n.writes ++ pageWrites (.flushLog n.almEnd) (bs.length / 256 + 2) a bs, flushTo := n.almEnd, again := false }

/-- The next part of a flush, once none of its writes waits: the records that a trigger has brought meanwhile (R429), or the device state with
the lost-record count as it now stands (R430 part 3). -/
def State.flushNext (s : State) : State :=
  if !s.nv.flushing || s.nv.writes.any NvWrite.isFlush then s
  else
    let s := if s.nv.again then s.flushPages else s
    if s.nv.writes.any NvWrite.isFlush then s
    else s.modNv fun n =>
      n.itemWrite itemState 0 (wordsBytes (s.stateWords n.flushTo n.flushBegun)) (.flushState n.flushBegun n.flushTo)

/-- A flush starts, or one in progress is extended to the new records (R429, R430): the counter record, the dirty part, the device state.
After an incomplete hand-over the counter record is saved only if its words arrived (R444). -/
def State.flush (s : State) : State :=
  if s.nv.flushing then s.modNv fun n => { n with again := true }
  else
    let s := (s.modNv fun n =>
      { n with flushing := true, flushBegun := n.flushBegun + 1, flushTo := n.dirtyStart }).occur (srcAlm 2)
    let s := if !s.nv.incomplete || s.nv.handed then s.saveCounters .flushCounter else s
    s.flushPages.flushNext

/-- The flush of a hand-over (R429, R443–R445). One in progress is extended, and the counters that the hand-over brought are saved with it. -/
def State.handFlush (s : State) : State :=
  if s.nv.flushing then
    let s := if !s.nv.incomplete || s.nv.handed then s.saveCounters .flushCounter else s
    (s.modNv fun n => { n with again := true }).flushNext
  else s.flush

/-- A record that is not entered (R428): counted, source 4 for the first. -/
def State.recLost (s : State) (full : Bool) : State :=
  let first := s.nv.lost == 0
  let s := s.modNv fun n => { n with lost := satAdd n.lost 1, lostMark := n.lostMark || full }
  if first then s.occur (srcAlm 4) else s

/-- A record reaches the buffer (R427, R428): compared with the last record, entered within the limits, or lost. The limit is 59 KiB for a
record that this device's analog die notes, and 56 KiB for the others. -/
def State.recPlace (s : State) (r : Rec) : State :=
  let n := s.nv
  let again := match n.last with
    | some l => sameRec l.2 r
    | none => false
  let s :=
    match n.last with
    | some (off, l) =>
      if again then
        let l := l.repeat1
        let b := recBytes l
        (s.modNv fun n =>
          { n with last := some (off, l),
                   dirty := if off < n.dirtyStart then b else n.dirty.take (off - n.dirtyStart) ++ b,
                   dirtyStart := min off n.dirtyStart }).occur (srcAlm 1)
      else s
    | none => s
  if again then s
  else
    let lim := if bitOf r.w1 17 && !bitOf r.w1 16 then 59 * 1024 else 56 * 1024
    if n.lostMark ∨ 262144 < n.almEnd + recSize r then s.recLost true
    else if lim < n.dirty.length + recSize r then s.recLost false
    else
      let s := (s.modNv fun n =>
        { n with last := some (n.almEnd, r), dirty := n.dirty ++ recBytes r }).occur (srcAlm 0)
      let code := fld r.w0 11 0
      if 0x100 ≤ code ∧ code ≤ 0x106 then s.occur (srcAlm 6) else s

/-- Whether a record that has just been added starts a flush (R429): its severity is 3 to 5, or the dirty part has reached 8 KiB. -/
def State.recFlushes (s t : State) (r : Rec) : Bool :=
  s.nv.almEnd != t.nv.almEnd && (decide (3 ≤ fld r.w0 15 12) || decide (8192 ≤ t.nv.dirty.length))

/-- A record reaches the buffer, with the flush that it may start. -/
def State.recEnter (s : State) (r : Rec) : State :=
  let t := s.recPlace r
  if s.recFlushes t r then t.flush else t

/-- A record that the analog die notes itself, with flag 17 (R422, R444). `enter` is how it reaches the buffer. -/
def State.noteAnalog (s : State) (code sev src : Nat) (payload : List W) (enter : State → Rec → State := State.recEnter) : State :=
  let r := s.mkRec code sev src 2 payload
  (enter s r).sendRecord r

/-- The log is cleared (R433), once no flush is in progress. -/
def State.almClear (s : State) : State :=
  if s.nv.flushing then s.modNv fun n => { n with clearWait := true }
  else
    let lost := s.nv.lost
    let s := s.modNv fun n =>
      { n with dirty := [], dirtyStart := 0, logEnd := 0, lost := 0, lostMark := false, cursor := 0, last := none,
               clears := n.clears + 1, clearWait := false }
    let s := s.modNv fun n => n.itemWrite itemState 0 (wordsBytes (s.stateWords 0 n.flushDone)) .clearState
    ((s.occur (srcAlm 5)).noteAnalog 0x001 0 suAlmanac [s.nv.clears, lost]).flush

/-! ### Page writes (R435) -/

/-- What the completion of a page write means to its source: a flush goes on to its next part; the write of its device state moves LOG_END and
takes the flushed bytes out of the dirty part, but for a last record that has been repeated since (R427, R430). The flush is then complete,
unless a trigger has extended it (R429). -/
def State.pageDone (s : State) (src : NvSrc) : State :=
  match src with
  | .flushCounter => s.flushNext
  | .flushLog _ => s.flushNext
  | .flushState seqNo fin =>
    let s := s.modNv fun n =>
      let from' := match n.last with
        | some (off, r) => if off < fin ∧ Mem.read n.mem off (recSize r) ≠ recBytes r then off else fin
        | none => fin
      { n with flushDone := seqNo, logEnd := fin, dirty := n.dirty.drop (from' - n.dirtyStart), dirtyStart := max n.dirtyStart from' }
    if s.nv.again then s.flushNext
    else
      let s := (s.modNv fun n => { n with flushing := false }).occur (srcAlm 3)
      if s.nv.clearWait then s.almClear else s
  | .hostMirrored => s.occur (srcLink 23)
  | _ => s

/-- The write at the front completes: its bytes are in place, whole groups written are readable again (R435), source 7. -/
def State.pageWriteDone (s : State) : State :=
  match s.nv.writes with
  | [] => s
  | w :: r =>
    ((s.modNv fun n =>
      { n with mem := applyNvWrite n.mem w, bad := n.bad.filter fun g => !w.whole g, soft := n.soft.filter fun g => !w.touches g,
               writes := r }).occur
      (srcAlm 7)).pageDone w.src

/-- Of the page write in progress the first `k` groups are in place when VDDA falls, whole (R446); the others hold their old contents. -/
def Nv.interrupt (n : Nv) (k : Nat) : Nv :=
  match n.writes with
  | [] => n
  | w :: _ =>
    let gs := w.groups.take k
    { n with mem := gs.foldl w.putGroup n.mem, bad := n.bad.filter fun g => !(gs.contains g && w.whole g),
             soft := n.soft.filter fun g => !gs.contains g }

/-! ### Boot (R240, R307, R439, R441, R443) -/

/-- Reads an item at boot; record 0x004 where both copies are invalid. -/
def State.bootItem (s : State) (t : NvItem) : State :=
  let s := s.itemCheck t
  if (s.nv.newest t).isNone then s.note 0x004 3 suAlmanac [t.no.zeroExtend 32] else s

/-- The trims set at manufacture, from the identity item (R355, R441, R456; log entry 15): those of the logic die at every boot, those of the
Sextant, which a device reset leaves on the analog die (R463), at power-up. -/
def State.bootTrims (s : State) : State :=
  let d := s.nv.itemRead itemIdentity
  let own (i : Nat) : Bool := decide (i < 13) || (s.boot.cold && decide (14 ≤ i))
  s.modTransit fun t => { t with trims := (t.trims.zipIdx.map fun x => if own x.2 then Config.identityTrim d x.2 else x.1) }

/-- What boot reads from the NV device region and writes to it, before the store is initialised. The map that host software has cleared is
cleared in NV only when the boot follows a power-up (R253, R307). -/
def State.bootNv (s : State) : State :=
  let cw := bytesWords (s.nv.itemRead itemCounters)
  let sw := bytesWords (s.nv.itemRead itemState)
  let s := (s.modNv fun n => { n with handWords := [] }).takeCounters cw
  let s := s.modNv fun n =>
    if n.flushing || !n.dirty.isEmpty then n
    else { n with logEnd := fld (nthW sw 0) 18 0, dirtyStart := fld (nthW sw 0) 18 0, lost := nthW sw 1,
                  clears := nthW sw 2, flushDone := nthW sw 3 }
  let pend := bitOf (nthW sw 4) 0
  let clear := pend && s.boot.cold
  let s := forEach [itemIdentity, itemCounters, itemState, itemSecurity, itemPasswords, itemMap] (fun t s => s.bootItem t) s
  let s := s.bootTrims
  let s := if s.boot.cold then s.modNv fun n => { n with enforceOn := n.enforce } else s
  let s := s.saveCounters .item
  let s := if nthW cw 23 ≠ nthW sw 3 && !s.nv.flushing then
      ((s.modNv fun n => { n with interrupted := true }).note 0x003 1 suAlmanac [wn s.nv.logEnd]).occur (srcAlm 14)
    else s
  let s := if clear then
      let s := s.modFm fun m => { m with map := RMap.empty, clearPend := false }
      let s := s.modNv fun n => n.itemWrite itemMap 0 (rmapBytes RMap.empty) .item
      s.modNv fun n => n.itemWrite itemState 0 (wordsBytes (s.stateWords n.stateEnd.1 n.stateEnd.2)) .item
    else s.modFm fun m => { m with map := parseMap (s.nv.itemRead itemMap), clearPend := pend }
  let s := s.modBoot fun b => { b with cold := false }
  if s.nv.incomplete then (s.modNv fun n => { n with incomplete := false }).occur (srcAlm 15) else s

end Sys2Proof.Machine
end

