-- ==== Sys2Proof/Machine/Image.lean ====
section
/-! DEFINITION. Program images: the checks of R85 to R90 and what loading the sections does (R84, R89, R92, R95). -/
namespace Sys2Proof.Machine

/-- A section descriptor that has passed R86 and R87. -/
structure ImgSec where
  target : Fin 8
  data : Bool
  slot : Fin 16
  off : Nat
  len : Nat
  load : Nat
  entry : W
  crc : W
  windows : List (Nat × Nat)
deriving DecidableEq, Repr

/-- Stepping code of this part (R487). -/
def steppingCode : Nat := 0x11

/-- The size of a section's target memory (R41, R87). -/
def targetSize (t : Nat) (data : Bool) : Nat :=
  if t = 7 then 4096
  else if t = 0 then 131072
  else if data then 32768
  else if t = 5 then 32768
  else 16384

/-- Reads one descriptor; none for any condition of code 0x14 (R86, R87, R239). `fin` is the end of the sections' part. -/
def State.imgSection (s : State) (fin : Nat) (d : List W) : Option ImgSec :=
  let w0 := nthW d 0
  let t := fld w0 3 0
  let mem := fld w0 5 4
  let off := (nthW d 1).toNat
  let len := (nthW d 2).toNat
  let load := (nthW d 3).toNat
  let wins := (List.range 4).map fun i => ((nthW d (6 + 2 * i)).toNat, (nthW d (7 + 2 * i)).toNat)
  let used := wins.filter fun w => decide (w.2 ≠ 0)
  if h : t < 8 then
    if t = 6 ∨ 2 ≤ mem ∨ fld w0 7 6 ≠ 0 ∨ fld w0 31 12 ≠ 0 ∨ nthW d 14 ≠ 0 ∨ (fld w0 11 8 ≠ 0 ∧ t ≠ 7) then none
    else if off % 4 ≠ 0 ∨ len % 4 ≠ 0 ∨ load % 4 ≠ 0 ∨ len = 0 ∨ (mem = 1 ∧ nthW d 4 ≠ 0) then none
    else if fin < off + len ∨ targetSize t (mem == 1) < load + len then none
    else if wins.any (fun w => decide (w.1 % 65536 ≠ 0 ∨ w.2 % 65536 ≠ 0)) ∨ used.any (fun w => s.unbacked w.1 w.2) then none
    else
      some { target := ⟨t, h⟩, data := mem == 1, slot := ⟨fld w0 11 8 % 16, by omega⟩, off := off, len := len, load := load,
             entry := nthW d 4, crc := nthW d 5, windows := used }
  else none

/-- Whether two sections overlap in one target memory (R87). -/
def secOverlap (a b : ImgSec) : Bool :=
  a.target == b.target && (if a.target.val = 7 then a.slot == b.slot else a.data == b.data) &&
    decide (a.load < b.load + b.len) && decide (b.load < a.load + a.len)

/-- Whether any two sections of a list overlap. -/
def anyOverlap : List ImgSec → Bool
  | [] => false
  | a :: r => r.any (secOverlap a) || anyOverlap r

/-- The code of R88 for an image that is otherwise sound. -/
def State.imgSignature (s : State) (img : List Byte) (len : Nat) (signed : Bool) : Byte :=
  let hash := s.nv.keyHash
  if allZero hash then (if signed then 2 else 1)
  else if !signed then (if s.nv.enforce then 0x16 else 1)
  else
    let key := (img.drop (len - 128)).take 64
    let sig := (img.drop (len - 64)).take 64
    if bigNum hash ≠ sha256 key then 0x18
    else if ecdsaOk (sha256 (img.take (len - 64))) (bigNum (key.take 32)) (bigNum (key.drop 32))
        (bigNum (sig.take 32)) (bigNum (sig.drop 32)) then 3
    else 0x17

/-- The checks of R85 to R89 in the order of their codes: the code, the sections, the image version. -/
def State.imgCheck (s : State) (img : List Byte) : Byte × List ImgSec × W :=
  let h := bytesWords (img.take 64)
  let n := fld (nthW h 1) 15 8
  let signed := bitOf (nthW h 1) 16
  let len := (nthW h 2).toNat
  let ver := nthW h 3
  if img.length < 64 ∨ crc32c (img.take 60) ≠ nthW h 15 then (0x10, [], ver)
  else if nthW h 0 ≠ (0x4D49585A : W) ∨ fld (nthW h 1) 7 0 ≠ 1 ∨ n < 1 ∨ 16 < n ∨ fld (nthW h 1) 31 17 ≠ 0 ∨
      fld (nthW h 4) 31 24 ≠ 0 ∨ nthW h 5 ≠ 64 ∨ ((h.drop 6).take 9).any (fun w => w != 0) ∨ len % 4 ≠ 0 ∨ 2 ^ 24 < len ∨
      img.length < len ∨ len < 64 + 64 * n + (if signed then 128 else 0) then (0x11, [], ver)
  else if fld (nthW h 4) 15 0 ≠ 0x9640 ∨ steppingCode < fld (nthW h 4) 23 16 then (0x12, [], ver)
  else
    let fin := len - if signed then 128 else 0
    let raws := (List.range n).map fun i => (img.drop (64 + 64 * i)).take 64
    if raws.any (fun r => crc32c (r.take 60) != nthW (bytesWords r) 15) then (0x13, [], ver)
    else
      let secs := raws.filterMap fun r => s.imgSection fin (bytesWords r)
      if secs.length ≠ n ∨ anyOverlap secs then (0x14, [], ver)
      else if secs.any (fun x => crc32c ((img.drop x.off).take x.len) != x.crc) then (0x15, [], ver)
      else
        let code := s.imgSignature img len signed
        if 0x16 ≤ code.toNat then (code, [], ver)
        else if secs.any (fun x =>
            if hx : x.target.val < 6 then
              let st := (s.eng ⟨x.target.val, hx⟩).st
              st == 1 || st == 2 || st == 5
            else false) then (0x19, [], ver)
        else (code, secs, ver)

/-! ### Loading (R84, R89, R92, R95) -/

/-- Base addresses of the kernel slots, the ME section copy and the image buffer (R238). -/
def kslotBase : Nat := 0x98000000
def meCopyBase : Nat := 0x98060000
def imgBufBase : Nat := 0x9F000000

/-- One section reaches its target: a program section makes an engine loaded, and any section loaded into an engine stopped by exception leaves
it stopped by the host (R81). Of several program sections of one engine the last one's windows and entries stand (DESIGN CHOICE: log entry
191). -/
def State.imgLoad (s : State) (img : List Byte) (x : ImgSec) : State :=
  let bs := (img.drop x.off).take x.len
  if h : x.target.val < 6 then
    let e : Eng := ⟨x.target.val, h⟩
    let s := s.modEng e fun en =>
      if x.data then
        { en with data := Mem.write en.data x.load bs, dataBad := freshWords en.dataBad x.load x.len,
                  dataSoft := freshWords en.dataSoft x.load x.len, crcData := x.crc, st := if en.st = 4 then 3 else en.st }
      else
        { en with prog := Mem.write en.prog x.load bs, progBad := freshWords en.progBad x.load x.len,
                  progSoft := freshWords en.progSoft x.load x.len, crcProg := x.crc, loaded := true,
                  entry0 := x.entry.extractLsb' 0 16, entryN := x.entry.extractLsb' 16 16, windows := x.windows,
                  st := if en.st = 0 ∨ en.st = 4 then 3 else en.st }
    if e.val = 5 then s.storeWrite (meCopyBase + (if x.data then 0x8000 else 0) + x.load) bs else s
  else
    let s := s.storeWrite (kslotBase + 4096 * x.slot.val + x.load) bs
    s.modQueue fun q =>
      { q with kslots := upd q.kslots x.slot fun k =>
          if x.data then { k with crc := x.crc }
          else { entry := x.entry.extractLsb' 0 16, windows := x.windows, crc := x.crc } }

/-- The CRC words of the ME section copy (R84). -/
def State.meCopyCrc (s : State) : State :=
  let c (k : Nat) := crc32c (s.storeBytes (meCopyBase + 0x8000 * k) 0x8000)
  s.storeWrite (meCopyBase + 0x10000) (wordsBytes [c 0, c 1])

/-- All sections of a checked image reach their targets (R89). -/
def State.imgInstall (s : State) (img : List Byte) (secs : List ImgSec) (ver : W) : State :=
  let s := forEach secs (fun x t => t.imgLoad img x) s
  let s := if secs.any fun x => x.target.val == 5 then s.meCopyCrc else s
  s.modQueue fun q => { q with version := ver.extractLsb' 0 16 }

/-- The loaded-image digest (R318): each engine memory, then each kernel slot. -/
def State.imageDigest (s : State) : W :=
  crcWords ((allFin 6).flatMap (fun e => [(s.eng e).crcProg, (s.eng e).crcData]) ++ s.queue.kslots.toList.map (·.crc))

end Sys2Proof.Machine
end

