-- ==== Sys2Proof/Machine/HostBase.lean ====
section
/-! DEFINITION. Admission and rejection of host frames (R400, R402, R405), used by every command of the host. -/
namespace Sys2Proof.Machine

/-- Whether the host port responds (R405, R487): RESET_N is released, the logic die and the port's bank have power, and nothing holds it in
reset; a boot that PFAIL_N or a rail holds back does not. -/
def State.hostUp (s : State) : Bool :=
  !s.thermal.held && s.boot.step != 0 && (s.boot.step != 5 || (s.thermal.rails.getLsbD 0 && s.thermal.vio))

/-- READY of the status byte (R400). -/
def State.hostReady (s : State) : Bool := s.boot.ready && s.thermal.pfStep == 0

/-- A frame is rejected (R402, R420): its cause, the count, source 1; REJ shows it in the next status byte. -/
def State.hostReject (s : State) (cause : Byte) : State :=
  (s.modSerial fun x => { x with rej := true, lastRej := cause, rejs := satAdd x.rejs 1 }).occur (srcSerial 1)

/-- A frame is admitted: REJ reads 0 in the next status byte (R400). -/
def State.hostAdmit (s : State) : State := s.modSerial fun x => { x with rej := false }

/-- A read frame that has given all its words, or was cut off, is judged (R402); its own words still show the frame before it (R400, R486). -/
def State.readClose (s : State) : State :=
  match s.serial.readEnd with
  | none => s
  | some c =>
    let s := s.modSerial fun x => { x with readEnd := none }
    match c with
    | some c => s.hostReject c
    | none => s.hostAdmit

/-- A cause that a read frame in progress gets besides the one it has (R402). -/
def State.readFail (s : State) (c : Byte) : State :=
  s.modSerial fun x => { x with readEnd := x.readEnd.map fun r => some (r.getD c) }

/-- The status byte (R400), at the moment of a frame's start. -/
def State.statusByte (s : State) : Byte :=
  let bit (b : Bool) (k : Nat) : Nat := b2n b * 2 ^ k
  BitVec.ofNat 8 (bit s.hostReady 7 + bit (s.queue.entries.length == 64) 6 + bit (s.hirq false || s.hirq true) 5 + bit s.serial.rej 4 +
    bit (s.twin.prime || !s.twinEn) 3 + bit (decide (2 ≤ s.deviceStage)) 2 + bit s.fm.fault 1 + bit s.boot.boot 0)

/-- A frame starts (R399, R400): the status byte is driven out; words of an earlier frame that HRDY still held back were cut off (R404). -/
def State.hostBegin (s : State) : State :=
  let s := s.readClose
  let b := s.statusByte
  s.modSerial fun x => { x with statusOut := b, wordsOut := [], xipWait := [], frameWait := none }

end Sys2Proof.Machine
end

