-- ==== Sys2Proof/Machine/Flags.lean ====
section
/-! DEFINITION. The flags and conditions of the Zhomunyx engines (R50–R52). -/
namespace Sys2Proof.Machine

/-- Z and N of a result (R50). -/
def Ctx.flagsZN (c : Ctx) (r : W) : Ctx := { c with z := r == 0, n := r.getLsbD 31 }

/-- The flags of `a + b`: C the carry out of bit 31, V signed overflow (R50). -/
def Ctx.flagsAdd (c : Ctx) (a b : W) : Ctx :=
  { c.flagsZN (a + b) with
    c := decide (2 ^ 32 ≤ a.toNat + b.toNat)
    v := a.getLsbD 31 == b.getLsbD 31 && (a + b).getLsbD 31 != a.getLsbD 31 }

/-- The flags of `a - b`: C set for no borrow, V signed overflow (R50). -/
def Ctx.flagsSub (c : Ctx) (a b : W) : Ctx :=
  { c.flagsZN (a - b) with
    c := decide (b.toNat ≤ a.toNat)
    v := a.getLsbD 31 != b.getLsbD 31 && (a - b).getLsbD 31 != a.getLsbD 31 }

/-- The three shifts (R52). -/
inductive Shift where
  | shl
  | shr
  | sra
deriving DecidableEq, Repr

/-- A shift by 0 to 63: amounts of 32 and more give 0, or copies of bit 31 (R52). -/
def shiftBy (k : Shift) (a : W) (n : Nat) : W :=
  match k with
  | .shl => a <<< n
  | .shr => a >>> n
  | .sra => a.sshiftRight n

/-- The last bit a shift by `n > 0` moves out (R52). -/
def shiftOut (k : Shift) (a : W) (n : Nat) : Bool :=
  match k with
  | .shl => decide (n ≤ 32) && a.getLsbD (32 - n)
  | .shr => a.getLsbD (n - 1)
  | .sra => if n ≤ 32 then a.getLsbD (n - 1) else a.getLsbD 31

/-- The flags of a shift: Z and N of the result, C the last bit moved out, unchanged for amount 0 (R52). -/
def Ctx.flagsShift (c : Ctx) (k : Shift) (a : W) (n : Nat) : Ctx :=
  { c.flagsZN (shiftBy k a n) with c := if n = 0 then c.c else shiftOut k a n }

/-- A condition code other than 15 (R51). -/
def Ctx.cond (c : Ctx) (code : BitVec 4) : Bool :=
  match code.toNat with
  | 0 => c.z
  | 1 => !c.z
  | 2 => c.c
  | 3 => !c.c
  | 4 => c.n
  | 5 => !c.n
  | 6 => c.v
  | 7 => !c.v
  | 8 => c.c && !c.z
  | 9 => !c.c || c.z
  | 10 => c.n == c.v
  | 11 => c.n != c.v
  | 12 => !c.z && c.n == c.v
  | 13 => c.z || c.n != c.v
  | _ => true

end Sys2Proof.Machine
end

