-- ==== Sys2Proof/Machine/Operands.lean ====
section
/-! DEFINITION. What every Zhomunyx instruction uses: the executing context, registers, program order with the hardware loops,
context switching, immediates, memory accesses with their exceptions and stalls (R42–R46, R54, R60, R69). -/
namespace Sys2Proof.Machine

/-- The outcome type of a meaning. -/
abbrev Out := Host.Outcome State Fault Refusal

/-! ### Registers (R44) -/

/-- A scalar register: g0 reads as zero. -/
def Ctx.get (c : Ctx) (r : Reg) : W := if r = 0 then 0 else c.g.get r

/-- A write of a scalar register: a write of g0 is discarded. -/
def Ctx.put (c : Ctx) (r : Reg) (w : W) : Ctx := if r = 0 then c else { c with g := c.g.set r w }

/-- Sign extension of an 18-bit immediate (R47). -/
def sx18 (i : BitVec 18) : W := i.signExtend 32

/-! ### The executing context -/

/-- The context that an agent executes: the engine's running context, or the lane's own. -/
def State.ctxOf (s : State) (ag : Agent) : Ctx :=
  match ag with
  | .eng e => (s.eng e).ctxs.get (s.eng e).run
  | .lane l => (s.lane l).ctx

/-- Replaces it. -/
def State.putCtx (s : State) (ag : Agent) (c : Ctx) : State :=
  match ag with
  | .eng e => s.modEng e fun en => { en with ctxs := en.ctxs.set en.run c }
  | .lane l => s.modLane l fun x => { x with ctx := c }

/-- Whether an agent is at work: an engine in state 1, or in state 2 before its stop takes effect (R78, R81, R83); a lane in an
invocation whose cluster's clock runs (R75, R140, R455). -/
def State.live (s : State) (ag : Agent) : Bool :=
  !s.thermal.held &&
  match ag with
  | .eng e =>
    let en := s.eng e
    en.st == 1 || (en.st == 2 && !en.stopDue)
  | .lane l =>
    let k := s.cluster (clusterOf l)
    (s.lane l).invoc.isSome && !k.stopped && k.mhz != 0

/-- Whether the agent executes now: it is at work and its context is not blocked (R46). -/
def State.runs (s : State) (ag : Agent) : Bool := s.live ag && (s.ctxOf ag).block == .ready

/-- Whether the program counter lies outside program or kernel memory (R41, R59). -/
def fetchOut (ag : Agent) (pc : W) : Bool :=
  match ag with
  | .eng e => decide (progSize e < pc.toNat + 4)
  | .lane _ => decide (4096 < pc.toNat + 4)

/-- Whether the fetched word is uncorrectable, or single-bit wrong (R43). -/
def State.fetchErr (s : State) (ag : Agent) (pc : W) : Bool × Bool :=
  let w := pc.toNat / 4
  match ag with
  | .eng e => ((s.eng e).progBad.contains w, (s.eng e).progSoft.contains w)
  | .lane l =>
    let k := s.cluster (clusterOf l)
    let i := 1024 * (l.val % 8) + w
    (k.kernelBad.contains i, k.kernelSoft.contains i)

/-- The correction of a fetched word: in place, with source 1 of the engine or lane (R43). -/
def State.fetchFix (s : State) (ag : Agent) (pc : W) : State :=
  let w := pc.toNat / 4
  match ag with
  | .eng e => (s.modEng e fun en => { en with progSoft := en.progSoft.filter (· != w) }).occur (srcEng e 1)
  | .lane l =>
    (s.modCluster (clusterOf l) fun k =>
      { k with kernelSoft := k.kernelSoft.filter (· != 1024 * (l.val % 8) + w) }).occur (srcLane l 1)

/-- One instruction of an agent: it executes only while the agent runs (else the command finds nothing to execute, log entry 1);
fetching, reserved fields, the group's availability and an unknown service come first (R42, R43, R48, R70, R78; log entry 140); `body` is
given the context. -/
def State.zx (s : State) (z : Zx) (avail : Bool) (body : Ctx → State → State) : Out :=
  if !s.runs z.agent then .next s
  else
    let c := s.ctxOf z.agent
    if fetchOut z.agent c.pc then .next (s.raise z.agent 6 0)
    else
      let e := s.fetchErr z.agent c.pc
      if e.1 then .next (s.raise z.agent 5 0)
      else
        let s := if e.2 then s.fetchFix z.agent c.pc else s
        if z.flaw = .reserved ∨ !avail then .next (s.raise z.agent 1 0)
        else if z.flaw = .service then .next (s.raise z.agent 7 0)
        else .next (body (s.ctxOf z.agent) s)

/-- Availability of an instruction group (R42). -/
def isEng : Agent → Bool
  | .eng _ => true
  | .lane _ => false
def isLane (ag : Agent) : Bool := !isEng ag
def isControl : Agent → Bool
  | .eng e => e.val != 5
  | .lane _ => false

/-! ### Program order (R60) -/

/-- The instruction at `pc` completes in sequence: where execution goes and the loop levels that stay open. A level whose body
ends there counts; a level that closes counts as the completion of the enclosing body's last instruction. -/
def loopEnd : List LoopLv → W → W × List LoopLv
  | [], pc => (pc + 4, [])
  | l :: r, pc =>
    if pc = l.last then
      (if l.count - 1 = 0 then loopEnd r pc else (l.first, { l with count := l.count - 1 } :: r))
    else (pc + 4, l :: r)

/-- The context after the instruction at its program counter completes in sequence. -/
def Ctx.advance (c : Ctx) : Ctx :=
  let p := loopEnd c.loops c.pc
  { c with pc := p.1, loops := p.2 }

/-- An instruction that only changes the context completes. -/
def State.done (s : State) (ag : Agent) (c : Ctx) : State := s.putCtx ag c.advance

/-! ### Context switching (R46) -/

/-- The next ready context after `run`, in the order 0, 1, 2, 3, 0 …; `run` itself last. -/
def nextReady (e : Eng) (en : Engine) : Option (Fin 4) :=
  let order : List (Fin 4) := [en.run + 1, en.run + 2, en.run + 3, en.run]
  order.find? fun c => c.val < nCtx e && (en.ctxs.get c).block == .ready

/-- The engine switches to the next ready context, if there is one; a traced engine sends a flow packet (R46, R480). -/
def State.switch (s : State) (e : Eng) : State :=
  let en := s.eng e
  match nextReady e en with
  | some c =>
    let s := s.modEng e fun en => { en with run := c }
    if c = en.run then s else s.traceFlow e c 3 (en.ctxs.get c).pc []
  | none => s

/-- A context of an engine has become ready: an engine whose running context is blocked takes it up (R46). -/
def State.wake (s : State) (e : Eng) : State :=
  let en := s.eng e
  if (en.ctxs.get en.run).block = .ready then s else s.switch e

/-- Blocks the executing context; an engine then switches (R46). -/
def State.blockOn (s : State) (ag : Agent) (c : Ctx) (b : Blocked) : State :=
  let s := s.putCtx ag { c with block := b }
  match ag with
  | .eng e => s.switch e
  | .lane _ => s

/-! ### Outstanding transfers (R69) -/

/-- Whether a transfer's local range meets the bytes `a` to `a + n - 1`. -/
def Xfer.meets (x : Xfer) (a n : Nat) : Bool := x.loc < a + n && a < x.loc + 64 * x.units

/-- The outstanding transfers of a lane, or of all contexts of an engine. -/
def State.xfers (s : State) (ag : Agent) : List Xfer :=
  match ag with
  | .eng e => (s.eng e).ctxs.toList.flatMap fun c => c.tags.toList.filterMap id
  | .lane l => (s.lane l).ctx.tags.toList.filterMap id

/-! ### Memory accesses (R43, R54) -/

/-- Where an address of an agent lies: engine data or lane local memory, or a cluster's tile memory by its offset. -/
inductive Place where
  | data (off : Nat)
  | tile (off : Nat)
deriving DecidableEq, Repr

/-- The place of `n` bytes at an address, none outside the agent's memories (R41, R54). -/
def placeAt (ag : Agent) (a n : Nat) : Option Place :=
  match ag with
  | .eng e => if a + n ≤ dataSize e then some (.data a) else none
  | .lane _ =>
    if a + n ≤ 0x2000 then some (.data a)
    else if 0x10000 ≤ a ∧ a + n ≤ 0x50000 then some (.tile (a - 0x10000))
    else none

/-- Whether an access stalls on an outstanding transfer (R69): a lane's transfers move tile memory, an engine's data memory. -/
def State.stalls (s : State) (ag : Agent) (pl : Place) (n : Nat) : Bool :=
  match ag, pl with
  | .eng _, .data o => (s.xfers ag).any fun x => x.meets o n
  | .lane _, .tile o => (s.xfers ag).any fun x => x.meets o n
  | _, _ => false

/-- The memory of a place, and the words of it that are uncorrectable or single-bit wrong. -/
def State.memOf (s : State) (ag : Agent) (pl : Place) : Mem × List Nat × List Nat :=
  match ag, pl with
  | .eng e, _ => ((s.eng e).data, (s.eng e).dataBad, (s.eng e).dataSoft)
  | .lane l, .data _ => ((s.lane l).loc, (s.lane l).locBad, (s.lane l).locSoft)
  | .lane l, .tile _ =>
    let k := s.cluster (clusterOf l)
    (k.tile, k.tileBad, k.tileSoft)

/-- Changes the memory of a place. -/
def State.modMemOf (s : State) (ag : Agent) (pl : Place) (f : Mem × List Nat × List Nat → Mem × List Nat × List Nat) : State :=
  match ag, pl with
  | .eng e, _ => s.modEng e fun en =>
    let r := f (en.data, en.dataBad, en.dataSoft)
    { en with data := r.1, dataBad := r.2.1, dataSoft := r.2.2 }
  | .lane l, .data _ => s.modLane l fun x =>
    let r := f (x.loc, x.locBad, x.locSoft)
    { x with loc := r.1, locBad := r.2.1, locSoft := r.2.2 }
  | .lane l, .tile _ => s.modCluster (clusterOf l) fun k =>
    let r := f (k.tile, k.tileBad, k.tileSoft)
    { k with tile := r.1, tileBad := r.2.1, tileSoft := r.2.2 }

def Place.off : Place → Nat
  | .data o => o
  | .tile o => o

def Place.isTile : Place → Bool
  | .data _ => false
  | .tile _ => true

/-- Source 1 of an engine or lane: a corrected memory error (R43, R71). -/
def srcSoft : Agent → Nat
  | .eng e => srcEng e 1
  | .lane l => srcLane l 1

/-- A single-bit error of the word at a place, corrected in place and reported (R43). -/
def State.softFix (s : State) (ag : Agent) (pl : Place) : State :=
  let w := pl.off / 4
  if (s.memOf ag pl).2.2.contains w then
    (s.modMemOf ag pl fun m => (m.1, m.2.1, m.2.2.filter (· != w))).occur (srcSoft ag)
  else s

/-- Whether the word at a place is uncorrectable. -/
def State.wordBad (s : State) (ag : Agent) (pl : Place) : Bool := (s.memOf ag pl).2.1.contains (pl.off / 4)

/-- The exception of a memory access: tile-memory errors concern the cluster (R284). -/
def State.raiseAt (s : State) (ag : Agent) (cause : Byte) (ea : W) (pl : Place) : State :=
  match ag with
  | .eng e => s.engException e cause ea
  | .lane l => s.laneException l cause ea pl.isTile

/-- `n` bytes read at a place as a number. -/
def State.loadAt (s : State) (ag : Agent) (pl : Place) (n : Nat) : Nat :=
  (Mem.read (s.memOf ag pl).1 pl.off n).foldr (fun b acc => b.toNat + 256 * acc) 0

/-- Writes bytes at a place; a whole word takes fresh check bits (R43). -/
def State.storeAt (s : State) (ag : Agent) (pl : Place) (bs : List Byte) : State :=
  let w := pl.off / 4
  s.modMemOf ag pl fun m =>
    if bs.length = 4 then (Mem.write m.1 pl.off bs, m.2.1.filter (· != w), m.2.2.filter (· != w))
    else (Mem.write m.1 pl.off bs, m.2.1, m.2.2)

/-- Checks of an access of `n` bytes (R43, R54, R69): misaligned, out of range, a stall, an uncorrectable word (not for a store of
a whole word); else `k` is given the place, after any correction. An address both misaligned and out of range raises misaligned
(DESIGN CHOICE: the manual gives no order; log entry 187). -/
def State.access (s : State) (ag : Agent) (c : Ctx) (ea : W) (n : Nat) (whole : Bool) (k : Place → State → State) : State :=
  if ea.toNat % n ≠ 0 then s.raise ag 3 ea
  else match placeAt ag ea.toNat n with
    | none => s.raise ag 4 ea
    | some pl =>
      if s.stalls ag pl n then s.blockOn ag c (.interlock pl.off n)
      else if whole then k pl s
      else if s.wordBad ag pl then s.raiseAt ag 5 ea pl
      else k pl (s.softFix ag pl)

end Sys2Proof.Machine
end

