-- ==== Sys2Proof/Machine/BootOps.lean ====
section
/-! DEFINITION. Boot, the loader, starting and stopping engines, restarting the ME, the load window (R81–R84, R91–R96, R240, R305). -/
namespace Sys2Proof.Machine

/-! ### Starting boot (R91, R92 steps 1 and 2, R240, R305) -/

/-- Whether the map retires a unit. -/
def mapRetired (m : RMap) (u : Fin 182) : Bool :=
  let n := u.val
  if n < 96 then m.lanes.getLsbD n
  else if n < 108 then m.clusters.getLsbD (n - 96)
  else if n < 112 then m.ports.getLsbD (n - 108)
  else if n < 120 then m.bellows.getLsbD (n - 112)
  else if n < 128 then m.mods.getLsbD (n - 120)
  else if n < 134 then m.engines.getLsbD (n - 128)
  else false

/-- The saved retirement map is applied, with no event, and every backed word becomes zero (R240). -/
def State.storeInit (s : State) : State :=
  let m := s.fm.map
  let s := s.modFm fun f => { f with units := updAll f.units fun u x => if mapRetired m u then { x with st := 5 } else x }
  let s := s.modTransit fun t =>
    { t with ports := updAll t.ports fun p x => { x with domeout := x.domeout || m.bellows.getLsbD p.val } }
  s.modStore fun t =>
    { t with mem := [], lost := none, poison := [], soft := [], hard := [], fixed := [], seqs := [], ch15 := m.chan.isSome,
             retch := m.chan.getD 0, mig := false, migNext := 0 }

/-- Whether every rail of R389 that a boot needs is in range (R391, R511). -/
def State.railsUp (s : State) : Bool := s.thermal.rails == 0x1F && s.thermal.vio

/-- The ME mask ROM starts boot (R91): BOOTSEL and ROLE are sampled, the NV device region is read, the store is initialised. No modulator has a
test or a trigger left over from before (R359). -/
def State.bootStart (s : State) (bootsel : BitVec 2) (role : Bool) : State :=
  let s := s.bootNv
  let s := s.modBoot fun b =>
    { b with step := 1, bootsel := bootsel, code := if bootsel = 3 then 0x1A else 0, copy := false }
  let s := s.modTwin fun t => { t with strap := role }
  let mods := updAll s.sextant.mods fun _ m =>
    { m with testing := false, checking := none, trimDue := false, trimming := none, pend := none, gapAt := none }
  let s := { s with bellows := { s.bellows with locked := false }, sextant := { s.sextant with stopped := false, mods := mods } }
  s.storeInit

/-- RESET_RELEASE (R91, R391, R464, R488, R511): BOOTSEL and ROLE are sampled; boot starts, is held back while PFAIL_N is low or a rail is out
of range, or waits for the hand-over in progress. -/
def execResetRelease (bootsel : BitVec 2) (role : Bool) (s : State) : Out :=
  if s.thermal.resetN ∨ s.thermal.shutdown then .next s
  else
    let s := s.modThermal fun t => { t with resetN := true }
    if s.thermal.pfStep ≠ 0 then .next s
    else if s.thermal.handCause = 2 then
      .next ((s.modBoot fun b => { b with bootsel := bootsel }).modTwin fun t => { t with strap := role })
    else if !s.thermal.pfail || !s.railsUp then
      .next ((s.modBoot fun b => { b with step := 5, bootsel := bootsel }).modTwin fun t => { t with strap := role })
    else if s.boot.step = 0 then .next (s.bootStart bootsel role)
    else .next s

/-- PFAIL_N_RISE (R391, R510, R511): PFAIL_N is high; `inRange`: every rail has been in range for 10 ms. A boot that was held back then starts,
with BOOTSEL and ROLE as they were sampled when RESET_N was released (R488), whatever the pins show now. -/
def execPfailNRise (_bootsel : BitVec 2) (_role : Bool) (s : State) (inRange : Bool := true) : Out :=
  let s := s.modThermal fun t =>
    { t with pfail := true, rails := if inRange then 0x1F else t.rails, vio := t.vio || inRange }
  if s.boot.step = 5 ∧ s.thermal.pfStep = 0 ∧ !s.thermal.shutdown ∧ s.railsUp then .next (s.bootStart s.boot.bootsel s.twin.strap)
  else .next s

/-- Boot step 2 ends (R92, R240): READY. The store is initialised once the SYS PLL is locked (R450). With BOOTSEL 0b10 the link starts its
training under the mask ROM, which resets the twin island for 1 µs (R316, R465). -/
def execStoreInitDone (s : State) : Out :=
  if s.boot.step = 1 ∧ s.clocks.sysLk then
    let s := s.modBoot fun b => { b with step := if b.bootsel = 3 then 4 else 2, ready := true }
    .next (if s.boot.bootsel = 2 then s.linkRetrain else s)
  else .next s

/-! ### Images (R91, R92, R95) -/

/-- Whether the mask ROM keeps the link up for an image from the partner (R316, R450). -/
def State.romLink (s : State) : Bool := s.boot.bootsel == 2 && !s.boot.boot && s.boot.step != 0 && s.boot.step != 5

/-- The mask ROM enters what it has loaded (R92, R299): PS0–PS3, the CE, then the ME image; BOOT is set. The link that it kept up for an image
from the partner stops until EN is in force (R450). -/
def State.bootEnter (s : State) : State :=
  let s := forEach [1, 2, 3, 4, 0] (fun e t =>
    if (t.eng e).loaded && !t.engRetired e then t.engStart e else t) s
  let s := if (s.eng engME).loaded && !s.engRetired engME then
      (s.engReset engME).modEng engME fun en => { en with st := 1 }
    else s
  let s := if s.romLink && !s.twinEn then
      (s.modClocks fun c => c.drop 3).modTwin fun t => { t with trained := false, lock := 0, imgAsked := false }
    else s
  s.modBoot fun b => { b with step := 3, boot := true }

/-- An image check reads item 4, whose enforce flag it puts in force (R88, R441). -/
def State.imgChecked (s : State) : State := (s.itemCheck itemSecurity).modNv fun n => { n with enforceOn := n.enforce }

/-- A boot load ends (R92): its sections are loaded and entered, or the code is reported. -/
def State.bootLoad (s : State) (img : List Byte) (copy : Bool) : State :=
  let r := s.imgCheck img
  let s := s.imgChecked.modBoot fun b => { b with code := BitVec.ofNat 7 r.1.toNat, copy := copy }
  if r.1.toNat ≤ 3 then (s.imgInstall img r.2.1 r.2.2).bootEnter else s.modBoot fun b => { b with step := 4 }

/-- The bytes of the image buffer that the image's header claims (R85, R95). -/
def State.imgBuffer (s : State) : List Byte × State :=
  let n := (s.storeWord (imgBufBase + 8)).toNat
  s.storeRead imgBufBase (if 64 ≤ n ∧ n ≤ 2 ^ 24 then n else 64)

/-- BOOT_LOAD_COMPLETE (R91, R92, R316): with BOOTSEL 0b00 the first flash copy, and the second where the first fails with a code from
0x10 to 0x15; with BOOTSEL 0b10 the image that the partner sent. -/
def execBootLoadComplete (copy0 copy1 : List Byte) (s : State) : Out :=
  if s.thermal.held ∨ s.boot.step ≠ 2 then .next s
  else if s.boot.bootsel = 0 then
    let c := (s.imgCheck copy0).1.toNat
    if 0x10 ≤ c ∧ c ≤ 0x15 then .next (s.bootLoad copy1 true) else .next (s.bootLoad copy0 false)
  else if s.boot.bootsel = 2 then
    let r := s.imgBuffer
    .next (r.2.bootLoad r.1 false)
  else .next s

/-- BOOT_IMAGE_TIMEOUT (R90, R316): no image within 2 s. COPY reads 0, whichever copy did not come (log entry 146). -/
def execBootImageTimeout (s : State) : Out :=
  if s.thermal.held ∨ s.boot.step ≠ 2 ∨ s.boot.bootsel = 1 then .next s
  else .next (s.modBoot fun b => { b with step := 4, code := 0x1B, copy := false })

/-- GO (R92, R94): ignored while one is in progress. -/
def State.loadGo (s : State) : State :=
  if s.queue.busy then s.modQueue fun q => { q with ignored := true }
  else
    let s := s.modQueue fun q => { q with busy := true, code := 0 }
    if s.boot.boot then s else s.modBoot fun b => { b with code := 0, copy := false }

/-- A GO ends (R92, R95): the image in the buffer is checked and its sections loaded; while BOOT is 0 it is the boot load. -/
def execLoadGoDone (s : State) : Out :=
  if s.thermal.held ∨ !s.queue.busy then .next s
  else
    let r := s.imgBuffer
    let s := r.2
    let c := s.imgCheck r.1
    let s := s.imgChecked.modQueue fun q => { q with busy := false, code := c.1 }
    let booting := !s.boot.boot
    let s := if booting then s.modBoot fun b => { b with code := BitVec.ofNat 7 c.1.toNat, copy := false } else s
    if c.1.toNat ≤ 3 then
      let s := s.imgInstall r.1 c.2.1 c.2.2
      .next (if booting then s.bootEnter else s)
    else .next s

/-- ME_RESTART_DONE (R84, R385): the ME's memories are copied back and checked; the ME enters its image, or stays stopped by exception
with FAULT set and a record (log entry 24). The thermal unit uses its settings from before the first table again. -/
def execMeRestartDone (s : State) : Out :=
  if s.thermal.held ∨ !s.boot.meRestarting then .next s
  else
    let s := s.modBoot fun b => { b with meRestarting := false }
    let p := s.storeRead meCopyBase 0x8000
    let d := p.2.storeRead (meCopyBase + 0x8000) 0x8000
    let c := d.2.storeRead (meCopyBase + 0x10000) 8
    let s := c.2
    if s.engRetired engME then .next s
    else if [crc32c p.1, crc32c d.1] = bytesWords c.1 then
      let s := s.modEng engME fun en =>
        { en with prog := Mem.write [] 0 p.1, data := Mem.write [] 0 d.1, progBad := [], progSoft := [], dataBad := [],
                  dataSoft := [] }
      let s := s.thermalApply thermalDefaults 0
      .next ((s.engReset engME).modEng engME fun en => { en with st := 1 })
    else
      let s := (s.modEng engME fun en => { en with st := 4 }).setFault
      .next (s.note 0x101 3 (uEng engME).val [slotUid (uEng engME), 0xFD, s.decisionMer])

/-! ### Starting and stopping engines (R82, R83) -/

/-- The CE or PS engine that an engine code names. -/
def cepsOf (code : Fin 16) : Option Eng := if h : code.val < 5 then some ⟨code.val, by omega⟩ else none

def State.loadIgnored (s : State) : State := s.modQueue fun q => { q with ignored := true }

/-- A start request (R82). -/
def State.startReq (s : State) (code : Fin 16) : State :=
  match cepsOf code with
  | none => s.loadIgnored
  | some e =>
    let st := (s.eng e).st
    if (st = 3 ∨ st = 4) ∧ !s.engRetired e then s.engStart e else s.loadIgnored

/-- A stop request (R83): at the next meridian of any running port, or at once when none runs. -/
def State.stopReq (s : State) (code : Fin 16) : State :=
  match cepsOf code with
  | none => s.loadIgnored
  | some e =>
    if (s.eng e).st = 1 then
      let s := s.modEng e fun en => { en with st := 2, stopDue := false }
      if s.anyRunning then s else (s.modEng e fun en => { en with stopDue := true }).stopSettle e
    else s

/-- An abort stop (R83): outstanding SEND words and TILE transfers are discarded and counted. -/
def State.abortReq (s : State) (code : Fin 16) : State :=
  match cepsOf code with
  | none => s.loadIgnored
  | some e =>
    let en := s.eng e
    if en.st = 1 ∨ en.st = 2 then
      let n := en.out.length + (s.xfers (.eng e)).length
      (s.modEng e fun en =>
        { en with st := 3, stopDue := false, out := [],
                  ctxs := updAll en.ctxs fun _ c => { c with tags := Vector.replicate 4 none } }).count (210 + e.val) n
    else s

/-! ### The load window (R94, R96) -/

/-- What the load window maps: an engine memory, or a store range, with the offset of the page and the size; none for memories of
size 0 and for pages beyond the target (R94, R96). -/
inductive LoadMap where
  | eng (e : Eng) (data : Bool) (base size : Nat)
  | store (base : Nat)
deriving DecidableEq, Repr

def State.loadMap (s : State) : Option LoadMap :=
  let sel := s.queue.loadSel
  let t := fld sel 3 0
  let mem := fld sel 5 4
  let page := fld sel 15 8 * 65536
  if h : t < 6 then
    (if 2 ≤ mem ∨ targetSize t (mem == 1) ≤ page then none
     else some (.eng ⟨t, h⟩ (mem == 1) page (targetSize t (mem == 1))))
  else if t = 7 then (if page = 0 then some (.store kslotBase) else none)
  else if t = 15 then some (.store (imgBufBase + page))
  else none

/-- Whether a write frame through the load window is admitted (R96). -/
def State.loadAdmits (s : State) : Bool :=
  !s.queue.busy &&
  match s.loadMap with
  | none => false
  | some (.eng e _ _ _) =>
    let st := (s.eng e).st
    !(st == 1 || st == 2 || st == 5) && !s.nv.enforceOn
  | some (.store b) => !(b < imgBufBase && s.nv.enforceOn)

end Sys2Proof.Machine
end

