-- ==== Sys2Proof/Machine/HearthMath.lean ====
section
/-! DEFINITION. The arithmetic of the hearth pipeline, stages 1 to 7, on plain numbers: what Marrath's reference frame kernel and the
fixed units produce for one element (R80, R162–R169, R179, R181, R184–R186, R224). -/
namespace Sys2Proof.Machine

/-- Saturation to s32 with a count of saturations (R170 w6). -/
def sat32c (x : Int) : Int × Nat := let y := satS 32 x; (y, if y = x then 0 else 1)

/-- Saturation to u32 with a count of saturations. -/
def sat32u (x : Int) : Int × Nat := let y := satU 32 x; (y, if y = x then 0 else 1)

/-! ### Stage 1 (R162, R163) -/

/-- What stage 1 leaves: the combined sample, the new mean and variance, samples dropped, a whole-pixel step, the deviation `e`, the
saturations (R170 w6). -/
structure Comb where
  s : Int
  m : Nat
  v : Nat
  dropped : Nat
  step : Bool
  e : Int
  sats : Nat
deriving DecidableEq, Repr

/-- The samples that the spike test keeps (R162): `k` is K, Q4.4; `m` Q16.16, `v` and `vmin` Q24.8. -/
def spikeKeep (k m v vmin : Nat) (xs : List Nat) : List Nat × Bool :=
  if m = 0 ∨ k = 0 then (xs, false)
  else
    let near (x : Nat) : Bool :=
      let d : Int := (x : Int) * 65536 - m
      decide (d * d ≤ ((k * k * max v vmin * 65536 : Nat) : Int))
    let keep := xs.filter near
    if keep.isEmpty then (xs, true) else (keep, false)

/-- The trimmed mean in Q23.8 counts (R162). -/
def trimMean (trim : Nat) (keep : List Nat) : Int :=
  let l := sortAsc (keep.map fun (x : Nat) => (x : Int))
  let t := min trim ((l.length - 1) / 2)
  let l := (l.drop t).take (l.length - 2 * t)
  rndDiv (256 * sumI l) l.length

/-- Stage 1. -/
def stage1 (k trim as' vs m v vmin : Nat) (xs : List Nat) : Comb :=
  let kp := spikeKeep k m v vmin xs
  let s := trimMean trim kp.1
  if m = 0 then { s := s, m := (s * 256).toNat, v := vmin, dropped := xs.length - kp.1.length, step := kp.2, e := 0,
                    sats := 0 }
  else
    let e := s * 256 - m
    let q := rnd (e * e) 24
    let m' := sat32u (m + rnd e as')
    let v' := sat32u (v + rnd (q - v) vs)
    { s := s, m := m'.1.toNat, v := v'.1.toNat, dropped := xs.length - kp.1.length, step := kp.2, e := e, sats := m'.2 + v'.2 }

/-! ### Stages 2 and 3 (R80, R166, R167) -/

/-- Drift removed by stage 3: d1·ΔT + d2·ΔT² (R80). -/
def driftOf (d1 d2 dt : Int) : Int :=
  let q2 := min (rnd (dt * dt) 20) 0x7FFFFFFF
  rnd (d1 * dt + d2 * q2) 16

/-- Self-heating removed by stage 3: s·H (R80). -/
def heatOf (sh h : Int) : Int := rnd (sh * h) 16

/-- The words w0–w4 of a record as stage 3 reads them (R153). -/
structure RecVals where
  o : Int
  g : Nat
  d1 : Int
  d2 : Int
  sh : Int
  a : Int
deriving DecidableEq, Repr

def recVals (w : Nat → W) : RecVals :=
  { o := sfld (w 0) 23 0, g := (w 1).toNat, d1 := sfld (w 2) 15 0, d2 := sfld (w 2) 31 16, sh := sfld (w 3) 15 0,
    a := (w 4).toInt }

/-- Stages 2 and 3: P and the number of saturations. -/
def stage23 (s col row : Int) (r : RecVals) (dt h : Int) : Int × Nat :=
  let x0 := sat32c (s - col - row)
  let x1 := sat32c (x0.1 - r.o)
  let x2 := sat32c (x1.1 - driftOf r.d1 r.d2 dt)
  let x3 := sat32c (x2.1 - heatOf r.sh h)
  let x4 := sat32c (rnd (x3.1 * r.g) 28)
  let x5 := sat32c (x4.1 - r.a)
  (x5.1, x0.2 + x1.2 + x2.2 + x3.2 + x4.2 + x5.2)

/-! ### Stage 4 (R168, R169) -/

/-- The neighbour offsets of MASK bits 0 to 7: N, NE, E, SE, S, SW, W, NW (R155). -/
def nbrs : List (Int × Int) := [(-1, 0), (-1, 1), (0, 1), (1, 1), (1, 0), (1, -1), (0, -1), (-1, -1)]

/-- Replacement: the value, or none where it falls back to mode 2. `nb j` is the P of neighbour `j` if usable. -/
def replaceP (mode : Nat) (nb : Nat → Option Int) : Option Int :=
  let mean : Option Int :=
    let l := (List.range 8).filterMap nb
    if l.isEmpty then none else some (rndDiv (sumI l) l.length)
  if mode = 2 then none
  else if mode = 1 then mean
  else
    let pairs := [(6, 2), (0, 4), (1, 5), (7, 3)].filterMap fun (p : Nat × Nat) =>
      match nb p.1, nb p.2 with
      | some x, some y => some (x, y)
      | _, _ => none
    match pairs with
    | [] => mean
    | p :: r =>
      let best := r.foldl (fun (b : Int × Int) c => if (c.1 - c.2).natAbs < (b.1 - b.2).natAbs then c else b) p
      some (rndDiv (best.1 + best.2) 2)

/-! ### Stage 5 (R174, R178, R179) -/

/-- A reference element decoded, none where it is unusable. -/
def refVal (w : W) (ysh : Nat) : Option Int :=
  let y := fld w 31 16
  if y = 0x7FFF ∨ y = 0x8000 then none else some (sfld w 31 16 * 2 ^ ysh)

/-- Motion level of a difference in Q.8 counts against MT1 to MT3 (R178, R179). -/
def motionLevel (g : Nat → W) (d : Nat) : Nat :=
  if d < 16 * fld (g 2) 15 0 then 0
  else if d < 16 * fld (g 2) 31 16 then 1
  else if d < 16 * fld (g 3) 15 0 then 2
  else 3

/-- Stage 5: y and the new motion score. `g` gives the fields of block B+7; `use` the references in use (0: stage 5 off). -/
def stage5 (g : Nat → W) (use : Nat) (cls score : Nat) (x : Int) (r1 r2 r3 : Option Int) : Int × Nat :=
  if use = 0 then (x, 0)
  else match r1 with
    | none => (x, 0xC000)
    | some ref1 =>
      let lnow := motionLevel g (x - ref1).natAbs
      let sc := max (lnow * 0x4000) (score - fld (g 3) 31 16)
      let lev := sc / 2 ^ 14
      let yhat := match r2, r3 with
        | some a, some b =>
          if use = 3 then rnd (fld (g 0) 12 8 * ref1 + fld (g 0) 20 16 * a + fld (g 0) 28 24 * b) 4 else ref1
        | _, _ => ref1
      let al := if cls = 1 ∧ lev ≤ 1 then fld (g 4) 7 0 else fld (g 1) (8 * lev + 7) (8 * lev)
      (satS 32 (x + rnd (al * (yhat - x)) 8), sc)

/-! ### Stage 6 (R180, R181) -/

def rcpTab : List Nat := [0, 32768, 21845, 16384, 13107, 10923, 9362, 8192, 7282]

/-- Stage 6 on an element and its valid neighbours' y. -/
def stage6 (en : Bool) (str et : Nat) (yc : Int) (ys : List Int) : Int :=
  let inc := ys.filter fun y => (y - yc).natAbs ≤ et
  let n := inc.length
  if !en || n = 0 then yc
  else satS 32 (yc + rnd (sumI (inc.map fun y => y - yc) * rcpTab.getD n 0 * str) 24)

/-! ### Stage 7 (R184–R186, R217) -/

/-- The count of a blackbody by interpolation, `i` = temperature − TMIN (R184, R217). -/
def tableAt (e : Nat → Int) (step : Nat) (i : Int) : Int :=
  if i ≤ 0 then e 0
  else if 4095 * (step : Int) ≤ i then e 4095
  else
    let n := i.toNat
    let k := n / step
    e k + rndDiv ((e (k + 1) - e k) * ((n % step : Nat) : Int)) step

/-- 1/emissivity, u32 Q8.24 (R10, R184). -/
def ieOf (eps : Nat) : Int := min (rndDiv (2 ^ 39) eps) (2 ^ 32 - 1)

/-- The kernel's part of stage 7. -/
def cobjOf (c cr ie : Int) : Int := satS 32 (cr + rnd ((c - cr) * ie) 24)

/-- The largest index `k` below 4095 with `e k ≤ x`, by halving: twelve steps (R186). -/
def searchTab (e : Nat → Int) (x : Int) : Nat → Nat → Nat
  | 0, k => k
  | n + 1, k => if e (k + 2 ^ n) ≤ x then searchTab e x n (k + 2 ^ n) else searchTab e x n k

/-- K of an element by the unit of R186: 0 in range, 1 under-range, 2 over-range. -/
def kelvin (e : Nat → Int) (en : Bool) (tmin step : Nat) (hold : Bool) (held : Nat) (cobj : Int) : Nat × Nat :=
  if !en then (0, 0)
  else if hold then (held, 0)
  else if cobj < e 0 then (tmin, 1)
  else if e 4095 ≤ cobj then ((satU 16 (tmin + 4095 * step)).toNat, 2)
  else
    let k := searchTab e cobj 12 0
    let d := e (k + 1) - e k
    ((satU 16 (rndDiv ((tmin + k * step : Nat) * d + (cobj - e k) * step) d)).toNat, 0)

/-! ### Scene-based correction (R224) -/

/-- The new scene residual: `g7` and `g1` give the fields of blocks B+7 and 0x001, `ps` the usable P of NW, N and NE. -/
def sceneA (g7 g1 : Nat → W) (score : Nat) (e p a : Int) (ps : List Int) : Int :=
  let la := motionLevel g7 (rnd e 8).natAbs
  let lim : Int := fld (g1 6) 31 16
  if fld (g1 6) 5 4 ≤ max (score / 2 ^ 14) la ∧ 2 ≤ ps.length then
    clampI (a + rnd (p - rndDiv (sumI ps) ps.length) (fld (g1 6) 3 0)) (-lim) lim
  else a

end Sys2Proof.Machine
end

