-- ==== Sys2Proof/Machine/FrameOps.lean ====
section
/-! DEFINITION. Frames: received rows, their pixels, watch zones, statistics and tone curve, the records of a frame (R21, R122,
R170–R198). -/
namespace Sys2Proof.Machine

/-! ### Frames -/

def PortS.fr (x : PortS) (tail : Bool) : Option Frame := if tail then x.tail else x.frame

def State.modFrame (s : State) (p : Port) (tail : Bool) (f : Frame → Frame) : State :=
  s.modPort p fun x => if tail then { x with tail := x.tail.map f } else { x with frame := x.frame.map f }

/-- Whether the lanes process a frame (R39, R125, R129, R209, R300). -/
def Frame.processed (fr : Frame) : Bool := !fr.skipped && !fr.startDisc && !fr.stopped && !fr.heldStart && !fr.held

/-- Sub-frames of a frame (R121). -/
def subsOf (pb : PMap) (p : Port) : Nat := if pb.orderB p then pb.nSamp p else 1

/-- Whether column `c` of row position `r` was wholly received in every sub-frame. -/
def Frame.got (fr : Frame) (p : Port) (r c : Nat) : Bool :=
  (List.range (subsOf fr.pb p)).all fun k => fr.rows.any fun x => x.sub == k && x.row == r && !x.bad && c < x.pixels

/-- Whether row position `r` was received: no sub-frame of it missing (R128). -/
def Frame.gotRow (fr : Frame) (p : Port) (r : Nat) : Bool :=
  (List.range (subsOf fr.pb p)).all fun k => fr.rows.any fun x => x.sub == k && x.row == r && !x.bad

/-- Whether nothing more can come for row position `r`: received or found missing in every sub-frame, passed by the order of
arrival, or the frame has ended (R123, R128). -/
def Frame.rowSettled (fr : Frame) (p : Port) (r : Nat) : Bool :=
  fr.ended || (List.range (subsOf fr.pb p)).all fun k =>
    (fr.rows.any fun x => x.sub == k && x.row == r) || (!fr.pb.lineNum p && r < getN fr.nextRow k 0)

/-- Bytes of a port's sample region (R118, R122). -/
def regionBytes (pb : PMap) (p : Port) : Nat := if pb.gang p then 2 ^ 27 else 2 ^ 26

/-- Slots of the ring of order A (R122). -/
def ringSlots (pb : PMap) (p : Port) : Nat := regionBytes pb p / ((pb.linePixels p * pb.nSamp p * 2 + 63) / 64 * 64)

/-- Address of sample `k` of pixel (`r`, `c`) of a frame with count `f` (R122). -/
def sampleAddr (pb : PMap) (p : Port) (f r c k : Nat) : Nat :=
  let base := 0x70000000 + p.val * 0x04000000
  if pb.orderB p then
    let stride := (pb.linePixels p * 2 + 63) / 64 * 64
    base + k * (pb.lines p * stride) + r * stride + c * 2
  else
    let stride := (pb.linePixels p * pb.nSamp p * 2 + 63) / 64 * 64
    let slot := (f * pb.lines p + r) % ringSlots pb p
    base + slot * stride + (c * pb.nSamp p + k) * 2

/-- The samples of a pixel as the store holds them. -/
def State.samplesOf (s : State) (pb : PMap) (p : Port) (f r c : Nat) : List Nat :=
  (List.range (pb.nSamp p)).map fun k => s.storeHalf (sampleAddr pb p f r c k)

/-- The reads of the samples of `n` pixels of a row position from column `c` (R245): one range of each sub-frame's place. -/
def State.samplesCheck (s : State) (pb : PMap) (p : Port) (f r c n : Nat) : State :=
  if pb.orderB p then forEach (List.range (pb.nSamp p)) (fun k t => t.storeCheck (sampleAddr pb p f r c k) (2 * n)) s
  else s.storeCheck (sampleAddr pb p f r c 0) (2 * n * pb.nSamp p)

/-- Whether the samples of a pixel hold a poisoned word (R247). -/
def State.sampleBad (s : State) (p : Port) (fr : Frame) (r c : Nat) : Bool :=
  (List.range (fr.pb.nSamp p)).any fun k => s.store.poison.contains (sampleAddr fr.pb p fr.f r c k / 8)

/-- Address of the ephemeris record of an active pixel (R152). -/
def recordAddr (pb : PMap) (p : Port) (r a : Nat) : Nat := 0x14000000 * p.val + (r * pb.cols p + a) * 64

/-- Base address of a frame slot (R236, R237). -/
def slotBase (p : Port) (j : Fin 4) : Nat :=
  if j.val = 3 then 0x80000000 + p.val * 0x04000000 else 0x60000000 + p.val * 0x04000000 + j.val * 0x01400000

/-- Base address of a port's record area (R238). -/
def recordBase (p : Port) : Nat := 0x98010000 + p.val * 0x10000

/-- The agreed count of a local meridian count (R321). -/
def State.agreedOf (s : State) (p : Port) (m : W) : W := m + s.twin.offsets.get p

def Frame.idx (fr : Frame) (p : Port) (r a : Nat) : Nat := r * fr.pb.cols p + a
def Frame.px (fr : Frame) (p : Port) (r a : Nat) : Pix := getN fr.pix (fr.idx p r a) Pix.zero
/-- Address of an element's word in a frame slot (R237). -/
def slotAddr (p : Port) (pb : PMap) (j : Fin 4) (r a : Nat) : Nat := slotBase p j + (r * pb.cols p + a) * 4

def Frame.setPx (fr : Frame) (p : Port) (r a : Nat) (x : Pix) : Frame := { fr with pix := insertN fr.pix (fr.idx p r a) x }

/-- The reads of `n` words of a frame slot from an element on (R245). -/
def State.slotCheck (s : State) (p : Port) (pb : PMap) (slot : Option (Fin 4)) (r a n : Nat) : State :=
  match slot with
  | some j => s.storeCheck (slotAddr p pb j r a) (4 * n)
  | none => s

/-- The word that an element takes from the previous corrected frame; poison and no valid slot give Y16 = 0x8000, K = 0 (R173, R247).
The read's checks are `slotCheck`'s. -/
def State.fillWord (s : State) (p : Port) (pb : PMap) (prev : Option (Fin 4)) (r a : Nat) : W :=
  match prev with
  | none => 0x80000000
  | some j =>
    let ad := slotAddr p pb j r a
    if s.store.poison.contains (ad / 8) then 0x80000000 else s.storeWord ad

/-! ### Rectangles (R183, R192) -/

/-- Whether the rectangle of a row field and a column field is on and contains a pixel. -/
def rectHas (rw cw : W) (r a : Nat) : Bool :=
  fld rw 11 0 ≤ fld rw 27 16 && fld cw 11 0 ≤ fld cw 27 16 && fld rw 11 0 ≤ r && r ≤ fld rw 27 16 && fld cw 11 0 ≤ a &&
    a ≤ fld cw 27 16

/-- The highest radiometric zone that contains a pixel (R183). -/
def radZone (pb : PMap) (p : Port) (r a : Nat) : Nat :=
  ((List.range 8).reverse.find? fun z =>
    z == 0 || rectHas (pb.fld (pB p + 9) (9 + 3 * z)) (pb.fld (pB p + 9) (10 + 3 * z)) r a).getD 0

/-- The constants cr and IE of a radiometric zone (R184). -/
def zoneConst (pb : PMap) (p : Port) (z : Nat) : Int × Int :=
  let w := pb.fld (pB p + 9) (8 + 3 * z)
  let tmin := fld (pb.fld (pB p + 9) 0) 15 0
  let step := fld (pb.fld (pB p + 9) 1) 6 0
  (tableAt (pb.radTable p) step ((fld w 15 0 : Int) - tmin), ieOf (fld w 31 16))

/-- Watch zone fields (R192). -/
def watchFld (pb : PMap) (p : Port) (z : Fin 16) (i : Nat) : W := pb.fld (pB p + 11) (8 * z.val + i)

/-! ### Accumulation (R187–R190, R193) -/

def ZoneAcc.zero : ZoneAcc := ⟨0, 0, 0, 0xFFFF, 0, 0, false, false, false, false, false, false⟩

def StatAcc.zero : StatAcc :=
  { incl := 0, sumK := 0, lo := 0xFFFF, hi := 0, satHi := 0, satLo := 0, sumS := 0, combined := 0, underK := 0, overK := 0,
    hist := [], zones := Vector.replicate 16 ZoneAcc.zero, changed := [], early := false }

/-- Histogram bin of a temperature (R188). -/
def binOf (pb : PMap) (p : Port) (k : Nat) : Nat :=
  let w := pb.fld (pB p + 10) 0
  let base := fld w 15 0
  if k < base then 0 else min ((k - base) / 2 ^ fld w 19 16) 255

/-- Counts an included element (R187, R193). -/
def statAdd (pb : PMap) (p : Port) (r a k : Nat) (st : StatAcc) : StatAcc :=
  let b := binOf pb p k
  { st with
    incl := st.incl + 1, sumK := st.sumK + k, lo := min st.lo k, hi := max st.hi k,
    hist := insertN st.hist b (getN st.hist b 0 + 1)
    zones := updAll st.zones fun z y =>
      if rectHas (watchFld pb p z 0) (watchFld pb p z 1) r a then
        { y with incl := y.incl + 1, hot := y.hot + (if fld (watchFld pb p z 2) 15 0 ≤ k then 1 else 0), sum := y.sum + k,
                 lo := min y.lo k, hi := max y.hi k }
      else y }

/-- Counts what R187 takes of an element before stage 1. -/
def statRaw (x : Option (Nat × Nat × Int)) (st : StatAcc) : StatAcc :=
  match x with
  | some q => { st with satHi := st.satHi + q.1, satLo := st.satLo + q.2.1, sumS := st.sumS + q.2.2, combined := st.combined + 1 }
  | none => st

/-! ### Notification (R191) -/

/-- Merges a result into the pending notification word, whose meridian bits are those of the latest frame concerned (R191; of an early WATCH
change and a late record of the frame before it, log entry 193). -/
def State.notifyAdd (s : State) (p : Port) (m : W) (bits : W) : State :=
  s.modPort p fun x =>
    let old := fld x.notify 15 4
    let late := x.notify != 0 && decide (2048 ≤ (fld m 11 0 + 4096 - old) % 4096)
    { x with notify := (x.notify &&& (0xFFFF000F : W)) ||| bits ||| wn ((if late then old else fld m 11 0) * 16) }

/-! ### Watch zones (R193–R195) -/

/-- Zone conditions of a frame: hot, rise, rise measurable, quiet, the rise (R193); a rise that is not measurable is shown as 0 (log entry
153). -/
def zoneConds (pb : PMap) (p : Port) (z : Fin 16) (zone : Zone) (y : ZoneAcc) : Bool × Bool × Bool × Bool × Int :=
  let w2 := watchFld pb p z 2
  let w3 := watchFld pb p z 3
  let old := zone.maxima[fld w3 27 24]?
  let minpix := fld w2 31 16
  let hot := decide (minpix ≠ 0 ∧ minpix ≤ y.hot)
  let rise : Int := match old with
    | some o => (y.hi : Int) - o
    | none => 0
  let isRise := decide (fld w3 15 0 ≠ 0) && old.isSome && decide ((fld w3 15 0 : Int) ≤ rise)
  let quiet := !isRise && decide ((y.hi : Int) < (fld w2 15 0 : Int) - 4 * fld (watchFld pb p z 4) 23 16)
  (hot, isRise, old.isSome, quiet, rise)

/-- The state and counter after one evaluation (R194). -/
def zoneNext (w4 : W) (zone : Zone) (fire quiet : Bool) : Fin 4 × Nat :=
  let persist := fld w4 11 8
  let clear := fld w4 15 12
  match zone.st with
  | 0 => if fire then (if persist = 1 then (2, 1) else (1, 1)) else (0, zone.ctr)
  | 1 => if fire then (if persist ≤ zone.ctr + 1 then (2, zone.ctr + 1) else (1, zone.ctr + 1)) else (0, 0)
  | 2 => if fire then (2, 0) else if quiet then (if clear = 1 then (0, 1) else (3, 1)) else (2, 0)
  | _ => if fire then (2, 0) else if quiet then (if clear ≤ zone.ctr + 1 then (0, zone.ctr + 1) else (3, zone.ctr + 1)) else (2, 0)

/-- A transit of a port in WATCH is abandoned when a zone enters ALARM in its steps 2 to 4 (R211). -/
def State.alarmTransit (s : State) : State :=
  match s.transit.cur with
  | some c => if 2 ≤ c.step.val ∧ c.step.val ≤ 4 ∧ (s.port c.port).profile = 1 then s.transitAbandon 7 false else s
  | none => s

/-- Evaluates one zone for a frame, once (R193–R195): its conditions, its state, the pending notification. A change made before the meridian
carries the frame's own ending count (DESIGN CHOICE: log entry 192). -/
def State.zoneEval (s : State) (p : Port) (tail : Bool) (z : Fin 16) : State :=
  match (s.port p).fr tail with
  | none => s
  | some fr =>
    let y := fr.stat.zones.get z
    if y.done then s
    else if y.incl = 0 then
      s.modFrame p tail fun fr => { fr with stat := { fr.stat with zones := upd fr.stat.zones z fun y => { y with done := true } } }
    else
      let zone := (s.port p).zones.get z
      let q := zoneConds fr.pb p z zone y
      let w4 := watchFld fr.pb p z 4
      let nx := if y.old then (zone.st, zone.ctr) else if bitOf w4 0 then zoneNext w4 zone (q.1 || q.2.1) q.2.2.2.1 else (0, 0)
      let changed := nx.1 ≠ zone.st
      let m := s.agreedOf p fr.m
      let s := s.modFrame p tail fun fr =>
        { fr with stat := { fr.stat with
            zones := upd fr.stat.zones z fun y =>
              { y with done := true, hotC := q.1, riseC := q.2.1, riseM := q.2.2.1, rise := q.2.2.2.2 }
            changed := if changed then fr.stat.changed ++ [z] else fr.stat.changed } }
      let alarm := changed ∧ nx.1 = 2
      let s := s.modPort p fun x =>
        { x with zones := upd x.zones z fun zn =>
            { zn with st := nx.1, ctr := nx.2, entry := if changed then m.extractLsb' 0 16 else zn.entry,
                      alarms := if alarm then min (zn.alarms + 1) 65535 else zn.alarms } }
      let s := if changed then s.notifyAdd p m (wn (2 ^ (16 + z.val) + 2)) else s
      if alarm then s.alarmTransit else s

/-! ### Tone curve (R197) -/

/-- The first bin at which the cumulative count reaches `num / den` of it. -/
def pctBin (hist : List (Nat × Nat)) (target : Nat) : Nat :=
  ((List.range 256).foldl (fun (a : Nat × Nat × Bool) b =>
    let c := a.1 + 65536 * getN hist b 0
    if a.2.2 then a else if target ≤ c then (c, b, true) else (c, b, false)) (0, 255, false)).2.1

/-- The target curve; none where a frame without included pixels leaves the curve alone. -/
def toneTarget (pb : PMap) (p : Port) (st : StatAcc) : Option (List Int) :=
  let b := pB p + 10
  let hb := fld (pb.fld b 0) 15 0
  let wd := 2 ^ fld (pb.fld b 0) 19 16
  let ge (e : Nat) : Int := (hb + e * wd : Nat)
  let lin (lo hi : Int) : List Int :=
    (List.range 257).map fun e => clampI (rndDiv (255 * (ge e - lo)) (hi - lo)) 0 255
  match fld (pb.fld b 2) 1 0 with
  | 0 => some (lin (fld (pb.fld b 3) 15 0) (fld (pb.fld b 3) 31 16))
  | 1 =>
    if st.incl = 0 then none
    else
      let w := pb.fld b 4
      let lo := ge (pctBin st.hist (fld w 15 0 * st.incl))
      let hi := ge (pctBin st.hist (fld w 31 16 * st.incl) + 1)
      some (lin lo (if hi ≤ lo then lo + wd else hi))
  | _ =>
    if st.incl = 0 then none
    else
      let clip := fld (pb.fld b 2) 15 8
      let h (i : Nat) : Int := (min (4096 * getN st.hist i 0) (clip * st.incl) : Nat)
      let cum := (List.range 256).foldl (fun (a : List Int) i => a ++ [a.getLastD 0 + h i]) [0]
      some (cum.map fun x => rndDiv (255 * x) (cum.getLastD 1))

/-- The curve after a processed frame's record, and whether it was updated: replaced outright for the first after an entry to running
and for a frame before which the block changed. -/
def toneNext (p : Port) (x : PortS) (fr : Frame) : Vector Byte 257 × Bool :=
  match toneTarget fr.pb p fr.stat with
  | none => (x.curve, false)
  | some u =>
    let ts := fld (fr.pb.fld (pB p + 10) 2) 19 16
    (updAll x.curve fun e v =>
      let t := u.getD e.val 0
      if x.curveFresh && !fr.past || fr.curveNew then BitVec.ofInt 8 t
      else BitVec.ofInt 8 (v.toNat + rnd (t - v.toNat) ts), true)

/-! ### Records (R21, R170, R189, R190) -/

def sat16n (n : Nat) : Nat := min n 65535
def sat32n (n : Nat) : W := wn (min n 0xFFFFFFFF)
def w64 (n : Nat) : List W := [wn n, wn (n / 2 ^ 32)]

/-- References in use of a frame: 0, 1 or 3 (R176, R179). -/
def Frame.refsUse (fr : Frame) (p : Port) : Nat :=
  if fr.profile = 1 ∨ !bitOf (fr.pb.fld (pB p + 7) 0) 0 then 0 else if 1 ≤ fr.stage then 1 else 3

/-- A zone entry of the statistics record (R190). -/
def zoneEntry (pb : PMap) (p : Port) (z : Fin 16) (zone : Zone) (y : ZoneAcc) : List W :=
  let on := rectHas (watchFld pb p z 0) (watchFld pb p z 1) (fld (watchFld pb p z 0) 11 0) (fld (watchFld pb p z 1) 11 0)
  let y := if on then y else ZoneAcc.zero
  [sat32n y.incl, sat32n y.hot] ++ w64 y.sum ++
    [wn (y.lo + 2 ^ 16 * y.hi),
     wn ((BitVec.ofInt 16 (satS 16 y.rise)).toNat + 2 ^ 16 * b2n y.hotC + 2 ^ 17 * b2n y.riseC + 2 ^ 18 * b2n y.riseM),
     wn (zone.st.val + 2 ^ 8 * zone.ctr + 2 ^ 15 * b2n (bitOf (watchFld pb p z 4) 0) + 2 ^ 16 * zone.entry.toNat),
     wn (sat16n zone.alarms)]

/-- Flags 16 to 19 of a frame: patched, held, skipped, start-discarded. A frame that FRUGAL or a forced level does not run is
skipped (log entry 30). -/
def Frame.flags4 (fr : Frame) : Nat :=
  let held := (fr.held || fr.heldStart) && !fr.startDisc && !fr.skipped && !fr.stopped
  2 ^ 16 * b2n (fr.patched && fr.processed) + 2 ^ 17 * b2n held + 2 ^ 18 * b2n (fr.skipped || fr.stopped) + 2 ^ 19 * b2n fr.startDisc

/-- The statistics record (R189). -/
def State.statBytes (s : State) (p : Port) (fr : Frame) (tone : Bool) : List Byte :=
  let x := s.port p
  let st := fr.stat
  let proc := fr.processed
  let inAlarm := bitsOf (fun i => if h : i < 16 then 2 ≤ (x.zones.get ⟨i, h⟩).st.val else false) 16
  let chg := bitsOf (fun i => st.changed.any fun z => z.val == i) 16
  let w1 := fr.sgen.toNat + fr.flags4 + 2 ^ 20 * b2n tone + 2 ^ 21 * b2n st.early +
    2 ^ 22 * (if proc then fr.refsUse p else 0)
  let st' := if proc then st else { StatAcc.zero with changed := st.changed }
  let w10 := BitVec.ofInt 64 st'.sumS
  let hdr : List W :=
    [s.agreedOf p fr.m, wn w1, fr.egen, wn (fr.profile.toNat + 2 ^ 8 * fr.stage), sat32n st'.incl] ++ w64 st'.sumK ++
      [wn (st'.lo + 2 ^ 16 * st'.hi), sat32n st'.satHi, sat32n st'.satLo, w10.extractLsb' 0 32, w10.extractLsb' 32 32,
       sat32n st'.combined, wn (sat16n st'.underK + 2 ^ 16 * sat16n st'.overK), wn (inAlarm + 2 ^ 16 * chg), 0]
  let hist := (List.range 256).map fun b => sat32n (getN st'.hist b 0)
  let zs := (allFin 16).flatMap fun z =>
    zoneEntry fr.pb p z (x.zones.get z) (if proc then st.zones.get z else ZoneAcc.zero)
  wordsBytes (hdr ++ hist ++ zs) ++ x.curve.toList ++ List.replicate 63 0

def statAddr (p : Port) (m : W) : Nat := recordBase p + 0x100 + (if bitOf m 0 then 0x800 else 0)

/-- The hearth record (R170). -/
def State.hearthBytes (s : State) (p : Port) (fr : Frame) : List Byte :=
  let h := fr.hearth
  wordsBytes
    [s.agreedOf p fr.m, wn (fr.bandGen.toNat + 2 ^ 16 * fr.bands.length + 2 ^ 24 * draftedIn p fr), sat32n h.spikes,
     sat32n h.steps, wn (sat16n h.rep2 + 2 ^ 16 * sat16n h.rep3), wn (sat16n h.rep4 + 2 ^ 16 * sat16n h.fallback),
     wn (sat16n h.sats + 2 ^ 16 * sat16n h.mode3), wn (sat16n h.patchTiles + 2 ^ 16 * sat16n h.invalid)]

/-- A statistics record is written (R189, R191); the curve it carries becomes that of its frame. -/
def State.statWrite (s : State) (p : Port) (fr : Frame) (tone : Bool) : State :=
  let m := s.agreedOf p fr.m
  let s := s.storeWrite (statAddr p m) (s.statBytes p fr tone)
  (s.modPort p fun x => { x with curveMer := m }).notifyAdd p m 1

/-! ### Digests (R327) -/

/-- The tiles of a port by number: first row, rows, first column, columns (R278, R297). -/
def tileRect (pb : PMap) (p : Port) (t : Nat) : Nat × Nat × Nat × Nat :=
  let across := pb.tilesAcross p
  let r0 := t / across * 64
  let c0 := t % across * 64
  (r0, min 64 (pb.rows p - r0), c0, min 64 (pb.cols p - c0))

/-- Pixels of a tile in row order. -/
def tilePix (pb : PMap) (p : Port) (t : Nat) : List (Nat × Nat) :=
  let q := tileRect pb p t
  (List.range q.2.1).flatMap fun i => (List.range q.2.2.2).map fun j => (q.1 + i, q.2.2.1 + j)

/-- The CRC of a tile and its flags (R327). -/
def State.tileDigest (s : State) (p : Port) (fr : Frame) (t : Nat) : W × BitVec 3 :=
  let px := tilePix fr.pb p t
  let bytes := px.flatMap fun q =>
    let ad := recordAddr fr.pb p q.1 q.2
    let word := match fr.slot with
      | some j => s.storeWord (slotAddr p fr.pb j q.1 q.2)
      | none => 0
    wordBytes word ++ s.storeBytes (ad + 16) 16 ++ s.storeBytes (ad + 40) 8
  let inv := px.any fun q => !(fr.px p q.1 q.2).valid
  let resync := (s.twin.sweep && s.twin.sweepPort == p && !s.twin.isSource p) || s.twin.diverged.contains (p.val, t) ||
    s.twin.gotRows.contains (p.val, t, (s.agreedOf p fr.m).toNat)
  (crc32c bytes, BitVec.ofNat 3 (b2n (fr.tilesPatched.contains t) + 2 * b2n inv + 4 * b2n resync))

/-- DIGEST frames of a processed frame, one for each tile row, the port digest with the last (R327); the payload's order of words is
the model's (log entry 31). -/
def State.sendDigests (s : State) (p : Port) (fr : Frame) : State :=
  if !s.linkUp || s.twin.st.val < 3 then s
  else
    let across := fr.pb.tilesAcross p
    let n := fr.pb.tileCount p
    let m := s.agreedOf p fr.m
    let ds := (List.range n).map fun t => (t, s.tileDigest p fr t)
    let port := crc32c (s.storeBytes (statAddr p m) 1920)
    let s := s.modTwin fun t =>
      { t with ownTiles := (t.ownTiles.filter fun e => e.1 / 65536 ≠ p.val) ++
                ds.map (fun d => (p.val * 65536 + d.1, m.toNat, d.2.1, d.2.2)) ++ [(p.val * 65536 + 65535, m.toNat, port, 0)] }
    forEach (List.range (n / across)) (fun i t =>
      let es := (ds.drop (i * across)).take across
      let body := [m, wn (i * across + 2 ^ 16 * across)] ++ es.flatMap (fun d => [d.2.1, d.2.2.zeroExtend 32]) ++
        if i + 1 = n / across then [port] else []
      t.linkSend 0x05 2 p body) s

/-! ### Completion (R189, R193, R197) -/

/-- The maxima of the zones evaluated enter the zones' histories, once for the frame (R193): at its meridian, or as its record completes. -/
def State.maximaEnter (s : State) (p : Port) (tail : Bool) : State :=
  match (s.port p).fr tail with
  | none => s
  | some fr =>
    let enters (y : ZoneAcc) : Bool := fr.processed && y.done && !y.kept && y.incl != 0 && !y.old && !fr.past
    (s.modPort p fun x =>
      { x with zones := updAll x.zones fun z zn =>
          let y := fr.stat.zones.get z
          if enters y then { zn with maxima := (y.hi :: zn.maxima).take 16 } else zn }).modFrame p tail fun fr =>
        { fr with stat := { fr.stat with zones := updAll fr.stat.zones fun _ y => { y with kept := y.kept || enters y } } }

/-- The record of a processed frame completes: zones not yet evaluated are, the maxima enter the history, the curve moves, the
statistics and hearth records are written, the digests go. -/
def State.frameComplete (s : State) (p : Port) (tail : Bool) : State :=
  let s := (forEach (allFin 16) (fun z t => t.zoneEval p tail z) s).maximaEnter p tail
  match (s.port p).fr tail with
  | none => s
  | some fr =>
    let tn := toneNext p (s.port p) fr
    let s := s.modPort p fun x =>
      if tn.2 then
        { x with prevCurve := x.curve, prevCurveMer := x.curveMer, curve := tn.1, curveFresh := x.curveFresh && fr.past }
      else { x with prevCurve := x.curve, prevCurveMer := x.curveMer }
    let s := s.statWrite p fr tn.2
    let s := s.storeWrite (recordBase p + 0x40 + (if bitOf (s.agreedOf p fr.m) 0 then 0x20 else 0)) (s.hearthBytes p fr)
    let s := s.modFrame p tail fun fr => { fr with statDone := true }
    s.sendDigests p fr

/-- Whether every active pixel of a frame has its corrected word. -/
def Frame.allDone (fr : Frame) (p : Port) : Bool :=
  (List.range (fr.pb.rows p)).all fun r => (List.range (fr.pb.cols p)).all fun a => (fr.px p r a).word.isSome

/-- Completes a processed frame that has ended and whose last row has left stage 8. -/
def State.tryComplete (s : State) (p : Port) (tail : Bool) : State :=
  match (s.port p).fr tail with
  | some fr => if fr.ended && fr.processed && !fr.statDone && fr.allDone p then s.frameComplete p tail else s
  | none => s

end Sys2Proof.Machine
end

