-- ==== Sys2Proof/Machine/Hearth.lean ====
section
/-! DEFINITION. The hearth sequencer: an invocation's inputs, its three phases by the reference arithmetic, the stepwise invocation that
runs the loaded kernel, write-backs, taps (R75, R149, R156–R169, R174–R181, R224, R261, R290). -/
namespace Sys2Proof.Machine

/-! ### Inputs of a group -/

/-- An element as phase A is given it: poison in the record or in the samples makes it invalid (R247). -/
def State.elemIn (s : State) (p : Port) (fr : Frame) (r a : Nat) : ElemIn :=
  let pb := fr.pb
  let ad := recordAddr pb p r a
  let row := pb.blindRows p + r
  let c := pb.left p + a
  let got := fr.got p row c
  let bad := s.poisoned ad 64 || s.sampleBad p fr row c
  { valid := got && !bad, got := got, ws := bytesWords (s.storeBytes ad 64), xs := s.samplesOf pb p fr.f row c }

/-- The checks of the store words a group reads (R245): its records and its samples. -/
def State.groupCheck (s : State) (p : Port) (fr : Frame) (r col : Nat) : State :=
  let pb := fr.pb
  let row := pb.blindRows p + r
  let s := s.storeCheck (recordAddr pb p r col) 512
  if fr.gotRow p row then s.samplesCheck pb p fr.f row (pb.left p + col) 8 else s

/-- The reads of the reference words of a group of row `r`: three references, the first alone, or none (R175, R245). -/
def State.refsCheck (s : State) (p : Port) (fr : Frame) (r col : Nat) : State :=
  forEach (List.range (fr.refsUse p)) (fun k t => t.slotCheck p fr.pb (fr.refs.getD k none) r col 8) s

def nth (l : List W) (i : Nat) : W := nthW l i

/-- ΔT and H of a frame (R149). -/
def frameDt (pb : PMap) (p : Port) : Int := satS 32 (pb.tarr p - pb.ttransit p)
def frameH (pb : PMap) (p : Port) : Int := (pb.duty p : Int) - pb.dutyTransit p

def PMap.portF (pb : PMap) (p : Port) (r f : Nat) : W := pb.fld (pB p + r) f

def Frame.colOff (fr : Frame) (p : Port) (a : Nat) : Int :=
  if bitOf (fr.pb.portF p 4 0) 8 then getN fr.col a 0 else 0
def Frame.rowOffOf (fr : Frame) (p : Port) (r : Nat) : Int :=
  if bitOf (fr.pb.portF p 4 0) 9 then getN fr.rowOff r 0 else 0

/-- Stage 1 of an element under the frame's blocks (R150, R162). -/
def combOf (pb : PMap) (p : Port) (e : ElemIn) : Comb :=
  let c := pb.portF p 5 0
  stage1 (fld c 7 0) (fld c 9 8) (fld c 19 16) (fld c 23 20) (nth e.ws 5).toNat (nth e.ws 6).toNat (pb.portF p 5 1).toNat e.xs

def classOf (w0 : W) : Nat := min (fld w0 26 24) 4

/-! ### Phase A (R158, R162–R167, R224) -/

/-- The neighbour P that stage 4 and scene-based correction may use (R169): inside the active area, VALID, its phase A done. -/
def Frame.nbP (fr : Frame) (p : Port) (mask : Nat) (r a j : Nat) : Option Int :=
  let d := nbrs.getD j (0, 0)
  let r' : Int := r + d.1
  let a' : Int := a + d.2
  if mask / 2 ^ j % 2 = 1 ∧ 0 ≤ r' ∧ r' < fr.pb.rows p ∧ 0 ≤ a' ∧ a' < fr.pb.cols p then
    let x := fr.px p r'.toNat a'.toNat
    if x.valid && x.doneA then some x.p else none
  else none

/-- What phase A leaves for one element by the reference arithmetic: the pixel, w4–w7, and its hearth counts. -/
def phaseA (p : Port) (fr : Frame) (r a : Nat) (e : ElemIn) : Pix × List W × Comb × Nat :=
  let pb := fr.pb
  let cb := combOf pb p e
  let rv := recVals (nth e.ws)
  let w3 := nth e.ws 3
  let q := stage23 cb.s (fr.colOff p a) (fr.rowOffOf p r) rv (frameDt pb p) (frameH pb p)
  let cls := classOf (nth e.ws 0)
  let w10 := nth e.ws 10
  let a' :=
    if fr.scene ∧ cls ≤ 1 then
      sceneA (pb.portF p 7) (pb.fld 1) (fld w10 31 16) cb.e q.1 rv.a
        ([7, 0, 1].filterMap fun j => fr.nbP p (fld w3 23 16) r a j)
    else rv.a
  let w11 := nth e.ws 11
  let px : Pix :=
    { Pix.zero with valid := e.valid, p := q.1, cls := cls, w0 := nth e.ws 0, w3 := w3, w10 := w10,
                    w11 := wn (fld w11 31 16 * 65536 + min (fld w11 15 0 + cb.dropped) 65535),
                    incl := e.valid && !bitOf (nth e.ws 0) 31, doneA := true }
  (px, [wi a', wn cb.m, wn cb.v, nth e.ws 7], cb, cb.sats + q.2)

/-- The tap value of an element whose phase A has completed (R261): tap 1 the combined sample, tap 2 the stage-3 output; none with VALID = 0. -/
def Frame.tapValue (fr : Frame) (p : Port) (tap r a : Nat) : Option (BitVec 16) :=
  let x := fr.px p r a
  match x.raw with
  | some (_, _, sv) => if !x.valid then none else some (BitVec.ofInt 16 (if tap = 1 then satU 16 (rnd sv 8) else satS 16 (rnd x.p 8)))
  | none => none

/-- Writes the tap values of a group whose phase A has completed (R261), whole 64-bit words where every element has one (R244). -/
def State.tapGroup (s : State) (p : Port) (tail : Bool) (r col : Nat) : State :=
  match (s.port p).fr tail with
  | none => s
  | some fr =>
    let ad (st : Fin 8) (a : Nat) : Nat := streamBase st + (r * fr.pb.cols p + a) * 2
    let half (v : BitVec 16) : List Byte := (wordBytes (v.zeroExtend 32)).take 2
    forEach fr.taps (fun e t => forEach [col, col + 4] (fun c t =>
      let vs := (List.range 4).map fun i => (c + i, fr.tapValue p e.2 r (c + i))
      if vs.all (·.2.isSome) then t.storeWrite (ad e.1 c) (vs.flatMap fun v => half (v.2.getD 0))
      else forEach vs (fun v t => match v.2 with
        | some x => t.storeWrite (ad e.1 v.1) (half x)
        | none => t) t) t) s

/-- The first write-back of R156 and the counts of phase A (R163, R170, R187), for one element; `w4` are words w4–w7 as the kernel leaves
them and `px` its pixel. -/
def State.endA (s : State) (p : Port) (tail : Bool) (r a : Nat) (e : ElemIn) (px : Pix) (w4 : List W) (cb : Comb) (sats : Nat) : State :=
  match (s.port p).fr tail with
  | none => s
  | some fr =>
    let hi := fld (fr.pb.portF p 10 1) 31 16
    let lo := fld (fr.pb.portF p 10 1) 15 0
    let raw := if e.got then some ((e.xs.filter fun x => hi ≤ x).length, (e.xs.filter fun x => x ≤ lo).length, cb.s) else none
    let s := s.modFrame p tail fun fr =>
      { (fr.setPx p r a { px with raw := raw }) with
        hearth := { fr.hearth with
          spikes := fr.hearth.spikes + (if e.valid then cb.dropped else 0)
          steps := fr.hearth.steps + (if e.valid then b2n cb.step else 0)
          sats := fr.hearth.sats + (if e.valid then sats else 0)
          invalid := fr.hearth.invalid + b2n (!e.valid) }
        patched := fr.patched || !e.got
        stat := statRaw raw fr.stat }
    if e.valid then s.storeWrite (recordAddr fr.pb p r a + 16) (wordsBytes w4) else s

/-! ### Phase B (R168, R169, R174, R179) -/

/-- The reference word of an element, none where it is unusable (R173, R174, R247). -/
def State.refOf (s : State) (p : Port) (fr : Frame) (k r a : Nat) : Option Int :=
  match fr.refs[k]? with
  | some (some j) =>
    let ad := slotAddr p fr.pb j r a
    if s.store.poison.contains (ad / 8) then none
    else refVal (s.storeWord ad) (fld (fr.pb.portF p 7 0) 7 4)
  | _ => none

/-- Stage 4 and 5 of one element: its pixel and whether it was replaced, fell back, ran a MODE 3 code. -/
def State.phaseB (s : State) (p : Port) (fr : Frame) (r a : Nat) (px : Pix) : Pix × Bool × Bool × Bool :=
  let mode := fld px.w3 25 24
  let repl := 2 ≤ px.cls
  let val := if repl then replaceP mode (fr.nbP p (fld px.w3 23 16) r a) else some px.p
  let hold := val.isNone
  let use := fr.refsUse p
  let r1 := if use = 0 then none else s.refOf p fr 0 r a
  let r2 := if use = 3 then s.refOf p fr 1 r a else none
  let r3 := if use = 3 then s.refOf p fr 2 r a else none
  let x := match val with
    | some v => v
    | none => r1.getD px.p
  let y := stage5 (fr.pb.portF p 7) use px.cls (fld px.w10 31 16) x r1 r2 r3
  ({ px with y := y.1, hold := hold, w10 := wn (fld px.w10 15 0 + 65536 * y.2),
             w11 := if repl ∧ px.valid then wn (fld px.w11 15 0 + 65536 * min (fld px.w11 31 16 + 1) 65535) else px.w11,
             doneB := true }, repl, hold, repl && mode == 3)

/-- The counts of phase B (R169, R170). -/
def State.endB (s : State) (p : Port) (tail : Bool) (r a : Nat) (px : Pix) (repl hold mode3 : Bool) : State :=
  s.modFrame p tail fun fr =>
    let n (b : Bool) := b2n (b && px.valid)
    { (fr.setPx p r a px) with
      hearth := { fr.hearth with
        rep2 := fr.hearth.rep2 + n (repl && px.cls == 2), rep3 := fr.hearth.rep3 + n (repl && px.cls == 3)
        rep4 := fr.hearth.rep4 + n (repl && px.cls == 4), fallback := fr.hearth.fallback + n hold
        mode3 := fr.hearth.mode3 + n mode3 } }

/-! ### Phase C (R181, R185) -/

/-- The valid neighbours' y of an element. -/
def Frame.nbY (fr : Frame) (p : Port) (r a : Nat) : List Int :=
  nbrs.filterMap fun d =>
    let r' : Int := r + d.1
    let a' : Int := a + d.2
    if 0 ≤ r' ∧ r' < fr.pb.rows p ∧ 0 ≤ a' ∧ a' < fr.pb.cols p then
      let x := fr.px p r'.toNat a'.toNat
      if x.valid && x.doneB then some x.y else none
    else none

def phaseC (p : Port) (fr : Frame) (r a : Nat) (px : Pix) : Pix :=
  let w := fr.pb.portF p 8 0
  let c := stage6 (bitOf w 0) (fld w 24 16) (fld (fr.pb.portF p 8 1) 23 0) px.y (fr.nbY p r a)
  let zc := zoneConst fr.pb p (radZone fr.pb p r a)
  { px with c := c, cobj := cobjOf c zc.1 zc.2, doneC := true }

/-! ### A whole invocation -/

/-- The three phases of a group by the reference arithmetic (R158): row `r` for phase A, `r` − 2 for B, `r` − 4 for C. -/
def State.groupRun (s : State) (p : Port) (tail : Bool) (r col : Nat) : State :=
  match (s.port p).fr tail with
  | none => s
  | some fr0 =>
    let rows := fr0.pb.rows p
    let els := List.range 8
    let s := if r < rows then s.groupCheck p fr0 r col else s
    let s := if r < rows then
        (forEach els (fun i t =>
          match (t.port p).fr tail with
          | none => t
          | some fr =>
            let e := t.elemIn p fr r (col + i)
            let q := phaseA p fr r (col + i) e
            t.endA p tail r (col + i) e q.1 q.2.1 q.2.2.1 q.2.2.2) s).tapGroup p tail r col
      else s
    let s := if 2 ≤ r ∧ r - 2 < rows then
        forEach els (fun i t =>
          match (t.port p).fr tail with
          | none => t
          | some fr =>
            let q := t.phaseB p fr (r - 2) (col + i) (fr.px p (r - 2) (col + i))
            t.endB p tail (r - 2) (col + i) q.1 q.2.1 q.2.2.1 q.2.2.2) (s.refsCheck p fr0 (r - 2) col)
      else s
    if 4 ≤ r ∧ r - 4 < rows then
      forEach els (fun i t =>
        t.modFrame p tail fun fr =>
          fr.setPx p (r - 4) (col + i) (phaseC p fr (r - 4) (col + i) (fr.px p (r - 4) (col + i)))) s
    else s

/-! ### When an invocation may run (R123, R140, R160, R161, R175, R287) -/

/-- Whether the group of column `col` has completed invocation `r`. -/
def Frame.invDone (fr : Frame) (p : Port) (r col : Nat) : Bool :=
  let rows := fr.pb.rows p
  (rows ≤ r || (fr.px p r col).doneA) && (r < 2 || rows ≤ r - 2 || (fr.px p (r - 2) col).doneB) &&
    (r < 4 || rows ≤ r - 4 || (fr.px p (r - 4) col).doneC)

/-- Whether a lane takes work: no retirement or test in progress, its cluster in service and clocked (R140, R287, R455). What is rotated out or
parked for the partner at a meridian finishes the frame that ended there, `tail`, first (R24). -/
def State.laneServes (s : State) (l : LaneNo) (tail : Bool) : Bool :=
  let k := s.cluster (clusterOf l)
  let ok (n : BitVec 4) : Bool := n == 0 || (tail && (n == 6 || n == 8))
  ok (s.unit (uLane l)).st && ok (s.unit (uCluster (clusterOf l))).st && k.mhz != 0 && !k.stopped

/-- Whether the sequencer still waits for the lane of a band at row `r` − 1 (R160): a lane on its way to retirement is not waited for. -/
def State.waitsFor (s : State) (p : Port) (fr : Frame) (r : Nat) (b : Band) : Bool :=
  let u := (s.unit (uLane b.lane)).st
  !(u == 4 || u == 5) &&
    !((List.range (b.width / 8)).all fun g => fr.invDone p (r - 1) (b.first + 8 * g))

/-- Whether reference 1's words of a group are still to come from the frame before (R175). -/
def State.refWaits (s : State) (p : Port) (fr : Frame) (r col : Nat) : Bool :=
  fr.refsUse p != 0 &&
  match (s.port p).tail, fr.refs[0]? with
  | some t, some (some j) =>
    t.slot == some j && t.processed && !t.deadlinePassed && t.m != fr.m &&
      (List.range 8).any fun i => (t.px p r (col + i)).word.isNone
  | _, _ => false

/-- Whether the group of lane `l` at (`r`, `col`) may be invoked now. A new frame's waits for its row's merge (R218) and for the kernel and
the clock of its cluster (R97, R455). -/
def State.mayInvoke (s : State) (p : Port) (fr : Frame) (l : LaneNo) (r col : Nat) : Bool :=
  let rows := fr.pb.rows p
  match fr.bands.idxOf? (fr.bands.find? (fun b => b.lane == l) |>.getD ⟨l, 0, 0⟩) with
  | none => false
  | some j =>
    match fr.bands[j]? with
    | none => false
    | some b =>
      let near := (if j = 0 then [] else [fr.bands[j - 1]?]) ++ [some b, fr.bands[j + 1]?]
      fr.started && fr.processed && !fr.deadlinePassed && s.laneServes l fr.ended && (s.lane l).invoc.isNone &&
        b.first ≤ col && col < b.first + b.width && (col - b.first) % 8 == 0 && r < rows + 4 &&
        !fr.invDone p r col && (r == 0 || fr.invDone p (r - 1) col) &&
        (rows ≤ r || fr.rowSettled p (fr.pb.blindRows p + r)) &&
        (r == 0 || near.all fun n => match n with | some n => !s.waitsFor p fr r n | none => true) &&
        !(2 ≤ r && r - 2 < rows && s.refWaits p fr (r - 2) col) &&
        (fr.ended || !(r < rows && s.transit.mergePort == some p && !s.transit.mergedRows.contains r)) &&
        (fr.ended || (((s.cluster (clusterOf l)).next.isNone || !s.tailsIn (clusterOf l)) && (s.cluster (clusterOf l)).clkNext.isNone))

end Sys2Proof.Machine
end

