-- ==== Sys2Proof/Machine/HearthCmds.lean ====
section
/-! DEFINITION. Hearth invocations, YIELD, the radiometric unit's rows, the frame deadline, invocation timeouts, retries and
notification delivery (R46, R64, R75, R149, R156–R161, R175–R177, R186, R187, R191, R290, R291, R296, R297). -/
namespace Sys2Proof.Machine

/-! ### Tile arrays (R139, R159, R160, R176)

The sequencer's buffers lie in the lower 30 KiB of the lane's own partition; their order and where the first begins are the
sequencer's own (log entry 14). Kinds: 0 VALID, 1 P, 2 w0, 3 w3, 4 w10, 5 w11, 6 Y, 7 flags, 8 output, 9 references, 10 cr, 11 IE,
12 column offsets, 13 record slots, 14 samples. -/

/-- Arrays of a kind: four of those that rotate over four rows, three of w10 and of the references. -/
def arrPlaces (kind : Nat) : Nat :=
  if kind = 0 ∨ kind = 1 ∨ kind = 6 ∨ kind = 7 then 4 else if kind = 4 ∨ kind = 9 then 3 else 1

/-- Whether the arrays of a kind hold 8 columns of halo on each side; VALID arrays do too, so that a kernel finds the halo marked
outside the array (R160, log entry 14). -/
def arrHalo (kind : Nat) : Bool := kind == 0 || kind == 1 || kind == 6 || kind == 7

/-- Bytes of an array: 224 columns (R144), with halo 240, the record slots of a group, its samples. -/
def arrSize (kind : Nat) : Nat := if arrHalo kind then 960 else if kind = 13 then 512 else if kind = 14 then 256 else 896

/-- Every array of a lane as (kind, place): 27,776 bytes together. -/
def arrList : List (Nat × Nat) := (List.range 15).flatMap fun k => (List.range (arrPlaces k)).map fun q => (k, q)

/-- Whether array `x` of a lane lies before array `y`. -/
def arrBefore (l : LaneNo) (x y : Nat × Nat) : Bool :=
  let i (a : Nat × Nat) : Nat := 16 * a.1 + a.2
  let k (a : Nat × Nat) : Nat := (Config.tileBase (i a) l.val).toNat
  decide (k x < k y) || (decide (k x = k y) && decide (i x < i y))

/-- Offset of an array in the lane's partition: below 0x7800 (R139). -/
def arrOff (l : LaneNo) (kind place : Nat) : Nat :=
  64 * ((Config.tileBase 1000 l.val).toNat % 46) +
    ((arrList.filter fun x => arrBefore l x (kind, place)).map fun x => arrSize x.1).foldl (· + ·) 0

/-- Address of an array in the lane's map (R41, R139). -/
def arrAddr (l : LaneNo) (kind place : Nat) : Nat := 0x10000 + 0x8000 * (l.val % 8) + arrOff l kind place

/-- The base that the row-constant block names: a VALID array's is its element 0, before which its halo lies. -/
def arrBase (l : LaneNo) (kind place : Nat) : W := wn (arrAddr l kind place + (if kind = 0 then 32 else 0))

/-- Address of the element of active column `a` for the band that starts at `first`. -/
def elemAddr (l : LaneNo) (kind place first : Nat) (a : Int) : Nat :=
  arrAddr l kind place + (4 * (a - first + (if arrHalo kind then 8 else 0))).toNat

/-- The array of a kind that serves a row: the arrays rotate from row to row (R176). -/
def placeOfRow (kind : Nat) (r : Int) : Nat := if arrHalo kind then (r % 4).toNat else if kind = 4 then (r % 3).toNat else 0

/-! ### Constants (R75, R149, R159, R176) -/

/-- The row-constant block of a row (R159, R176). -/
def rowConsts (p : Port) (fr : Frame) (l : LaneNo) (r : Nat) : List W :=
  let rows := fr.pb.rows p
  let at' (kind : Nat) (d : Int) : W := arrBase l kind (placeOfRow kind ((r : Int) - d))
  let on (d : Nat) : Bool := d ≤ r && r - d < rows
  let refs := bitsOf (fun i => match fr.refs[i]? with | some (some _) => true | _ => false) 3
  [wn r, wi (if r < rows then fr.rowOffOf p r else 0), wn (b2n (on 0) + 2 * b2n (on 2) + 4 * b2n (on 4)), wi ((r : Int) - 2),
    wi ((r : Int) - 4), arrBase l 12 0, at' 0 0, at' 0 1, at' 0 2, at' 0 3, at' 1 1, at' 1 2, at' 1 3, at' 2 2, at' 3 2, at' 4 2,
    at' 4 4, at' 5 4, at' 8 4, at' 6 2, at' 6 3, at' 6 4, at' 6 5, arrBase l 9 0, arrBase l 9 1, arrBase l 9 2,
    wn (refs + 16 * fr.refsUse p), at' 7 2, at' 7 4, at' 7 5, arrBase l 10 0, arrBase l 11 0] ++
    List.replicate 32 0

/-- The frame-constant block (R149). -/
def State.frameConsts (s : State) (p : Port) (fr : Frame) (b : Band) : List W :=
  [wi (frameDt fr.pb p), wi (frameH fr.pb p), wn (p.val + 16 * fr.profile.toNat + 256 * fr.stage), s.agreedOf p fr.m,
    wn fr.sgen.toNat, fr.egen, wn (fld (fr.pb.portF p 5 0) 7 0 * fld (fr.pb.portF p 5 0) 7 0), wn (b.first + 65536 * b.width)] ++
    List.replicate 56 0

/-- Writes whole words into a lane's local memory, with fresh check bits (R43). -/
def Lane.putLocal (x : Lane) (a : Nat) (ws : List W) : Lane :=
  let keep (w : Nat) : Bool := w < a / 4 || a / 4 + ws.length ≤ w
  { x with loc := Mem.write x.loc a (wordsBytes ws), locBad := x.locBad.filter keep, locSoft := x.locSoft.filter keep }

/-- Before a lane's first invocation of a frame the frame constants are written, and before its invocations of a row the row constants
(R75, R159). -/
def State.constsPlace (s : State) (l : LaneNo) (p : Port) (fr : Frame) (b : Band) (row : Nat) : State :=
  let fc := s.frameConsts p fr b
  s.modLane l fun x =>
    let x := if x.fcOf = some (p, fr.m) then x else { x.putLocal 0x1F00 fc with fcOf := some (p, fr.m) }
    if x.rcOf = some (p, fr.m, row) then x else { x.putLocal 0x1E00 (rowConsts p fr l row) with rcOf := some (p, fr.m, row) }

/-! ### What the sequencer places in tile memory (R159, R160, R175–R177) -/

/-- Writes of whole words into tile memory, by address in a lane's map, with fresh check bits (R43). -/
def Cluster.putTile (k : Cluster) (ws : List (Nat × List Byte)) : Cluster :=
  let fresh (w : Nat) : Bool := ws.any fun x => decide (x.1 ≤ 4 * w + 0x10000) && decide (4 * w + 0x10000 < x.1 + x.2.length)
  { k with tile := ws.foldl (fun m x => Mem.write m (x.1 - 0x10000) x.2) k.tile
           tileBad := k.tileBad.filter fun w => !fresh w, tileSoft := k.tileSoft.filter fun w => !fresh w }

/-- The record slots of a group (R75, R290). -/
def slotWrites (l : LaneNo) (els : List ElemIn) : List (Nat × List Byte) :=
  (els.zip (List.range 8)).map fun x => (arrAddr l 13 0 + 64 * x.2, wordsBytes x.1.ws)

/-- Words for consecutive columns of an array from column `a` on. -/
def arrWrites (l : LaneNo) (kind place first : Nat) (a : Int) (ws : List W) : List (Nat × List Byte) :=
  [(elemAddr l kind place first a, wordsBytes ws)]

/-- The element of a frame at a place that may lie outside the array (R160). -/
def Frame.pxAt (fr : Frame) (p : Port) (x a : Int) : Pix :=
  if 0 ≤ x ∧ x < fr.pb.rows p ∧ 0 ≤ a ∧ a < fr.pb.cols p then fr.px p x.toNat a.toNat else Pix.zero

/-- What the sequencer places for a group: record slots, samples, the arrays of the rows it works on over the group's columns, and of the
arrays with halo the 8 columns on each side too, marked outside the array where it ends. Of the flags of row `r` − 2 it writes
VALID alone (R177), of the references those in use (R175). -/
def State.tileWrites (s : State) (p : Port) (fr : Frame) (l : LaneNo) (first r col : Nat) (els : List ElemIn) :
    List (Nat × List Byte) :=
  let rows := fr.pb.rows p
  let r' : Int := r
  let grp : List Int := (List.range 8).map fun (i : Nat) => (col : Int) + i
  let wide : List Int := (List.range 24).map fun (i : Nat) => (col : Int) - 8 + i
  let put (kind : Nat) (d : Int) (f : Pix → W) : List (Nat × List Byte) :=
    arrWrites l kind (placeOfRow kind (r' - d)) first col (grp.map fun a => f (fr.pxAt p (r' - d) a))
  let halo (kind : Nat) (d : Int) (f : Pix → W) : List (Nat × List Byte) :=
    arrWrites l kind (placeOfRow kind (r' - d)) first ((col : Int) - 8) (wide.map fun a => f (fr.pxAt p (r' - d) a))
  let valid (x : Pix) : W := wn (b2n x.valid)
  let flags (x : Pix) : W := wn (b2n x.valid + 2 * b2n x.incl + 4 * b2n x.hold)
  let samples : List (Nat × List Byte) := (List.range (fr.pb.nSamp p)).map fun k =>
    (arrAddr l 14 0 + 16 * k, els.flatMap fun e => (wordBytes (wn (e.xs.getD k 0))).take 2)
  let refs : List (Nat × List Byte) :=
    if 2 ≤ r ∧ r - 2 < rows then
      (List.range (fr.refsUse p)).flatMap fun k =>
        arrWrites l 9 k first col (grp.map fun a => s.fillWord p fr.pb (fr.refs.getD k none) (r - 2) a.toNat)
    else []
  let zc (a : Int) : Int × Int := zoneConst fr.pb p (radZone fr.pb p (r - 4) a.toNat)
  (if r < rows then slotWrites l els ++ samples else []) ++
    arrWrites l 12 0 first col (grp.map fun a => wi (fr.colOff p a.toNat)) ++
    arrWrites l 0 (placeOfRow 0 r') first col ((List.range 8).map fun i => wn (b2n (els[i]?.any (·.valid)))) ++
    [1, 2, 3].flatMap (fun (d : Int) => halo 0 d valid ++ halo 1 d fun x => wi x.p) ++
    put 2 2 (·.w0) ++ put 3 2 (·.w3) ++ put 4 2 (·.w10) ++ put 4 4 (·.w10) ++ put 5 4 (·.w11) ++
    [3, 4, 5].flatMap (fun (d : Int) => halo 6 d fun x => wi x.y) ++ halo 7 2 valid ++ halo 7 4 flags ++ halo 7 5 flags ++ refs ++
    arrWrites l 10 0 first col (grp.map fun a => wi (zc a).1) ++ arrWrites l 11 0 first col (grp.map fun a => wi (zc a).2)

/-! ### Start and end of a group's invocation (R75, R156, R160, R290) -/

/-- The band of a lane in a frame. -/
def Frame.bandOf (fr : Frame) (l : LaneNo) : Band := (fr.bands.find? fun b => b.lane == l).getD ⟨l, 0, 0⟩

/-- Sets g1 to g6, as the sequencer does before an invocation. -/
def Ctx.setRegs (c : Ctx) (g : List W) : Ctx :=
  (g.zip (List.range 6)).foldl (fun c e => c.put ⟨(e.2 + 1) % 16, by omega⟩ e.1) c

/-- The invocation registers of a frame kernel (R75, R159). -/
def hearthRegs (l : LaneNo) (row col first : Nat) : List W :=
  [wn row, wn col, arrBase l 13 0, arrBase l 14 0, wn (elemAddr l 1 (placeOfRow 1 row) first col), 0x1F00]

/-- The lane starts at the kernel's entry point, its flags as they were and no loop level open (R45, R75, log entry 142); a program
counter has its two low bits zero (R44, log entry 177). -/
def State.invocGo (s : State) (l : LaneNo) (v : Invoc) (first : Nat) : State :=
  let entry := (s.cluster (clusterOf l)).entry
  s.modLane l fun x =>
    { x with invoc := some v, v := v.v0, p := v.p0,
             ctx := { v.ctx0.setRegs (hearthRegs l v.row v.col first) with
               pc := wn entry.toNat &&& 0xFFFFFFFC, loops := [], block := .ready } }

/-- The start of a group's invocation: the store's words are read and checked, the buffers filled, copies kept for a retry (R290), the lane
set off. -/
def State.invocStart (s : State) (l : LaneNo) (p : Port) (tail : Bool) (fr : Frame) (r col : Nat) : State :=
  let rows := fr.pb.rows p
  let first := (fr.bandOf l).first
  let s := if r < rows then s.groupCheck p fr r col else s
  let s := if 2 ≤ r ∧ r - 2 < rows then s.refsCheck p fr (r - 2) col else s
  let els := if r < rows then (List.range 8).map fun i => s.elemIn p fr r (col + i) else []
  let w10 (d : Nat) : List W := (List.range 8).map fun i => (fr.pxAt p ((r : Int) - d) ((col + i : Nat) : Int)).w10
  let ws := s.tileWrites p fr l first r col els
  let x := s.lane l
  (s.modCluster (clusterOf l) fun k => k.putTile ws).invocGo l
    { port := p, tail := tail, row := r, col := col, els := els, w10B := w10 2, w10C := w10 4, ctx0 := x.ctx, v0 := x.v, p0 := x.p }
    first

/-- The words of tile memory that the sequencer reads back from a group (R156, R160). -/
def groupReads (l : LaneNo) (v : Invoc) (rows first : Nat) (late : Bool) : List Nat :=
  let at' (kind x a : Nat) : Nat := elemAddr l kind (placeOfRow kind x) first a - 0x10000
  let slots := ((v.els.zip (List.range 8)).filter (·.1.valid)).flatMap fun x =>
    (if late then [4, 5, 6, 7] else [4, 5, 6, 7, 10, 11]).map fun k => arrAddr l 13 0 - 0x10000 + 64 * x.2 + 4 * k
  let back (d : Nat) (kinds : List Nat) : List Nat :=
    if late ∨ v.row < d ∨ rows ≤ v.row - d then []
    else (List.range 8).flatMap fun i => kinds.map fun k => at' k (v.row - d) (v.col + i)
  slots ++ back 0 [1] ++ back 2 [6, 7, 4] ++ back 4 [8, 4, 5]

/-- Reads back what the kernel left for a group, correcting what can be (R43; log entry 178), and makes its first write-back (R156, R160): the phases that were on. An invocation that
ran at the frame deadline still makes that write-back; what it leaves of the frame's elements has been filled (R161, R297; log entry 154). -/
def State.writeBack (s : State) (l : LaneNo) (v : Invoc) : State :=
  let p := v.port
  match (s.port p).fr v.tail with
  | none => s
  | some fr0 =>
    if !fr0.processed then s
    else
      let rows := fr0.pb.rows p
      let first := (fr0.bandOf l).first
      let s := forEach (groupReads l v rows first fr0.deadlinePassed) (fun a t => t.softFix (.lane l) (.tile a)) s
      let m := (s.cluster (clusterOf l)).tile
      let wd (kind x a : Nat) : W := Mem.word m (elemAddr l kind (placeOfRow kind x) first a - 0x10000)
      let slot (i k : Nat) : W := Mem.word m (arrAddr l 13 0 - 0x10000 + 64 * i + 4 * k)
      let w4 (i : Nat) : List W := [4, 5, 6, 7].map (slot i)
      if fr0.deadlinePassed then
        forEach (v.els.zip (List.range 8)) (fun x t =>
          if x.1.valid then t.storeWrite (recordAddr fr0.pb p v.row (v.col + x.2) + 16) (wordsBytes (w4 x.2)) else t) s
      else
        let s := (forEach (v.els.zip (List.range 8)) (fun x t =>
          match (t.port p).fr v.tail with
          | none => t
          | some fr =>
            let a := v.col + x.2
            let q := phaseA p fr v.row a x.1
            let px := { q.1 with p := (wd 1 v.row a).toInt, w11 := slot x.2 11, w10 := slot x.2 10 }
            t.endA p v.tail v.row a x.1 px (w4 x.2) q.2.2.1 q.2.2.2) s).tapGroup p v.tail v.row v.col
        forEach (List.range 8) (fun i t =>
          let a := v.col + i
          let t := if 2 ≤ v.row ∧ v.row - 2 < rows then
              (match (t.port p).fr v.tail with
               | none => t
               | some fr =>
                 let x := v.row - 2
                 let old := fr.px p x a
                 let q := t.phaseB p fr x a old
                 let f := wd 7 x a
                 let px := { old with y := (wd 6 x a).toInt, incl := bitOf f 1, hold := bitOf f 2, w10 := wd 4 x a, w11 := q.1.w11,
                                      doneB := true }
                 t.endB p v.tail x a px q.2.1 (bitOf f 2) q.2.2.2)
            else t
          if 4 ≤ v.row ∧ v.row - 4 < rows then
            t.modFrame p v.tail fun fr =>
              let x := v.row - 4
              fr.setPx p x a { fr.px p x a with cobj := (wd 8 x a).toInt, w10 := wd 4 x a, w11 := wd 5 x a, doneC := true }
          else t) s

/-! ### HEARTH_INVOCATION and YIELD -/

/-- The kernel that waits for the last invocation of the earlier frame loads before the first of the new one (R97). -/
def State.kernelTake (s : State) (k : Fin 12) : State :=
  match (s.cluster k).next with
  | some n => if s.tailsIn k then s else s.kernelLoad k n
  | none => s

/-- HEARTH_INVOCATION (R158): `whole` runs the group's phases at once by the reference arithmetic, which every frame kernel is required
to meet; otherwise the lane starts the loaded kernel and the group ends at its YIELD (log entry 8). -/
def execHearthInvocation (p : Port) (tail : Bool) (l : LaneNo) (row col : Nat) (whole : Bool) (s : State) : Out :=
  if s.thermal.held then .next s
  else match (s.port p).fr tail with
    | none => .next s
    | some fr =>
      if !s.mayInvoke p fr l row col then .next s
      else
        let b := fr.bandOf l
        let s := (s.kernelTake (clusterOf l)).constsPlace l p fr b row
        .next (if whole then (((s.modLane l fun x => { x with ctx := x.ctx.setRegs (hearthRegs l row col b.first) }).groupRun p tail row
            col).count (96 + l.val) 1).clocksTake
          else s.invocStart l p tail fr row col)

/-- The end of a lane's invocation (R64, R75, R156): its results are written back, the group is counted (R478); a retry that reaches it
has succeeded (R289). -/
def State.invocEnd (s : State) (l : LaneNo) : State :=
  let s := match (s.lane l).invoc with
    | some v => s.writeBack l v
    | none => s
  ((((s.modLane l fun x => { x with invoc := none }).count (96 + l.val) 1).retryDone (uLane l)).settleUnit (uLane l)).clocksTake

/-- YIELD (R46, R64): on an engine the next ready context runs; in a lane the invocation ends. -/
def execYield (z : Zx) (s : State) : Out :=
  s.zx z true fun c s =>
    let t := s.done z.agent c
    match z.agent with
    | .eng e => t.switch e
    | .lane l => t.invocEnd l

/-- The retry of a lane (R290): the retained registers, the record slots and the group's elements of the w10 arrays are restored from the
copies kept, and the group is invoked again. -/
def State.laneRetry (s : State) (l : LaneNo) : State :=
  match (s.lane l).abandoned with
  | some v =>
    let s := s.modLane l fun x => { x with abandoned := none }
    (match (s.port v.port).fr v.tail with
     | none => s
     | some fr =>
       let first := (fr.bandOf l).first
       let back (d : Nat) (ws : List W) : List (Nat × List Byte) := arrWrites l 4 (placeOfRow 4 ((v.row : Int) - d)) first v.col ws
       (s.modCluster (clusterOf l) fun k => k.putTile (slotWrites l v.els ++ back 2 v.w10B ++ back 4 v.w10C)).invocGo l v first)
  | none => s

/-- INVOCATION_TIMEOUT (R291): a detected error of the lane with cause 0xFE. -/
def execInvocationTimeout (l : LaneNo) (s : State) : Out :=
  if s.thermal.held ∨ (s.lane l).invoc.isNone then .next s
  else
    let t := s.detect (uLane l) 0xFE
    .next ((if (t.unit (uLane l)).st = 0 then t.dropInvoc l else t).settleUnit (uLane l))

/-! ### RADIOMETRIC_ROW (R186) -/

/-- The corrected word of an element and what goes with it: K's range mark. -/
def State.corrected (s : State) (p : Port) (fr : Frame) (r a : Nat) (px : Pix) : W × Nat :=
  if px.valid then
    let w := fr.pb.portF p 9 0
    let k := kelvin (fr.pb.radTable p) (bitOf w 16) (fld w 15 0) (fld (fr.pb.portF p 9 1) 6 0) px.hold (fld px.w10 15 0) px.cobj
    let y := BitVec.ofInt 16 (satS 16 (rnd px.y (fld (fr.pb.portF p 7 0) 7 4)))
    (wn (k.1 + 65536 * y.toNat), k.2)
  else (s.fillWord p fr.pb ((s.port p).prevFor fr) r a, 0)

/-- One element leaves stage 8: its word goes into the statistics, w10 and w11 into its record (R156, R173, R186, R187). -/
def State.elemOut (s : State) (p : Port) (tail : Bool) (r a : Nat) : State :=
  match (s.port p).fr tail with
  | none => s
  | some fr =>
    let px := fr.px p r a
    let s := if px.valid then s else s.slotCheck p fr.pb ((s.port p).prevFor fr) r a 1
    let q := s.corrected p fr r a px
    let k := fld q.1 15 0
    let px := { px with word := some q.1, w10 := if px.valid then wn (k + 65536 * fld px.w10 31 16) else px.w10 }
    let s := s.modFrame p tail fun fr =>
      let fr := fr.setPx p r a px
      { fr with
        patched := fr.patched || (!px.valid && ((s.port p).prevFor fr).isNone)
        stat :=
          if px.valid && px.incl then
            let st := statAdd fr.pb p r a k fr.stat
            { st with underK := st.underK + b2n (q.2 == 1), overK := st.overK + b2n (q.2 == 2) }
          else fr.stat }
    if px.valid then s.storeWrite (recordAddr fr.pb p r a + 40) (wordsBytes [px.w10, px.w11]) else s

/-- The corrected words of the group from column `a` on go to the frame's slot, whole 64-bit words at a time (R186, R244). -/
def State.groupSlot (s : State) (p : Port) (tail : Bool) (r a : Nat) : State :=
  match (s.port p).fr tail with
  | none => s
  | some fr =>
    match fr.slot with
    | some j => s.storeWrite (slotAddr p fr.pb j r a) (wordsBytes ((List.range 8).map fun i => ((fr.px p r (a + i)).word.getD 0)))
    | none => s

/-- One group of a row leaves stage 8, unless it was given up (R285). -/
def State.groupOut (s : State) (p : Port) (tail : Bool) (r a : Nat) : State :=
  match (s.port p).fr tail with
  | none => s
  | some fr =>
    if (fr.px p r a).lost then s
    else (forEach ((List.range 8).map (a + ·)) (fun a t => t.elemOut p tail r a) s).groupSlot p tail r a

/-- Whether the frame that ended last has still to evaluate a zone: the next frame's evaluation follows it (R194). -/
def State.zoneWaits (s : State) (p : Port) (z : Fin 16) : Bool :=
  (s.port p).tail.any fun fr => fr.processed && !fr.statDone && !(fr.stat.zones.get z).done

/-- In WATCH a zone is evaluated as soon as its last row has left stage 8 (R195). -/
def State.earlyZones (s : State) (p : Port) (tail : Bool) : State :=
  forEach (allFin 16) (fun z t =>
    match (t.port p).fr tail with
    | none => t
    | some fr =>
      let rw := watchFld fr.pb p z 0
      let cw := watchFld fr.pb p z 1
      let last := min (fld rw 27 16) (fr.pb.rows p - 1)
      if fr.profile = 1 ∧ (tail || !t.zoneWaits p z) ∧ rectHas rw cw (fld rw 11 0) (fld cw 11 0) ∧ !(fr.stat.zones.get z).done ∧
          (List.range (fr.pb.cols p)).all fun a => (fr.px p last a).word.isSome then
        (t.modFrame p tail fun fr => { fr with stat := { fr.stat with early := true } }).zoneEval p tail z
      else t) s

/-- RADIOMETRIC_ROW (R186): the words of one band of a row, once the lanes have completed the band's phase C for it. -/
def execRadiometricRow (p : Port) (tail : Bool) (l : LaneNo) (row : Nat) (s : State) : Out :=
  if s.thermal.held then .next s
  else match (s.port p).fr tail with
    | none => .next s
    | some fr =>
      match fr.bands.find? fun b => b.lane == l with
      | none => .next s
      | some b =>
        let as' := (List.range b.width).map (b.first + ·)
        if !fr.processed || fr.pb.rows p ≤ row || !(as'.all fun a => (fr.px p row a).doneC && (fr.px p row a).word.isNone) then .next s
        else .next (((forEach ((List.range (b.width / 8)).map fun g => b.first + 8 * g) (fun a t => t.groupOut p tail row a) s).earlyZones p
          tail).tryComplete p tail |>.earlyZones p false)

/-! ### The frame deadline (R297) -/

/-- One unfinished tile takes the previous corrected frame's words. -/
def State.patchTile (s : State) (p : Port) (t : Nat) : State :=
  match (s.port p).tail with
  | none => s
  | some fr =>
    let prev := (s.port p).prevFor fr
    let px := tilePix fr.pb p t
    let left (x : Pix) : Bool := !x.doneC || x.lost
    let late := (fr.bands.filter fun b => px.any fun q => b.first ≤ q.2 && q.2 < b.first + b.width && left (fr.px p q.1 q.2)).map (·.lane)
    let g := tileRect fr.pb p t
    let s := forEach ((List.range g.2.1).map (g.1 + ·)) (fun r u =>
      let u := u.slotCheck p fr.pb prev r g.2.2.1 g.2.2.2
      let ws := (List.range g.2.2.2).map fun i => u.fillWord p fr.pb prev r (g.2.2.1 + i)
      let u := forEach ((List.range g.2.2.2).zip ws) (fun x u => u.modFrame p true fun fr =>
        let a := g.2.2.1 + x.1
        fr.setPx p r a { fr.px p r a with valid := false, word := some x.2 }) u
      match fr.slot with
      | some j => u.storeWrite (slotAddr p fr.pb j r g.2.2.1) (wordsBytes ws)
      | none => u) s
    let s := s.modFrame p true fun fr =>
      { fr with patched := true, tilesPatched := fr.tilesPatched ++ [t],
                hearth := { fr.hearth with patchTiles := fr.hearth.patchTiles + 1 } }
    let s := s.modFm fun m => { m with patch := satAdd m.patch 1 }
    forEach late (fun l u => u.occur (srcLane l 2)) s

/-- The counts of the statistics unit over the elements that no patch has filled (R187, R189, R297): every element of an unfinished tile is
filled, those counted before the deadline too. -/
def State.recount (s : State) (p : Port) (fr : Frame) : StatAcc :=
  let st := fr.stat
  let zero : StatAcc :=
    { st with incl := 0, sumK := 0, lo := 0xFFFF, hi := 0, satHi := 0, satLo := 0, sumS := 0, combined := 0, underK := 0, overK := 0, hist := []
              zones := updAll st.zones fun _ y => { y with incl := 0, hot := 0, sum := 0, lo := 0xFFFF, hi := 0 } }
  (List.range (fr.pb.rows p)).foldl (fun acc r => (List.range (fr.pb.cols p)).foldl (fun acc a =>
    let px := fr.px p r a
    if fr.tilesPatched.contains (r / 64 * fr.pb.tilesAcross p + a / 64) then acc
    else
      let acc := statRaw px.raw acc
      match px.word with
      | some w =>
        if px.valid && px.incl then
          let q := (s.corrected p fr r a px).2
          let acc := statAdd fr.pb p r a (fld w 15 0) acc
          { acc with underK := acc.underK + b2n (q == 1), overK := acc.overK + b2n (q == 2) }
        else acc
      | none => acc) acc) zero

/-- What the deadline of the frame that ended last does: unfinished tiles are patched, the frame flagged, its record completes; its
pixels count as taken (R24, R124, R189, R297). -/
def State.deadline (s : State) (p : Port) : State :=
  match (s.port p).tail with
  | none => s
  | some fr =>
    if fr.deadlinePassed then s
    else
      let s := s.modFrame p true fun fr => { fr with deadlinePassed := true }
      let s := forEach ((allFin 96).filter fun l => (s.lane l).abandoned.any fun v => v.port == p && v.tail) (fun l t => t.noRetry l) s
      if !fr.processed || fr.statDone then s
      else
        let unfinished := (List.range (fr.pb.tileCount p)).filter fun t =>
          (tilePix fr.pb p t).any fun q => (fr.px p q.1 q.2).word.isNone
        let s := forEach unfinished (fun t u => u.patchTile p t) s
        let s :=
          if unfinished.isEmpty then s
          else
            match (s.port p).tail with
            | some f => s.modFrame p true fun g => { g with stat := s.recount p f }
            | none => s
        let s := if unfinished.isEmpty then s
          else (if fr.patched then s else s.occur (srcPort p 9)).markStreams p fr.m true false none
        s.frameComplete p true

/-- FRAME_DEADLINE (R24, R297): with it nothing of the frame is left in the lanes, and a clock that waited changes (R140, R455). -/
def execFrameDeadline (p : Port) (s : State) : Out := if s.thermal.held then .next s else .next ((s.deadline p).earlyZones p false).clocksTake

/-! ### STATS_NOTIFY_DELIVER (R191) -/

/-- STATS_NOTIFY_DELIVER (R191): the pending word enters PSn channel 15 as it has room, and is cleared. -/
def execStatsNotifyDeliver (p : Port) (s : State) : Out :=
  let e : Eng := ⟨p.val + 1, by omega⟩
  let w := (s.port p).notify
  if s.thermal.held ∨ w &&& (0xFFFF0003 : W) = 0 ∨ 4 ≤ ((s.eng e).chans.get 15).length then .next s
  else
    let s := s.modEng e fun en => { en with chans := upd en.chans 15 (· ++ [w]) }
    .next ((s.latch e 0 24).modPort p fun x => { x with notify := 0 })

end Sys2Proof.Machine
end

