-- ==== Sys2Proof/Machine/TransitOps.lean ====
section
/-! DEFINITION. Transits: due ports, what holds them back, the dome sequence, flat-field arithmetic, commit and merge; production loads
and restores (R199–R230). -/
namespace Sys2Proof.Machine

/-! ### Parameters of block 0x001 (R199) -/

def State.autoOn (s : State) (p : Port) : Bool := bitOf (s.t1 0) p.val
def State.sceneAllowed (s : State) (p : Port) : Bool := bitOf (s.t1 0) (8 + p.val)

/-- Whether the transit unit is in steps 2 to 7 (R200). -/
def State.inTransit (s : State) : Bool := s.transit.cur.isSome || s.transit.mergePort.isSome

/-! ### Becoming due (R202, R205) -/

/-- The port joins the queue, or is marked as requested where it waits already. -/
def State.transitDue (s : State) (p : Port) (req : Bool) : State :=
  s.modTransit fun t =>
    if t.queue.any fun q => q.1 = p then { t with queue := t.queue.map fun q => if q.1 = p then (p, q.2 || req) else q }
    else { t with queue := t.queue ++ [(p, req)] }

/-- The triggers of a port, evaluated at its meridian with the parameters in force after it (R202). -/
def State.transitTriggers (s : State) (p : Port) : State :=
  let pb := s.params.force
  let s := if s.intervalOver p then s.modTPort p fun x => { x with overdue := true } else s
  let busy := s.transit.cur.any fun c => c.port = p
  if !s.autoOn p || (s.port p).st != .running || busy then s
  else
    let start := (s.tport p).startNow
    let temp := (s.t1 1).toNat < (pb.tarr p - pb.ttransit p).natAbs
    if start || temp || s.intervalOver p then
      (s.modTPort p fun x => { x with startNow := false }).transitDue p false
    else s

/-! ### Holding back (R206) -/

def State.anyAlarm (s : State) : Bool := (allFin 4).any fun p => (s.port p).zones.toList.any fun z => 2 ≤ z.st.val

/-- The WATCH alarm that defers a start (R206). -/
def State.watchDefers (s : State) (p : Port) : Bool := (s.port p).profile == 1 && s.anyAlarm

/-- What holds a due port back (R206); a restore that waits or merges does too, since its merge never overlaps a transit (R229), and so does
a bulk resync sweep (R334). A port that the profile or a forced level stops has no bands and cannot start. -/
def State.heldBack (s : State) (q : Port × Bool) : Bool :=
  let p := q.1
  let x := s.port p
  let t := s.tport p
  let guard := 16 * fld (s.t1 2) 15 0
  let recent (o : Option Nat) : Bool := match o with | some a => s.agreed - a < guard | none => false
  s.inTransit || s.transit.rstPend.isSome || s.twin.sweep ||
    (t.tcount != 0 && recent (some t.lastTicks)) || recent t.abTicks ||
    x.st != .running || x.discardLeft != 0 || x.bands.isEmpty || s.watchDefers p || (t.domeout && !q.2)

/-- Whether port `p` may start at its meridian: it is queued, not held back, and every port before it is (R205, R206). -/
def State.mayStart (s : State) (p : Port) : Bool :=
  match s.transit.queue.find? fun q => !s.heldBack q with
  | some q => q.1 == p
  | none => false

/-- WDEFER of a queued port that a WATCH alarm holds back (R206). -/
def State.deferMark (s : State) (p : Port) : State :=
  if (s.transit.queue.any fun q => q.1 = p) && s.watchDefers p then s.modTPort p fun x => { x with wdefer := true } else s

/-! ### Starting (R208, R312) -/

/-- Whether this device drives array control, domes and shared excitation (R312). -/
def State.drives (s : State) : Bool := !s.twinEn || s.twin.owner

def Transit.start (p : Port) (place : Nat) (asked : Bool) (m : W) : Transit :=
  { port := p, place := place, asked := asked, step := 2, m0 := m, settled := 0, flats := 0, rejects := 0, firstAfter := false, sumTarr := 0, sumDuty := 0,
    dtt := 0, ht := 0, idt := 0, flatMer := none, rhoSum := 0, rhoDen := 0, rhoN := 0, rho := 0, cdome := 0, tarrNew := 0, dutyNew := 0,
    lastFlat := none, accDone := [], accOld := [],
    finDone := [], dome := false, merging := false, abPend := 0 }

/-- The transit starts at the port's meridian (R208): frames are held from the next on; the dome is driven closed. -/
def State.transitStart (s : State) (p : Port) : State :=
  let m := (s.port p).mer
  let s := s.modTransit fun t =>
    { t with cur := some (Transit.start p (t.queue.findIdx fun q => q.1 == p) (t.queue.any fun q => q.1 == p && q.2) m)
             queue := t.queue.filter fun q => q.1 ≠ p }
  let s := s.modPort p fun x => { x with transitHold := true, holdEnds := false }
  if blwProvisioned s.params.force (domeOf p) then s.blwAction (domeOf p) false else s

def State.modCur (s : State) (f : Transit → Transit) : State := s.modTransit fun t => { t with cur := t.cur.map f }

/-- The dome of the port in transit is reported closed or open: in LOCKSTEP the prime's report waits for its AGREE (R208, R222). -/
def State.domeStep (s : State) (at' next' : Fin 8) : State :=
  match s.transit.cur with
  | some c =>
    if c.step ≠ at' then s
    else if s.twinning then (if s.twin.prime then s.modCur fun c => { c with dome := true } else s)
    else s.modCur fun c => { c with step := next' }
  | none => s

/-- A closed report of a dome channel (R208, R369). -/
def State.domeClosed (s : State) (c : Fin 8) : State :=
  if s.transit.cur.any fun x => x.port.val = c.val then s.domeStep 2 3 else s

/-- An open report of a dome channel (R208, R220). -/
def State.domeOpen (s : State) (c : Fin 8) : State :=
  if s.transit.cur.any fun x => x.port.val = c.val then s.domeStep 6 7
  else if h : c.val < 4 then s.modPort ⟨c.val, h⟩ fun x => { x with holdEnds := x.transitHold } else s

/-! ### Counting frames (R208, R210) -/

/-- Whether the frame that ended counts (R210): ended by a Frame End, complete, not skipped. -/
def frameUsable (p : Port) (fr : Frame) : Bool :=
  !fr.byTimeout && !fr.byEarly && fr.started &&
    (List.range (fr.pb.lines p)).all fun r => fr.got p r (fr.pb.linePixels p - 1)

/-- The dome temperature from the averaged ratio (R216), u and the result saturated to s32 (R10). -/
def tdomeOf (s : State) (p : Port) (rho : Nat) : Int :=
  let g (i : Nat) : W := s.t1 (16 + 8 * p.val + i)
  let u := satS 32 (rndDiv ((rho * (g 1).toNat : Nat) : Int) (g 2).toNat - 2 ^ 30)
  satS 32 ((g 3).toInt + rnd ((g 4).toInt * u) 30 + rnd ((g 5).toInt * rnd (u * u) 30) 30)

/-- The reciprocal of ΔTt, saturated to s32 (R10), 0 where drift learning is off (R212 word 5) and where ΔTt is 0 (DESIGN
CHOICE: the manual gives no quotient; log entry 195). -/
def idtOf (s : State) (p : Port) (dtt : Int) : Int :=
  let w := s.t1 (22 + 8 * p.val)
  if fld w 3 0 = 0 ∨ dtt.natAbs < 256 * fld w 31 16 ∨ (s.tport p).firstTransit ∨ dtt = 0 then 0
  else satS 32 (if dtt < 0 then -(rndDiv (2 ^ 32) (-dtt)) else rndDiv (2 ^ 32) dtt)

/-- The modulator that carries reference checks (R356). -/
def State.chkMod (s : State) : Option (Fin 8) :=
  (allFin 8).find? fun m => bitOf (s.params.force.fld (0x1C0 + m.val) 3) 0 && !s.modRetired m

def State.modSextant (s : State) (f : Sextant → Sextant) : State := { s with sextant := f s.sextant }

/-- A trim of the trim record takes a new value. -/
def State.setTrim (s : State) (i : Nat) (w : W) : State := s.modTransit fun t => { t with trims := t.trims.set i w }

/-- The trim record, written by the ME (R230). -/
def State.trimRecord (s : State) : State :=
  let t := s.transit
  let ws := [t.trimcount, wn t.trimTicks, pccWord t.trimPcc t.trimTicks, t.refPpm] ++ t.trims
  s.storeWrite 0x98050000 (wordsBytes (ws ++ [crcWords ws]))

/-- The reference check that waits begins between two sequences of its modulator (R356); `gap` is when the sequence before it ended, where
one did. -/
def State.checkBegin (s : State) (m : Fin 8) (gap : Option Nat) : State :=
  let x := s.mod m
  let u := (s.unit (uMod m)).st
  if s.sextant.checkDue = some m ∧ x.cond = .idle ∧ !x.inGap ∧ (u = 0 ∨ u = 3) then
    (s.modSextant fun q => { q with checkDue := none }).modMod m fun x => { x with checking := some (0, 0), gapAt := gap }
  else s

/-- A self-trim pass, or a transit entering its flat-field step, asks for a reference check while VREFX_NOM is not 0 (R233, R356); one that no
modulator may carry is skipped and counted. -/
def State.refDue (s : State) : State :=
  if s.t1 8 = 0 ∨ s.sextant.stopped then s
  else match s.chkMod with
    | none => s.modSextant fun q => { q with chkSkip := satAdd q.chkSkip 1 }
    | some m => (s.modSextant fun q => { q with checkDue := some m }).checkBegin m none

/-- A reference check ends (R233, R356): `sum` is the sum of its 16 corrected codes, so that VREFX is sum × 5,000,000 / 2^27 µV; REF_PPM takes
the disagreement in Q23.8 ppm. Beyond 200 ppm it is a detected error the first time. -/
def State.refCheck (s : State) (m : Fin 8) (sum : Int) : State :=
  let nom : Nat := (s.t1 8).toNat * 2 ^ 27
  let d : Int := (sum * 5000000 - nom) * 1000000
  if nom = 0 then s
  else
    let beyond := decide (200 * (nom : Int) < d) || decide (d < -(200 * (nom : Int)))
    let s' := s.modTransit fun t => { t with refPpm := wi (satS 32 (rndDiv (256 * d) nom)), refArmed := !beyond }
    if beyond && s.transit.refArmed then ((s'.occur (srcMod m 7)).detect (uMod m) 7).settleUnit (uMod m) else s'

/-- The averaged ratio, u32 Q2.30 (R216). -/
def rhoOf (c : Transit) : Nat := (satU 32 (rndDiv c.rhoSum (c.rhoDen * c.rhoN : Nat))).toNat

/-- The end of step 4 (R208 step 5, R212, R216, R217, R222): `agreed` is the ρ that AGREE carries in twin operation;
the dome temperature, the differences, the dome count. With RNOM = 0 there is no quotient and the transit is abandoned with code 0x06 (DESIGN
CHOICE: log entry 194). -/
def State.flatEnd (s : State) (c : Transit) (agreed : Option Nat) : State :=
  let p := c.port
  let dv := bitOf (s.t1 (16 + 8 * p.val)) 3
  if (agreed.isNone && c.rhoDen == 0) ∨ !dv ∨ s.t1 (17 + 8 * p.val) = 0 ∨ s.t1 (18 + 8 * p.val) = 0 then s.transitAbandon 6 false
  else
    let rho := agreed.getD (rhoOf c)
    let td := tdomeOf s p rho
    let pb := s.params.force
    let tarr := rndDiv c.sumTarr c.flats
    let duty := (rndDiv c.sumDuty c.flats).toNat
    let dtt := satS 32 (tarr - pb.ttransit p)
    let i := rnd td 10 - fld (pb.portF p 9 0) 15 0
    (s.modTPort p fun x => { x with tdome := wi td }).modCur fun c =>
      { c with step := 5, rho := rho, tarrNew := tarr, dutyNew := duty, dtt := dtt, ht := (duty : Int) - pb.dutyTransit p,
               idt := idtOf s p dtt, cdome := tableAt (pb.radTable p) (fld (pb.portF p 9 1) 6 0) i }

/-- A frame that does not count leaves the accumulator as it found it (R210; log entry 92). -/
def State.accBack (s : State) : State :=
  match s.transit.cur with
  | none => s
  | some c =>
    let s := forEach c.accOld (fun e t => t.modStore fun x =>
      let keep (w : Nat) : Bool := !(wordsOf e.1 e.2.1.length).contains w
      { x with mem := Mem.write x.mem e.1 e.2.1, poison := e.2.2 ++ x.poison.filter keep, soft := x.soft.filter keep,
               hard := x.hard.filter keep }) s
    s.modCur fun c => { c with accOld := [], accDone := c.accDone.filter fun e => e.1 ≤ c.flats }

/-- What the frame that ended means to the transit of its port (R208 steps 3 and 4, R210). `fr` is the frame. The flat-field step asks for a
reference check as it begins (R233). -/
def State.transitFrame (s : State) (p : Port) (fr : Frame) : State :=
  match s.transit.cur with
  | none => s
  | some c =>
    if c.port ≠ p ∨ !c.firstAfter ∨ fr.skipped ∨ !(c.step = 3 ∨ c.step = 4) ∨ (c.step = 4 ∧ fld (s.t1 3) 15 8 ≤ c.flats) then s
    else if !frameUsable p fr then
      let s := s.accBack.modCur fun c => { c with rejects := c.rejects + 1 }
      if fld (s.t1 3) 23 16 < c.rejects + 1 then s.transitAbandon 4 false else s
    else if c.step = 3 then
      let flat := decide (fld (s.t1 3) 3 0 ≤ c.settled + 1)
      let s := s.modCur fun c => { c with settled := c.settled + 1, step := if flat then 4 else 3 }
      if flat then s.refDue else s
    else
      let full := decide (fld (s.t1 3) 15 8 ≤ c.flats + 1)
      let c' := { c with flats := c.flats + 1, sumTarr := c.sumTarr + fr.pb.tarr p, sumDuty := c.sumDuty + fr.pb.duty p,
                         flatMer := if full then some (s.agreedOf p fr.m) else none
                         lastFlat := some fr.m, accOld := [] }
      let s := s.modCur fun _ => c'
      if full ∧ !s.twinning then s.flatEnd c' none else s

/-! ### Accumulating and finishing (R212–R214) -/

def accAddr (pb : PMap) (p : Port) (r a : Nat) : Nat := 0x55000000 + (r * pb.cols p + a) * 16
def stageAddr (pb : PMap) (p : Port) (r a : Nat) : Nat := 0x50000000 + (r * pb.cols p + a) * 16

/-- `n` words of the store as they stand. -/
def State.storeWords (s : State) (a n : Nat) : List W := bytesWords (s.storeBytes a (4 * n))

/-- The accumulator entry after a flat frame (R213). -/
def accStep (first : Bool) (s : Int) (xs : List Nat) (acc : List W) : List W :=
  let x0 := xs.headD 0
  let base : List W :=
    if first then [wi s, wi s, 0, wn (x0 * 65536)]
    else
      let d := s - (nthW acc 1).toInt
      [wi (satS 32 ((nthW acc 0).toInt + s)), nthW acc 1, wn (min ((nthW acc 2).toNat + (rnd (d * d) 8).toNat) 0xFFFFFFFF), nthW acc 3]
  if xs.any fun x => x ≠ fld (nthW base 3) 31 16 then base.set 3 (nthW base 3 ||| 1) else base

/-- Writes poison over the words of a range: what a transit would form from poisoned words is poison (R247, log entry 156). -/
def State.poisonRange (s : State) (a n : Nat) : State := forEach (wordsOf a n) (fun w t => t.modStore fun x => x.poisonWord w) s

/-- Whether a lane carries transit invocations: a lane in service of a clocked cluster outside every port's bands (R140, R142, R211). -/
def State.transitLane (s : State) (l : LaneNo) : Bool := s.transitCluster (clusterOf l) && s.laneServes l false

/-- The transit constant block (R212). -/
def State.transitConsts (s : State) (c : Transit) (finish first : Bool) (cd : Int) : List W :=
  let p := c.port
  [wi c.dtt, wi c.ht, wn (p.val + 256 * b2n finish + 512 * b2n first), wn c.flats, wi cd, wi c.idt, s.t1 (22 + 8 * p.val),
    s.t1 (23 + 8 * p.val), s.params.force.portF p 10 1] ++ List.replicate 55 0

/-- What the sequencer sets before a transit invocation (R212): tile buffers, the constant block in place of the frame constants, the
registers g1 to g6. -/
def State.transitPlace (s : State) (l : LaneNo) (tile : List (Nat × List Byte)) (consts : List W) (rowWords : List (Nat × List W))
    (regs : List W) : State :=
  (s.modCluster (clusterOf l) fun k => k.putTile tile).modLane l fun x =>
    let x := rowWords.foldl (fun (x : Lane) e => x.putLocal (0x1E00 + 4 * e.1) e.2) (x.putLocal 0x1F00 consts)
    { x with fcOf := none, rcOf := none, ctx := x.ctx.setRegs regs }

/-- The buffers of a group's accumulator and staging entries in tile memory (log entry 14). -/
def tileAcc (l : LaneNo) : Nat := arrAddr l 8 0
def tileStage (l : LaneNo) : Nat := arrAddr l 2 0

/-- One element's accumulation (R213). -/
def State.accElem (s : State) (c : Transit) (fr : Frame) (row a : Nat) : State :=
  let p := c.port
  let pb := fr.pb
  let ad := accAddr pb p row a
  let first := decide (c.flats = 1)
  if s.sampleBad p fr (pb.blindRows p + row) (pb.left p + a) || (!first && s.poisoned ad 16) then s.poisonRange ad 16
  else
    let xs := s.samplesOf pb p fr.f (pb.blindRows p + row) (pb.left p + a)
    let x := trimMean (fld (pb.portF p 5 0) 9 8) xs
    let sv := satS 32 (x - fr.colOff p a - fr.rowOffOf p row)
    s.storeWrite ad (wordsBytes (accStep first sv xs (s.storeWords ad 4)))

/-- The flat frames whose groups the lanes may take, each with its number (R124, R208, R213): the last counted one while no other frame has
ended, and the one that arrives, as long as it may count (log entry 92). -/
def State.flatFrames (s : State) (c : Transit) : List (Frame × Nat) :=
  let x := s.port c.port
  let ok (fr : Frame) : Bool := fr.heldStart && !fr.skipped
  ((x.tail.filter fun fr => ok fr && c.lastFlat == some fr.m).map fun fr => (fr, c.flats)).toList ++
    ((x.frame.filter fun fr => ok fr && fr.started && fr.colDone && c.firstAfter && c.step == 4 && c.flats < fld (s.t1 3) 15 8).map
      fun fr => (fr, c.flats + 1)).toList

/-- The flat frame of which a group may be accumulated now: its row is whole and the group not yet taken. -/
def State.accFrame (s : State) (c : Transit) (row col : Nat) : Option (Frame × Nat) :=
  (s.flatFrames c).find? fun e => !c.accDone.contains (e.2, row, col) && e.1.got c.port (e.1.pb.blindRows c.port + row) (e.1.pb.linePixels c.port - 1)

/-- TRANSIT_ACCUMULATE (R213): one group of a flat frame. -/
def execTransitAccumulate (l : LaneNo) (row col : Nat) (s : State) : Out :=
  match s.transit.cur, s.transit.cur.bind fun c => s.accFrame c row col with
  | some c, some (fr, k) =>
    let p := c.port
    let pb := fr.pb
    let go := (c.step = 4 ∨ c.step = 5) ∧ row < pb.rows p ∧ col % 8 = 0 ∧ col + 8 ≤ pb.cols p ∧ s.transitLane l ∧ !s.thermal.held
    if !decide go then .next s
    else
      let c := { c with flats := k }
      let first := decide (k = 1)
      let els := List.range 8
      let ad := accAddr pb p row col
      let s := s.samplesCheck pb p fr.f (pb.blindRows p + row) (pb.left p + col) 8
      let s := if first then s else s.storeCheck ad 128
      let old := (ad, s.storeBytes ad 128, s.store.poison.filter fun w => (wordsOf ad 128).contains w)
      let tile : List (Nat × List Byte) :=
        [(tileAcc l, s.storeBytes ad 128)] ++
        ((List.range (pb.nSamp p)).map fun k => (arrAddr l 14 0 + 16 * k, els.flatMap fun i =>
          (wordBytes (wn ((s.samplesOf pb p fr.f (pb.blindRows p + row) (pb.left p + col + i)).getD k 0))).take 2)) ++
        arrWrites l 12 0 col col (els.map fun i => wi (fr.colOff p (col + i))) ++
        arrWrites l 0 0 col col (els.map fun i => wn (b2n (!s.sampleBad p fr (pb.blindRows p + row) (pb.left p + col + i))))
      let s := s.transitPlace l tile (s.transitConsts c false first c.cdome)
        [(0, [wn row, wi (fr.rowOffOf p row)]), (5, [arrBase l 12 0, arrBase l 0 0])]
        [wn row, wn col, wn (tileAcc l), arrBase l 14 0, 0, 0x1F00]
      let s := forEach els (fun i t => t.accElem c fr row (col + i)) s
      .next (s.modCur fun c => { c with accDone := (k, row, col) :: c.accDone, accOld := if fr.ended then c.accOld else old :: c.accOld })
  | _, _ => .next s

/-- S̄ of a pixel (R214). -/
def State.sbarOf (s : State) (pb : PMap) (p : Port) (f r a : Nat) : Int := rndDiv (s.storeWord (accAddr pb p r a)).toInt f

/-- The dome count (R217): by the table, or the lower median of S̄ over all pixels, poisoned ones apart, with conversion off. -/
def State.cdomeOf (s : State) (c : Transit) (pb : PMap) : Int :=
  if bitOf (pb.portF c.port 9 0) 16 then c.cdome
  else
    lowerMedian ((List.range (pb.rows c.port)).flatMap fun r =>
      ((List.range (pb.cols c.port)).filter fun a => !s.poisoned (accAddr pb c.port r a) 4).map fun a => s.sbarOf pb c.port c.flats r a)

/-- The staging entry of a pixel (R214): `ws` its record, `acc` its accumulator, `ag` the term A / G. -/
def finishPix (c : Transit) (cd : Int) (w22 w23 w8 : W) (ws acc : List W) (ag : Int) : List W :=
  let f : Int := c.flats
  let rv := recVals (nthW ws)
  let a0 := (nthW acc 0).toInt
  let sbar := rndDiv a0 f
  let md := a0 - f * (nthW acc 1).toInt
  let var := max 0 (rndDiv (256 * f * (nthW acc 2).toNat - md * md) (256 * f * f))
  let oeff := rv.o + driftOf rv.d1 rv.d2 c.dtt + heatOf rv.sh c.ht + ag
  let g : Int := rv.g
  let onew := satS 24 (if rv.g = 0 then sbar else rndDiv (sbar * g - cd * 2 ^ 28) g)
  let delta := onew - oeff
  let noisy : Int := fld w23 15 0
  let t : Nat :=
    if !bitOf (nthW acc 3) 0 ∨ 256 * (fld w8 31 16 : Int) ≤ sbar ∨ sbar ≤ 256 * (fld w8 15 0 : Int) then 2
    else if (fld w23 31 16 : Int) < delta.natAbs then 3
    else if noisy * noisy < 256 * var then 1
    else 0
  let d1 := if c.idt ≠ 0 ∧ t ≤ 1 then satS 16 (rv.d1 + rnd (delta * c.idt) (16 + fld w22 3 0)) else rv.d1
  let w0 := nthW ws 0
  let hi := if bitOf w0 27 ∨ 4 ≤ fld w0 26 24 then fld w0 31 24 else (fld w0 31 27 * 8 + t) % 256 / 64 * 64 + 32 + (fld w0 28 27 * 8 + t)
  let o24 := (BitVec.ofInt 24 onew).toNat
  [wn (hi * 2 ^ 24 + o24), wn ((BitVec.ofInt 16 d1).toNat + 65536 * fld (nthW ws 2) 31 16), nthW ws 3, wn o24]

/-- The reads of the accumulator for the dome count with conversion off (R217, R245), made once, before the first finishing invocation. -/
def State.cdomeCheck (s : State) (c : Transit) (pb : PMap) : State :=
  if bitOf (pb.portF c.port 9 0) 16 || !c.finDone.isEmpty then s
  else forEach (List.range (pb.rows c.port)) (fun r t => t.storeCheck (accAddr pb c.port r 0) (16 * pb.cols c.port)) s

/-- One element's staging entry (R214): A / G has no quotient at G = 0 (log entry 3). -/
def State.finishElem (s : State) (c : Transit) (cd : Int) (row a : Nat) : State :=
  let p := c.port
  let pb := s.params.force
  let ws := s.storeWords (recordAddr pb p row a) 16
  let acc := s.storeWords (accAddr pb p row a) 4
  if s.poisoned (recordAddr pb p row a) 20 || s.poisoned (accAddr pb p row a) 16 then s.poisonRange (stageAddr pb p row a) 16
  else
    let g := (nthW ws 1).toNat
    let q := if g = 0 then (s.free.1.toInt, s.free.2) else (rndDiv ((nthW ws 4).toInt * 2 ^ 28) g, s)
    q.2.storeWrite (stageAddr pb p row a)
      (wordsBytes (finishPix c cd (s.t1 (22 + 8 * p.val)) (s.t1 (23 + 8 * p.val)) (pb.portF p 10 1) ws acc q.1))

/-- TRANSIT_FINISH (R214): one group of finishing invocations, once every flat frame of the group has been accumulated. -/
def execTransitFinish (l : LaneNo) (row col : Nat) (s : State) : Out :=
  match s.transit.cur with
  | some c =>
    let p := c.port
    let pb := s.params.force
    let groups := pb.cols p / 8
    let ready := (List.range (pb.rows p)).all fun r => (List.range groups).all fun g =>
      (List.range c.flats).all fun k => c.accDone.contains (k + 1, r, 8 * g)
    let go := c.step = 5 ∧ ready ∧ row < pb.rows p ∧ col % 8 = 0 ∧ col + 8 ≤ pb.cols p ∧ s.transitLane l ∧
      !s.thermal.held ∧ !c.finDone.contains (row, col)
    if !decide go then .next s
    else
      let s := s.cdomeCheck c pb
      let cd := s.cdomeOf c pb
      let s := (s.storeCheck (recordAddr pb p row col) 512).storeCheck (accAddr pb p row col) 128
      let s := s.transitPlace l
        [(arrAddr l 13 0, s.storeBytes (recordAddr pb p row col) 512), (tileAcc l, s.storeBytes (accAddr pb p row col) 128)]
        (s.transitConsts c true false cd) []
        [wn row, wn col, arrBase l 13 0, wn (tileAcc l), wn (tileStage l), 0x1F00]
      let s := forEach (List.range 8) (fun i t => t.finishElem c cd row (col + i)) s
      .next (s.modCur fun c => { c with finDone := (row, col) :: c.finDone })
  | none => .next s

/-! ### The mask pass and the flat check (R155, R215) -/

/-- MASK of an entry from its neighbours' classes; a bit that points outside the array stays as read. -/
def maskOf (cls : Nat → Nat → Nat) (rows cols r a old : Nat) : Nat :=
  (List.range 8).foldl (fun acc j =>
    let d := nbrs.getD j (0, 0)
    let r' : Int := r + d.1
    let a' : Int := a + d.2
    let inside := decide (0 ≤ r' ∧ r' < rows ∧ 0 ≤ a' ∧ a' < cols)
    let bit := if inside then decide (cls r'.toNat a'.toNat < 2) else decide (old / 2 ^ j % 2 = 1)
    if bit then acc + 2 ^ j else acc) 0

/-- Sets MASK in the w3 word of every pixel of an area; `at0` and `at3` give the addresses of its w0 and w3 words, which lie in entries of
`size` bytes. A pixel whose w0 is poisoned is no usable neighbour. -/
def State.maskPass (s : State) (rows cols size : Nat) (at0 at3 : Nat → Nat → Nat) : State :=
  let s := forEach (List.range rows) (fun r t => t.storeCheck (at0 r 0) (size * cols)) s
  let cls (r a : Nat) : Nat := if s.poisoned (at0 r a) 4 then 4 else classOf (s.storeWord (at0 r a))
  forEach (List.range rows) (fun r t =>
    forEach (List.range cols) (fun a t =>
      let w := s.storeWord (at3 r a)
      let k := maskOf cls rows cols r a (fld w 23 16)
      t.storeWrite (at3 r a) (wordBytes (wn (fld w 31 24 * 2 ^ 24 + k * 2 ^ 16 + fld w 15 0)))) t) s

/-- Whether the flat check fails (R215), over the pixels whose words are not poisoned. -/
def State.flatFails (s : State) (p : Port) : Bool :=
  let pb := s.params.force
  let ds := (List.range (pb.rows p)).flatMap fun r => (List.range (pb.cols p)).filterMap fun a =>
    let w0 := s.storeWord (stageAddr pb p r a)
    if fld w0 26 24 = 0 && !s.poisoned (stageAddr pb p r a) 4 && !s.poisoned (recordAddr pb p r a + 28) 4 then
      some (sfld w0 23 0 - sfld (s.storeWord (recordAddr pb p r a + 28)) 23 0)
    else none
  let med := lowerMedian ds
  let lim : Int := fld (s.t1 5) 15 0
  let n := (ds.filter fun d => lim < (d - med).natAbs).length
  fld (s.t1 5) 23 16 * ds.length < n * 256

/-- TRANSIT_STAGING_COMPLETE (R208 step 6, R215). -/
def execTransitStagingComplete (s : State) : Out :=
  match s.transit.cur with
  | some c =>
    let p := c.port
    let pb := s.params.force
    let all := (List.range (pb.rows p)).all fun r => (List.range (pb.cols p / 8)).all fun g => c.finDone.contains (r, 8 * g)
    if c.step ≠ 5 ∨ !all ∨ s.thermal.held then .next s
    else
      let s := s.maskPass (pb.rows p) (pb.cols p) 16 (stageAddr pb p) fun r a => stageAddr pb p r a + 8
      let s := forEach (List.range (pb.rows p)) (fun r t => t.storeCheck (recordAddr pb p r 0) (64 * pb.cols p)) s
      if s.flatFails p then .next (s.transitAbandon 2 false)
      else
        let s := s.modCur fun c => { c with step := 6, dome := false }
        .next (s.blwRelease (domeOf p))
  | none => .next s

/-- TRANSIT_CLOSE_TIMEOUT (R208, R220): CLOSE_WAIT has passed in step 2. -/
def execTransitCloseTimeout (s : State) : Out :=
  match s.transit.cur with
  | some c => if c.step = 2 ∧ !c.dome ∧ !s.thermal.held then .next (s.transitAbandon 1 false) else .next s
  | none => .next s

/-- TRANSIT_OPEN_TIMEOUT (R208, R220): OPEN_WAIT has passed after an abandonment, whose hold it ends, or in step 6. A hold that waits began
before the present transit's step 6. -/
def execTransitOpenTimeout (s : State) : Out :=
  let waits (p : Port) : Bool :=
    (s.port p).transitHold && !(s.port p).holdEnds && !(s.transit.cur.any fun c => c.port == p)
  if s.thermal.held then .next s
  else if (allFin 4).any waits then
    .next (forEach ((allFin 4).filter waits) (fun p t => t.modPort p fun x => { x with holdEnds := true }) s)
  else match s.transit.cur with
    | some c => if c.step = 6 ∧ !c.dome then .next (s.transitAbandon 3 false) else .next s
    | none => .next s

/-! ### Commit and merge (R218, R219) -/

/-- The new EGEN of a port (R219). -/
def State.egenInc (s : State) (p : Port) : State := s.modPort p fun x => { x with egen := x.egen + 1 }

/-- Sets TTRANSIT and DUTY_TRANSIT in the staging, pending and in-force copies of block B+4, one more commit generation (R218). -/
def State.setTransitRef (s : State) (p : Port) (tarr : Int) (duty : Nat) : State :=
  let b := pB p + 4
  let put (m : PMap) : PMap := insertN (insertN m (b * 256 + 2) (wi tarr)) (b * 256 + 4) (wn duty)
  (s.modParams fun q =>
    { q with staging := put q.staging, force := put q.force
             pending := q.pending.map fun e => if e.1 = b then (e.1, put e.2) else e }).genInc b

/-- The commit of R218 at the port's meridian; the merge of its rows begins. -/
def State.transitCommit (s : State) (p : Port) : State :=
  match s.transit.cur with
  | none => s
  | some c =>
    let s := (s.setTransitRef p c.tarrNew c.dutyNew).egenInc p
    let s := s.modTPort p fun x =>
      { x with tcount := x.tcount + 1, lastTicks := s.agreed, lastPcc := (s.port p).merPcc, overdue := false, wdefer := false,
               domeout := s.blwRetired (domeOf p), domeab := 0, sbframes := 0, sceneOn := false, firstTransit := false }
    let s := (s.modCur fun c => { c with merging := true }).modTransit fun t =>
      { t with mergePort := some p, mergeEgen := (s.port p).egen, mergedRows := [] }
    (s.modPort p fun x => { x with transitHold := false, holdEnds := false }).transitWake p

/-- Writes words of a record that a merge replaces. A restore writes a poisoned 64-bit word whole, the half it does not replace as it stands
(R229, R247, log entry 157); a transit's merge writes its own words alone (R218). -/
def State.mergePut (s : State) (a : Nat) (ws : List W) (whole : Bool) : State :=
  if whole && s.store.poison.contains (a / 8) then
    let b := a / 8 * 8
    s.storeWrite b (if a % 8 = 0 then wordsBytes (ws ++ (if ws.length = 1 then s.storeWords (b + 4) 1 else []))
      else wordsBytes (s.storeWords b 1 ++ ws))
  else s.storeWrite a (wordsBytes ws)

/-- Merges one row from the staging entries (R218); a pixel whose entry is poisoned keeps its record (log entry 156). -/
def State.mergeRow (s : State) (p : Port) (r : Nat) : State :=
  let pb := s.params.force
  let e := fld s.transit.mergeEgen 7 0
  let whole := !(s.transit.cur.any (·.merging))
  let s := s.storeCheck (stageAddr pb p r 0) (16 * pb.cols p)
  forEach (List.range (pb.cols p)) (fun a t =>
    if t.poisoned (stageAddr pb p r a) 16 then t
    else
      let st := t.storeWords (stageAddr pb p r a) 4
      let ad := recordAddr pb p r a
      let t := t.mergePut ad [nthW st 0] whole
      let t := t.mergePut (ad + 8) [nthW st 1, nthW st 2] whole
      let t := t.mergePut (ad + 16) [0] whole
      t.mergePut (ad + 28) [wn (e * 2 ^ 24 + fld (nthW st 3) 23 0)] whole) s

/-- The record 0x302 of a port's production load or restore (R424). -/
def State.noteLoaded (s : State) (p : Port) (code : Byte) : State := s.note 0x302 0 suTransit [wn p.val, wn code.toNat]

/-- The merge is complete: the unit is idle again (R208 step 7); a restore has ended (R424). -/
def State.mergeEnd (s : State) : State :=
  let s : State := match s.transit.mergePort with
    | some p => if s.transit.cur.any (·.merging) then s else s.noteLoaded p 0
    | none => s
  s.modTransit fun t => { t with mergePort := none, mergedRows := [], cur := if t.cur.any (·.merging) then none else t.cur }

/-- Whether the frame that ended last has still to read the records of a row: they are merged after it (R24, R152). -/
def State.rowAwaits (s : State) (p : Port) (r : Nat) : Bool :=
  match (s.port p).tail with
  | some fr =>
    fr.processed && !fr.deadlinePassed && (List.range (fr.pb.cols p / 8)).any fun g => !(fr.px p r (8 * g)).doneA
  | none => false

/-- TRANSIT_MERGE_ROW (R218, R229). -/
def execTransitMergeRow (p : Port) (row : Nat) (s : State) : Out :=
  if s.thermal.held ∨ s.transit.mergePort ≠ some p ∨ s.params.force.rows p ≤ row ∨ s.transit.mergedRows.contains row ∨
      s.rowAwaits p row then .next s
  else
    let s := (s.mergeRow p row).modTransit fun t => { t with mergedRows := row :: t.mergedRows }
    .next (if s.params.force.rows p ≤ s.transit.mergedRows.length then s.mergeEnd else s)

/-- Whatever the Start trigger waits for is now the next entry to running (R202); the transit that follows learns no drift (R212). -/
def State.startAgain (s : State) (p : Port) : State :=
  s.modTPort p fun x => { x with startDue := true, startNow := false, firstTransit := true }

/-- A restore takes effect (R229): at the port's meridian, or at once where it does not run. -/
def State.restoreBegin (s : State) (p : Port) : State :=
  let s := (s.egenInc p).startAgain p
  let s := s.modTransit fun t => { t with rstPend := none, mergePort := some p, mergeEgen := (s.port p).egen, mergedRows := [] }
  if (s.port p).st = .running then s
  else (forEach (List.range (s.params.force.rows p)) (fun r t => t.mergeRow p r) s).mergeEnd

/-! ### Scene-based correction (R207, R223) -/

/-- SCENEON is switched at the port's meridian (R207). -/
def State.sceneSwitch (s : State) (p : Port) : State :=
  let t := s.tport p
  if !t.sceneOn && s.sceneAllowed p && (s.port p).st == .running &&
      (t.domeout || (t.wdefer && 2 * s.effInterval p ≤ s.sinceCommit p)) then
    s.modTPort p fun x => { x with sceneOn := true }
  else s

/-! ### At a meridian -/

/-- The decision of the transit unit at port `p`'s meridian: 0 none, 1 start, 2 closed, 3 open, 4 commit, 5 abandon (R324 w5). -/
def State.transitDecision (s : State) (p : Port) : Nat :=
  match s.transit.cur with
  | some c =>
    if c.port ≠ p ∨ c.merging then 0
    else if c.abPend ≠ 0 then 5
    else if c.step = 2 ∧ c.dome then 2
    else if c.step = 6 ∧ c.dome then 3
    else if c.step = 7 then 4
    else 0
  | none => if s.mayStart p then 1 else 0

/-- Carries a decision out (R208, R218, R222). -/
def State.transitCarry (s : State) (p : Port) (d : Nat) : State :=
  match d with
  | 1 => s.transitStart p
  | 2 => s.modCur fun c => { c with step := 3, dome := false }
  | 3 => s.modCur fun c => { c with step := 7, dome := false }
  | 4 => s.transitCommit p
  | _ => s

/-- The end of a hold after an abandonment (R220). -/
def State.holdSettle (s : State) (p : Port) : State :=
  s.modPort p fun x => if x.holdEnds then { x with transitHold := false, holdEnds := false } else x

/-! ### Production loads (R226, R227) -/

/-- The header of a section: its code if it fails (R226, R227); a wrong count of entry bytes is code 0x11 (DESIGN CHOICE: log entry 196). -/
def prodHeader (pb : PMap) (p : Port) (h : List W) : Option Byte :=
  if nthW h 0 ≠ 0x50524F44 ∨ fld (nthW h 1) 7 0 ≠ 1 ∨ fld (nthW h 1) 9 8 ≠ p.val ∨ crcWords (h.take 15) ≠ nthW h 15 then some 0x10
  else if fld (nthW h 2) 11 0 ≠ pb.cols p ∨ fld (nthW h 2) 27 16 ≠ pb.rows p ∨ (nthW h 6).toNat ≠ pb.cols p * pb.rows p * 6 then some 0x11
  else none

/-- The record that an entry gives (R227). -/
def prodRecord (h : List W) (e : List Byte) : List W :=
  let b (i : Nat) : Nat := (e.getD i 0).toNat
  let o := b 0 + 256 * b 1 + 65536 * b 2
  let g := wn ((b 4 + 256 * b 5) * 2 ^ 14)
  [wn (o + 2 ^ 24 * b 3), g, nthW h 3, wn (fld (nthW h 4) 15 0 + fld (nthW h 4) 17 16 * 2 ^ 24), 0, 0, 0, wn o, g, wn o, 0, 0, 0, 0, 0, 0]

/-- Writes every record of a section. -/
def State.prodWrite (s : State) (p : Port) (h : List W) (es : List Byte) : State :=
  let pb := s.params.force
  forEach (List.range (pb.rows p * pb.cols p)) (fun i t =>
    t.storeWrite (recordAddr pb p 0 0 + 64 * i) (wordsBytes (prodRecord h ((es.drop (6 * i)).take 6)))) s

/-- The outcome of one port of a load (R227). `lost` tells that the flash could not be read. What is written by a load that fails with 0x12 or
0x14 is the model's choice (DESIGN CHOICE: log entry 197). -/
def State.prodPort (s : State) (p : Port) (sec : List Byte) (lost : Bool) : State × Byte :=
  let pb := s.params.force
  let h := bytesWords (sec.take 64)
  let es := (sec.drop 64).take (pb.cols p * pb.rows p * 6)
  if (s.port p).st = .running then (s, 0x13)
  else if lost then (s, 0x14)
  else match prodHeader pb p h with
    | some c => (s, c)
    | none =>
      let s := s.prodWrite p h es
      if crc32c es ≠ nthW h 7 then (s, 0x12)
      else
        let s := s.maskPass (pb.rows p) (pb.cols p) 64 (recordAddr pb p) fun r a => recordAddr pb p r a + 12
        ((s.egenInc p).startAgain p, 0)

/-- Loads the named ports in ascending order; after a flash read error the rest are not reached (R227). -/
def State.prodPorts (s : State) (flash : List (List Byte)) (readError : Option (Fin 4)) :
    List Port → Bool → State × List (Port × Byte)
  | [], _ => (s, [])
  | p :: r, stop =>
    if stop then
      let q := State.prodPorts s flash readError r true
      (q.1, (p, 0x15) :: q.2)
    else
      let o := s.prodPort p (flash.getD p.val []) (readError = some p)
      let q := State.prodPorts o.1 flash readError r (o.2 = 0x14)
      (q.1, (p, o.2) :: q.2)

/-- The sections of the production set by port number (R226): `flash` gives what stands in the flash, by byte offset; sections start on 4 KiB
boundaries at or after PROD_ADDR, in ascending port order (log entry 158). -/
def prodSections (addr : Nat) (flash : List (Nat × List Byte)) : List (List Byte) :=
  let at' := sortNat ((flash.map (·.1)).filter fun a => a % 4096 = 0 && addr ≤ a)
  at'.map fun a => ((flash.find? fun e => e.1 = a).map (·.2)).getD []

/-- PRODUCTION_LOAD_DONE (R226, R227): its last fill waits for the end of MP0's command in progress and for its select (R409, R419;
log entry 179). -/
def execProductionLoadDone (flash : List (Nat × List Byte)) (readError : Option (Fin 4)) (s : State) : Out :=
  if !s.transit.prodBusy ∨ s.thermal.held ∨ s.serial.mp0.isSome ∨ s.mp0Soft 0 then .next s
  else
    let named := (allFin 4).filter fun p => s.transit.prodPorts.getLsbD p.val
    let q := s.prodPorts (prodSections (s.t1 9).toNat flash) readError named false
    let code := (q.2.find? fun e => e.2 ≠ 0).map (·.2)
    .next ((forEach q.2 (fun e t => t.noteLoaded e.1 e.2) q.1).modTransit fun t =>
      { t with prodBusy := false, prodDone := t.prodSeq, prodCode := code.getD 0
               prodP := updAll t.prodP fun p x => ((q.2.find? fun e => e.1 = p).map (·.2)).getD x })

/-- PRODUCTION_LOAD begins (R227). -/
def State.prodStart (s : State) (seqNo : Byte) (ports : Nat) : State :=
  s.modTransit fun t =>
    { t with prodSeq := seqNo, prodPorts := BitVec.ofNat 4 ports, prodBusy := true, prodCode := 1
             prodP := updAll t.prodP fun p _ => if ports / 2 ^ p.val % 2 = 1 then 0x01 else 0xFF }

end Sys2Proof.Machine
end

