-- ==== Sys2Proof/Machine/Faults.lean ====
section
/-! DEFINITION. Targeted self-tests: their start, their decision, retries, and the sequences of store rows and channels (R246, R248,
R249, R287–R297, R302, R304, R307). -/
namespace Sys2Proof.Machine

/-! ### The decision of a unit's test (R287–R293, R302) -/

/-- The unit's own decision event: port sources 29 and 30, of a ganged pair those of the lower port (R137). -/
def State.testEvent (s : State) (u : Fin 182) (pass : Bool) : State :=
  if h : 108 ≤ u.val ∧ u.val < 112 then
    let p : Port := ⟨u.val - 108, by omega⟩
    (s.modPort p fun x => { x with selfTest := false }).occur
      (srcPort (if s.params.force.upperOfGang p then ⟨p.val - 1, by omega⟩ else p) (if pass then 29 else 30))
  else s

/-- The unit's requester is answered and forgotten (R302). -/
def State.answerTest (s : State) (u : Fin 182) (out : Nat) : State :=
  (s.fmOutcome (s.unit u).reqTest (slotUid u) out).modUnit u fun x => { x with reqTest := none }

/-- DELAY of a modulator (R346). -/
def State.sxDelay (s : State) (m : Fin 8) : Nat := fld (s.params.force.fld (0x1C0 + m.val) 2) 15 0

/-- A late start (R351): counted, source 6. -/
def State.sxLate (s : State) (m : Fin 8) : State :=
  (s.modMod m fun x => { x with lateN := satAdd x.lateN 1, late := true }).occur (srcMod m 6)

/-- The test starts (R287 state 2): a lane's transfers have completed unused, a bellows channel asks for its test pulse (R371), a
modulator's gap begins (R357; its start is dated by `sxNext` where a sequence has just ended), unless the Sextant is stopped (R359). -/
def State.testBegin (s : State) (u : Fin 182) : State :=
  let was := s
  let s := s.modUnit u fun x => { x with st := 2 }
  let n := u.val
  if 120 ≤ n ∧ n < 128 ∧ s.sextant.stopped then was
  else if h : n < 96 then
    s.modLane ⟨n, h⟩ fun l => { l with ctx := { l.ctx with tags := Vector.replicate 4 none } }
  else if h : 112 ≤ n ∧ n < 120 then
    let c : Fin 8 := ⟨n - 112, by omega⟩
    let t := (s.modBlw c fun b => { b with st := 0 }).blwRequest c false true
    if (t.blw c).st = 0 then (t.modBlw c fun b => { b with st := 6 }).modUnit u fun x => { x with st := 1 } else t
  else if h : 120 ≤ n ∧ n < 128 then s.modMod ⟨n - 120, by omega⟩ fun m =>
      { m with testing := true, checking := none, trimming := none, gapAt := none }
  else s

/-- What a modulator does between two sequences (R304, R350, R351, R355, R356): a requested test begins, or a measurement of the self-trim
pass, or the reference check; else a pending trigger leaves its slot and enters delaying, or a continuous modulator starts again. `done` is when
what it did before ended, µs. -/
def State.sxNext (s : State) (m : Fin 8) (done : Option Nat) : State :=
  let x := s.mod m
  let c := s.params.force.fld (0x1C0 + m.val) 0
  let u := (s.unit (uMod m)).st
  if x.cond ≠ .idle ∨ s.sextant.stopped ∨ x.inGap ∨ !(u == 0 || u == 3) then s
  else if u = 0 ∧ (s.unit (uMod m)).reqTest.isSome then (s.testBegin (uMod m)).modMod m fun y => { y with gapAt := done }
  else if x.trimDue then s.modMod m fun y => { y with trimDue := false, trimming := some (0, 0, 0), gapAt := done }
  else if s.sextant.checkDue = some m then s.checkBegin m done
  else if !bitOf c 0 then s
  else match x.pend with
    | some a =>
      let due := a + s.sxDelay m
      let t := s.modMod m fun x =>
        { x with cond := .delaying, pend := none, startAt := max due (done.getD due), late := false }
      if done.any fun e => decide (due < e) then t.sxLate m else t
    | none =>
      if fld c 3 2 = 0 then s.modMod m fun x => { x with cond := .delaying, startAt := done.getD x.startAt, late := false } else s

/-- Work that a unit's targeted test held up: the modulator converts again, a bellows channel shows off. -/
def State.testClear (s : State) (u : Fin 182) : State :=
  if h : 120 ≤ u.val ∧ u.val < 128 then s.modMod ⟨u.val - 120, by omega⟩ fun m => { m with testing := false }
  else s

/-- The retry of a bellows channel in state 3 (R289, R371; log entry 112): the pull-in or hold that failed is asked for again, without a new
THOLD, and a release that failed runs again, from no current. A pair retries as a pair, once both its tests are over (R368). A channel that was
doing nothing, or whose request is refused, has nothing to retry. -/
def State.blwRetry (s : State) (c : Fin 8) : State :=
  let f := (s.blw c).failedSt
  let close (t : State) : State := t.closeTransient (uBlw c)
  let tested := (s.unit (uBlw (otherBlw c))).st == 1 || (s.unit (uBlw (otherBlw c))).st == 2
  if f = 0 ∨ 5 ≤ f.val then close s
  else if !s.blwFree c then (if blwPar s.params.force c && tested then s else close s)
  else if f = 4 then s.modBlw c fun b =>
    { b with st := 4, target := 0, phasePeriods := 0, ramp := 25 * b.act.trel, wantOpen := decide (c.val < 4) }
  else if !blwEn s.params.force c then close s
  else
    let t := (s.modBlw c fun b => { b with st := 0, nextAct := none }).blwRequest c (f == 3) false
    if (t.blw c).st = 0 then close t else t

/-- After a passed test the transient count advances (R288, R293) and the retry of R289 starts: state 3 where the operation is run again,
else the transient closes at once. -/
def State.retryStart (s : State) (u : Fin 182) (leftUs : Nat) : State :=
  let s := s.countTransient u
  let n := u.val
  let cause := (s.unit u).cause
  let retry (t : State) : State := t.modUnit u fun x => { x with st := 3, retryCause := some cause }
  if h : n < 96 then
    let l : LaneNo := ⟨n, h⟩
    if (s.lane l).abandoned.isNone then s.closeTransient u
    else if 2 * 2620 ≤ leftUs then (retry s).laneRetry l
    else (s.noRetry l).closeTransient u
  else if n < 108 then
    let s := if 2 * 2000 ≤ leftUs then s else s.modFm fun m => { m with noretry := satAdd m.noretry 1 }
    let t := s.closeTransient u
    if t.anyRunning ∧ (t.unit u).st = 0 then t.modUnit u fun x => { x with st := 3 } else t
  else if h : 112 ≤ n ∧ n < 120 then
    let c : Fin 8 := ⟨n - 112, by omega⟩
    (retry s).blwRetry c
  else if 120 ≤ n ∧ n < 128 then retry s
  else if h : 128 ≤ n ∧ n < 134 then
    let e : Eng := ⟨n - 128, by omega⟩
    let s := s.closeTransient u
    if (s.unit u).st = 0 then (if e.val = 5 then s.meRestart else s.engStart e) else s
  else s.closeTransient u


/-- A targeted or requested test of a unit ends (R288). A unit out for test is decided at once and changes its state at the next meridian
(R287 state 6); only a detected error found meanwhile makes its test one of R288's first kind, which counts a transient and has no
operation left to retry. -/
def State.testDecide (s : State) (u : Fin 182) (pass : Bool) (leftUs : Nat) : State :=
  let x := s.unit u
  let n := u.val
  let s := (s.testEvent u pass).testClear u
  if pass then
    if x.st = 6 ∧ x.byError then
      let t := (s.countTransient u).closeTransient u
      if (t.unit u).st = 4 then t.modUnit u fun y => { y with st := 6, failAtMer := true, backAtMer := false }
      else t.modUnit u fun y => { y with st := 6, backAtMer := true }
    else if !x.byError then
      let s := (s.fmDecide (slotUid u) x.cause 0).answerTest u 0
      if x.st = 6 then s.modUnit u fun x => { x with backAtMer := true } else s.inService u
    else if 108 ≤ n ∧ n < 112 then
      (((s.modFm fun m => { m with ext := satAdd m.ext 1 }).fmDecide (slotUid u) x.cause 5).answerTest u 5).inService u
    else s.retryStart u leftUs
  else if 134 ≤ n then
    (((s.fmDecide (slotUid u) x.cause 6).answerTest u 6).sensorChange u).modUnit u fun x =>
      { x with st := 7, byError := false }
  else
    let s := (s.fmPermanent.fmDecide (slotUid u) x.cause 1).answerTest u 1
    let s := s.modUnit u fun y =>
      if x.st = 6 then { y with failAtMer := true, backAtMer := false } else { y with st := 4, backAtMer := false }
    let s := s.transitLaneLost u
    let s := if h : n < 96 then
        (match (s.lane ⟨n, h⟩).abandoned with
         | some v => (s.giveUp v).modLane ⟨n, h⟩ fun x => { x with abandoned := none }
         | none => s)
      else s
    s.settleIdle

/-- A test ends. -/
def State.testOver (s : State) (u : Fin 182) (pass : Bool) (leftUs : Nat) : State := (s.testDecide u pass leftUs).settleUnit u

/-! ### Drained units (R287, R292) -/

/-- Whether an isolated unit has nothing of its own left in flight. -/
def State.drained (s : State) (u : Fin 182) : Bool :=
  let n := u.val
  if h : n < 96 then
    let k := (s.unit (uCluster (clusterOf ⟨n, h⟩))).st
    k != 1 && k != 2 && k != 4 && k != 5
  else if n < 108 then !s.clocks.inReset.getLsbD (n - 96)
  else if h : 112 ≤ n ∧ n < 120 then (s.blw ⟨n - 112, by omega⟩).st == 6
  else if h : 120 ≤ n ∧ n < 128 then (s.mod ⟨n - 120, by omega⟩).cond != .converting && !(s.mod ⟨n - 120, by omega⟩).inGap
  else true

/-- UNIT_DRAINED (R287). -/
def execUnitDrained (u : W) (s : State) : Out :=
  match uidSlot u with
  | some i =>
    if (s.unit i).st = 1 ∧ s.drained i ∧ !s.thermal.shutdown ∧ !s.thermal.held then .next (s.testBegin i) else .next s
  | none => .next s

/-! ### Store rows and channels (R245, R248, R249, R293) -/

/-- Whether a word lies in a row, where it stands now. -/
def State.inRow (s : State) (q : RowSeq) (w : Nat) : Bool := wordLoc s w == (q.ch, q.bank.val, q.row)

/-- The row under a name and in a phase. -/
def State.seqAt (s : State) (ch bank : Fin 16) (row : Nat) (phase : Fin 4) : Option RowSeq :=
  s.store.seqs.find? fun q => q.ch == ch && q.bank == bank && q.row == row && q.phase == phase

def State.setSeq (s : State) (q q' : RowSeq) : State :=
  s.modStore fun t => { t with seqs := t.seqs.map fun x => if x = q then q' else x }

/-- ROW_COPY_DONE (R248 steps 1 and 2): the copy corrects what can be corrected and carries the rest as poison; the march begins. -/
def execRowCopyDone (ch bank : Fin 16) (row : BitVec 13) (s : State) : Out :=
  match s.seqAt ch bank row.toNat 0 with
  | some q =>
    if s.thermal.held then .next s
    else
      let s := forEach (s.store.flawed fun w => s.inRow q w) (fun w t => t.checkWord w) s
      .next (s.modStore fun t => { t with seqs := t.seqs.map fun x =>
        if x.ch = q.ch ∧ x.bank = q.bank ∧ x.row = q.row then { x with phase := 1 } else x })
  | none => .next s

/-- ROW_COPY_BACK_DONE (R248 step 3a): the row serves again and its spare is free. -/
def execRowCopyBackDone (ch bank : Fin 16) (row : BitVec 13) (s : State) : Out :=
  match s.seqAt ch bank row.toNat 2 with
  | some q => if s.thermal.held then .next s else .next (s.modStore fun t => { t with seqs := t.seqs.erase q })
  | none => .next s

/-- The requester of a store unit's test or retirement. -/
def State.storeReq (s : State) (uid : W) : Option Req := (s.fm.storeReqs.find? fun r => r.1 = uid).map (·.2)

/-- Answers a store unit's requester (R302). -/
def State.storeAnswer (s : State) (uid : W) (out : Nat) : State :=
  (s.fmOutcome (s.storeReq uid) uid out).modFm fun m => { m with storeReqs := m.storeReqs.filter fun r => r.1 ≠ uid }

/-- One more transient of a row in the shared table of 128 (R293): whether it is the ninth in the window, and the table after it; a
full table loses the entry whose latest transient is oldest, which is counted. -/
def State.rowTransient (s : State) (k : Nat × Nat × Nat) : Bool × State :=
  let now := s.agreed
  let l := s.store.rowTimes
  match l.find? fun e => e.1 = k with
  | some e =>
    (ninth now e.2, s.modStore fun t =>
      { t with rowTimes := t.rowTimes.map fun x => if x.1 = k then (k, last8 (x.2 ++ [now])) else x })
  | none =>
    let oldest := (l.map fun e => e.2.getLastD 0).foldl min now
    let full := 128 ≤ l.length
    let l' := if full then
        (match l.find? fun e => e.2.getLastD 0 = oldest with
         | some e => l.erase e
         | none => l)
      else l
    let s := if full then s.modFm fun m => { m with evict := satAdd m.evict 1 } else s
    (false, s.modStore fun t => { t with rowTimes := l' ++ [(k, [now])] })

/-- The march of a row ends (R248 step 3, R288, R293). -/
def State.rowTestOver (s : State) (q : RowSeq) (pass : Bool) : State :=
  let uid := rowUid q.ch.val q.bank.val q.row
  if !pass then
    let s := (s.fmPermanent.fmDecide uid q.cause 1).storeAnswer uid 1
    (s.setSeq q { q with phase := 3 }).settleIdle
  else if q.cause = 0xFF then
    ((((s.fmDecide uid q.cause 0).storeAnswer uid 0).occur (srcChan q.ch 2)).setSeq q { q with phase := 2 })
  else
    let r := s.rowTransient (q.ch.val, q.bank.val, q.row)
    let s := r.2.occur (srcChan q.ch 2)
    if r.1 then (((s.fmPermanent.fmDecide uid q.cause 2).storeAnswer uid 2).setSeq q { q with phase := 3 }).settleIdle
    else
      let s := ((s.modFm fun m => { m with transient := satAdd m.transient 1 }).life 0).fmDecide uid q.cause 0
      (s.storeAnswer uid 0).setSeq q { q with phase := 2 }

/-- A channel is decided permanent (R249, R252, R288): it is to be retired, or stays in service where another one is retired. -/
def State.chanPermanent (s : State) (ch : Fin 16) (cause : Byte) (out : Nat) : State :=
  let uid := chanUid ch.val
  if s.fm.map.chan.isSome then (s.storeAnswer uid out).chanRetire ch cause none false
  else
    let s := (s.fmPermanent.fmDecide uid cause out).storeAnswer uid out
    (s.modFm fun m => { m with storePend := m.storePend ++ [(uid, true)] }).settleIdle

/-- A channel test ends (R249, R252, R288, R293, R295): one that nobody requested is the fault manager's own, with cause 0xFD (log entry 160),
and passed it is a transient of the channel. A channel that is retired has no test. -/
def State.chanTestOver (s : State) (ch : Fin 16) (pass : Bool) : State :=
  let uid := chanUid ch.val
  let cause : Byte := if (s.storeReq uid).isSome then 0xFF else 0xFD
  if s.fm.map.chan = some ch then s
  else if (s.fm.storePend.any fun w => w.1 == uid) then s
  else if !pass then s.chanPermanent ch cause 1
  else if cause = 0xFF then (s.fmDecide uid cause 0).storeAnswer uid 0
  else
    let times := s.store.chanTimes.get ch
    let t := s.modStore fun x => { x with chanTimes := x.chanTimes.set ch.val (last8 (times ++ [s.agreed])) ch.isLt }
    if ninth s.agreed times then t.chanPermanent ch cause 2
    else ((t.modFm fun m => { m with transient := satAdd m.transient 1 }).life 0).fmDecide uid cause 0

/-- A row test that finds faults in more than one row: the row is decided and its bank is to be retired (R249). -/
def State.rowTestWide (s : State) (q : RowSeq) : State :=
  let uid := bankUid q.ch.val q.bank.val
  let s := s.rowTestOver q false
  if (s.fm.map.banks.get q.ch).getLsbD q.bank.val ∨ (s.fm.storePend.any fun w => w.1 == uid) then s
  else
    ((s.fmPermanent.fmDecide uid 0xFD 1).modFm fun m => { m with storePend := m.storePend ++ [(uid, true)] }).settleIdle

/-- The row that an identifier names in a march. -/
def State.marchOf (s : State) (u : W) : Option RowSeq :=
  if isRowUid u then s.store.seqs.find? fun q => rowUid q.ch.val q.bank.val q.row == u && q.phase == 1 else none

/-- RETRY_BUDGET_OVERRUN (R295): a store retry that overruns its budget is decided permanent at its own level. -/
def execRetryBudgetOverrun (u : W) (s : State) : Out :=
  if s.thermal.shutdown ∨ s.thermal.held then .next s
  else if isRowUid u then
    match s.store.seqs.find? fun q => rowUid q.ch.val q.bank.val q.row == u && q.phase != 3 with
    | some q => .next (s.rowTestOver q false).fmDeliver
    | none => .next s
  else if isChanUid u then .next (s.chanTestOver (uidCh u) false).fmDeliver
  else .next s

/-- A write of FM_MAP_CLEAR (R307, R441): accepted with its key value while region 3 is open for writing. -/
def State.mapClear (s : State) (v : W) : State :=
  if v = 0xC1EA9640 ∧ s.nv.writeOpen 3 then
    let s := s.modFm fun m => { m with clearPend := true }
    s.modNv fun n => n.itemWrite itemState 0 (wordsBytes (s.stateWords n.stateEnd.1 n.stateEnd.2)) .item
  else s

end Sys2Proof.Machine
end

