-- ==== Sys2Proof/Machine/ThermalOps.lean ====
section
/-! DEFINITION. Temperature readings, damper stages, thermal shutdown, the power-fail sequence and the resets (R243, R376–R395, R443–R446,
R454, R463, R464, R511). -/
namespace Sys2Proof.Machine

/-! ### Neighbours and errors of a sensor (R382, R383) -/

/-- The neighbours of a continuous sensor (R383). -/
def neighbours (t : Fin 48) : List (Fin 48) :=
  (allFin 48).filter fun x =>
    let a := t.val
    let b := x.val
    b != a &&
    (if a < 24 then decide (b < 24) && decide (b / 2 ≤ a / 2 + 1) && decide (a / 2 ≤ b / 2 + 1)
     else if a < 32 then decide (24 ≤ b) && decide (b < 32)
     else if a < 40 then
       decide (32 ≤ b) && decide (b < 40) &&
         (b / 2 == a / 2 || (b % 2 == a % 2 && (b == a + 2 || b + 2 == a)))
     else if a < 44 then decide (40 ≤ b) && decide (b < 44)
     else false)

/-- The valid readings of a sensor's neighbours. -/
def State.neighbourReads (s : State) (t : Fin 48) : List Int :=
  ((neighbours t).filter fun x => s.sensorVal x == 0 && (s.sensor x).everRead).map fun x => (s.sensor x).read.toInt

/-- −60 °C to 175 °C. -/
def inReach (x : Int) : Bool := decide (-3840 ≤ x) && decide (x ≤ 11200)

/-- The neighbour cross-check (R383): within 10 K of the lower median, or in reach with fewer than two valid neighbours. -/
def State.crossCheck (s : State) (t : Fin 48) (x : Int) : Bool :=
  let l := s.neighbourReads t
  if l.length < 2 then inReach x
  else decide (lowerMedian l - 640 ≤ x) && decide (x ≤ lowerMedian l + 640)

/-- Whether a sensor's last valid reading is its zone's highest and the zone's stage is 1 or more (R384). -/
def State.holdsTop (s : State) (t : Fin 48) : Bool :=
  let z := zoneOfSensor t
  (s.sensor t).everRead && decide (1 ≤ (s.thermal.zones.get z).val) &&
    (allFin 48).all fun x =>
      x == t || zoneOfSensor x != z || s.sensorVal x != 0 || !(s.sensor x).everRead ||
        decide ((s.sensor x).read.toInt ≤ (s.sensor t).read.toInt)

/-- A detected error of a sensor (R382): it is suspect; an external sensor keeps the reading under test (R383). -/
def State.sensorDetect (s : State) (t : Fin 48) (x : BitVec 16) : State :=
  if s.sensorVal t ≠ 0 ∨ s.thermal.shutdown then s
  else
    let keeps := s.holdsTop t
    (s.modSensor t fun y => { y with keeps := keeps, underTest := x, farRun := 0 }).detect (uSensor t) 0xFD

/-! ### What follows readings: refresh rate, cluster clocks -/

/-- The highest valid reading among some sensors. -/
def State.hottest (s : State) (l : List (Fin 48)) : Option Int :=
  ((l.filter fun x => s.sensorVal x == 0 && (s.sensor x).everRead).map fun x => (s.sensor x).read.toInt).foldl
    (fun m x => match m with
      | some y => some (max x y)
      | none => some x) none

/-- The refresh rate (R243): 0 for 1×, 1 for 2×, 2 for 4×. -/
def refreshNext (rate : Nat) (broken : Bool) (hot : Option Int) : Nat :=
  if broken then 2
  else match hot with
    | none => rate
    | some x =>
      if 6720 < x then 2
      else if rate = 2 ∧ 6464 ≤ x then 2
      else if 5440 < x then 1
      else if 1 ≤ rate ∧ 5184 ≤ x then 1
      else 0

/-- The refresh rate follows the stack's sensors (R243); a change raises source 7 of every channel. -/
def State.refreshSet (s : State) : State :=
  let l := (allFin 48).filter fun t => 32 ≤ t.val && t.val < 40
  let n := refreshNext s.store.refRate.toNat (l.any fun t => s.sensorVal t == 2) (s.hottest l)
  if n = s.store.refRate.toNat then s
  else forEach (allFin 16) (fun c t => t.occur (srcChan c 7)) (s.modStore fun t => { t with refRate := BitVec.ofNat 2 n })

/-- The nearest temperature of an island whose nearest sensors are `l`; without a valid reading of theirs, the highest of the logic die
(R388). -/
def State.nearest (s : State) (l : List (Fin 48)) : Option Int :=
  match s.hottest l with
  | some x => some x
  | none => s.hottest ((allFin 48).filter fun t => t.val < 32)

/-- The nearest temperature of a cluster (R388). -/
def State.clusterTemp (s : State) (k : Fin 12) : Option Int := s.nearest [⟨2 * k.val, by omega⟩, ⟨2 * k.val + 1, by omega⟩]
/-- That of the islands whose nearest sensor is T(24 + `j`): the ports, the store, the output, the control and fabric, and the management and
twin islands (R388). -/
def State.islandTemp (s : State) (j : Fin 8) : Option Int := s.nearest [⟨24 + j.val, by omega⟩]

/-- C500 and slope of a cluster, in the trims (R230, R454). -/
def State.trimC500 (s : State) (k : Fin 12) : Nat := fld (nthW s.transit.trims k.val) 15 0
def State.trimSlope (s : State) (k : Fin 12) : Int := sfld (nthW s.transit.trims k.val) 31 16

/-- The DCO code for a target and a temperature (R454). -/
def dcoCode (c500 : Nat) (slope : Int) (mhz : Nat) (t : Int) : Nat :=
  (clampI (c500 + ((mhz : Int) - 500) * 160 + rnd (slope * (t - 5440)) 14) 8000 64000).toNat

/-- Sets a cluster's code for its target and temperature; kept where no reading is valid or the cluster is parked. -/
def State.dcoSet (s : State) (k : Fin 12) : State :=
  match s.clusterTemp k with
  | some t =>
    if (s.cluster k).mhz = 0 then s
    else s.modCluster k fun c => { c with code := dcoCode (s.trimC500 k) (s.trimSlope k) c.mhz t }
  | none => s

/-- Recomputes the codes that follow a sensor's reading (R388, R454). -/
def State.dcoFollow (s : State) (t : Fin 48) : State :=
  if 32 ≤ t.val then s
  else forEach (allFin 12) (fun k s =>
    let own := t.val / 2 == k.val
    let none' := (s.hottest [⟨2 * k.val, by omega⟩, ⟨2 * k.val + 1, by omega⟩]).isNone
    if (own || none') && !(s.cluster k).stopped then s.dcoSet k else s) s

/-! ### Shutdown (R359, R386, R387) -/

/-- Every modulator stops; nothing is placed for the conversions in progress (R359). -/
def State.sextantStop (s : State) : State :=
  { s with sextant := { s.sextant with
      stopped := true
      checkDue := none
      mods := updAll s.sextant.mods fun _ m =>
        { m with cond := .idle, pend := none, chain := [], edges := 0, testing := false, checking := none, trimDue := false,
                 trimming := none } } }

/-- Every requested test is answered as abandoned by the thermal shutdown (R292, R302); a retirement that waits stands. -/
def State.testsAbandon (s : State) : State :=
  let s := forEach (allFin 182) (fun u t => if (t.unit u).reqTest.isSome then t.answerTest u 4 else t) s
  (forEach (s.fm.storeReqs.filter fun r => !(s.fm.storePend.any fun w => w.1 == r.1)) (fun r t => t.storeAnswer r.1 4) s).fmDeliver

/-- The thermal shutdown latch sets (R387 step 1, R282, R359, R373): the logic die is held and hands over, and tests are abandoned (R292).
During a power-fail sequence it joins that sequence. -/
def State.thermalShutdown (s : State) (t : Fin 48) (x : BitVec 16) (cause : Nat) : State :=
  if s.thermal.shutdown then s
  else
    let rec' : List W := [wn t.val, x.zeroExtend 32, wn cause]
    let fresh := s.thermal.pfStep == 0
    let late := 3 ≤ s.thermal.pfStep.val
    let s := s.modThermal fun h =>
      { h with shutdown := true, held := true, handCause := if late then h.handCause else 1,
               pfStep := if fresh then 2 else if late then 4 else h.pfStep,
               pfCause := if fresh then 255 else h.pfCause, shutRec := if late then [] else rec' }
    let s := { s with txs := updAll s.txs fun _ y => { y with line := 2, sent := none } }
    let s := (s.testsAbandon.sextantStop.blwShutdown).life 3
    if late then s.noteAnalog 0x201 4 suThermal rec' else s

/-- More than half of the sensors of one die are broken (R386). -/
def State.diesBroken (s : State) : Bool :=
  let n (lo hi : Nat) := ((allFin 48).filter fun t => lo ≤ t.val && t.val < hi && s.sensorVal t == 2).length
  17 ≤ n 0 32 || 5 ≤ n 32 40 || 3 ≤ n 40 44

/-- A sensor has been found broken (R384, R386, R243). -/
def State.sensorBroken (s : State) (t : Fin 48) : State :=
  let s := (s.zoneAfter (zoneOfSensor t) true).refreshSet
  if s.diesBroken then s.thermalShutdown t (s.sensor t).read 1 else s

/-- The comparators' check of a valid or suspect reading (R386). -/
def State.shutCheck (s : State) (t : Fin 48) (x : BitVec 16) : State :=
  if 1 < s.sensorVal t then s
  else
    let hot := extShutUse s.thermal t && decide (shutOf s.thermal (zoneOfSensor t) ≤ x.toInt)
    let s := s.modSensor t fun y => { y with shutRun := if hot then y.shutRun + 1 else 0 }
    if (if t.val < 44 then 2 else 1) ≤ (s.sensor t).shutRun then s.thermalShutdown t x 0 else s

/-! ### A reading (R377–R384, R395) -/

/-- A valid reading: value, peaks, conditions, the zone stage, source 2s, the refresh rate and the clocks. -/
def State.sensorAccept (s : State) (t : Fin 48) (x : BitVec 16) : State :=
  let z := zoneOfSensor t
  let r := x.toInt
  let o := s.sensor t
  let hot := s.zoneHot z
  let s := s.modSensor t fun y =>
    { sensorConds s.thermal z y r with
      read := x, everRead := true, keeps := false
      low := if r < y.low.toInt then x else y.low
      high := if y.high.toInt < r then x else y.high }
  let n := s.sensor t
  let s := s.zoneAfter z hot
  let s := if o.wrn ≠ n.wrn ∨ o.thr ≠ n.thr ∨ o.shutc ≠ n.shutc then s.occur (srcSensor t 0) else s
  (if 32 ≤ t.val ∧ t.val < 40 then s.refreshSet else s).dcoFollow t

/-- The targeted test of a sensor is decided by this reading (R383). A sensor that is valid again brings its conditions back, and its zone may
become hot by them (R380). -/
def State.sensorTest (s : State) (t : Fin 48) (pass : Bool) : State :=
  let hot := s.zoneHot (zoneOfSensor t)
  let s := (s.testOver (uSensor t) pass 0).fmDeliver
  if pass then (s.zoneAfter (zoneOfSensor t) hot).refreshSet else s.sensorBroken t

/-- Whether the frames that ended last still need a lane or a cluster (R24). -/
def State.tailsAt (s : State) (u : Fin 182) : Bool :=
  let mine (l : LaneNo) : Bool := uLane l == u || uCluster (clusterOf l) == u
  (allFin 4).any fun p => s.tailOn p mine

/-- SELF_TEST_DONE (R288): `leftUs` is the time left to the deadline of the frame concerned (R296), `wide` whether a row test that fails
has found faults in more than one row (R249). A bellows channel's test ends with TEST_PULSE_END, a modulator's with its
SEXTANT_CONVERSION (R357) and a continuous sensor's with its next reading. A lane or cluster rotated out is tested once the frame that ended at that meridian needs it no more (R24, R304). -/
def execSelfTestDone (u : W) (pass : Bool) (leftUs : Nat) (s : State) (wide : Bool := false) : Out :=
  if s.thermal.shutdown ∨ s.thermal.held then .next s
  else match uidSlot u with
    | some i =>
      let x := s.unit i
      let n := i.val
      let port := if h : 108 ≤ n ∧ n < 112 then (s.port ⟨n - 108, by omega⟩).selfTest else true
      let sensor := n < 134 || (178 ≤ n && !pass)
      let out := x.st = 6 ∧ !x.backAtMer ∧ !x.failAtMer ∧ !s.tailsAt i
      if (x.st = 2 ∨ out) ∧ port ∧ sensor ∧ !(112 ≤ n ∧ n < 128) then
        .next (if h : 134 ≤ n then s.sensorTest ⟨n - 134, by omega⟩ pass else (s.testOver i pass leftUs).fmDeliver)
      else .next s
    | none =>
      match s.marchOf u with
      | some q => .next (if wide ∧ !pass then s.rowTestWide q else s.rowTestOver q pass).fmDeliver
      | none => if isChanUid u then .next (s.chanTestOver (uidCh u) pass).fmDeliver else .next s

/-- Whether a reading lies within 6 K of a threshold of the sensor's zone (R377). -/
def State.nearLimit (s : State) (t : Fin 48) (x : BitVec 16) : Bool :=
  let z := zoneOfSensor t
  [warnOf s.thermal z, throtOf s.thermal z, shutOf s.thermal z].any fun l => decide (l - 384 ≤ x.toInt) && decide (x.toInt ≤ l + 384)

/-- A reading of a continuous sensor; the rate of the next samples follows it, valid or not (R377). -/
def State.sensorReading (s : State) (t : Fin 48) (x : BitVec 16) : State :=
  let s := s.shutCheck t x
  let s := s.modSensor t fun y => { y with fast := s.nearLimit t x }
  if s.thermal.shutdown then s
  else
    let st := (s.unit (uSensor t)).st
    if st = 2 then s.sensorTest t (s.crossCheck t x.toInt)
    else if s.sensorVal t ≠ 0 then s
    else
      let l := s.neighbourReads t
      let far := !l.isEmpty && (decide (lowerMedian l + 960 < x.toInt) || decide (x.toInt < lowerMedian l - 960))
      let run := if far then (s.sensor t).farRun + 1 else 0
      let s := s.modSensor t fun y => { y with farRun := run }
      if !inReach x.toInt || 16 ≤ run then s.sensorDetect t x else s.sensorAccept t x

/-- A reading of an external sensor (R378, R382, R383): `flagged` is the clip or compliance flag of its result. -/
def State.extReading (s : State) (t : Fin 48) (x : BitVec 16) (flagged : Bool) : State :=
  if !extEnabled s.thermal t then s
  else
    let s := s.shutCheck t x
    if s.thermal.shutdown then s
    else
      let u := (s.sensor t).underTest.toInt
      if (s.unit (uSensor t)).st = 2 then
        s.sensorTest t (!flagged && decide (u - 128 ≤ x.toInt) && decide (x.toInt ≤ u + 128))
      else if s.sensorVal t ≠ 0 then s
      else if flagged || !inReach x.toInt then s.sensorDetect t x
      else s.sensorAccept t x

/-- Whether the thermal unit works: the logic die is out of reset. -/
def State.thermalUp (s : State) : Bool := !s.thermal.held && s.boot.step != 0

/-- SENSOR_READING: a continuous sensor; an external one is read with its Sextant result (R378). The comparators of the shutdown latch
receive the analog die's own sensors whether or not the logic die is running (R17, R386). -/
def execSensorReading (t : Fin 48) (reading : BitVec 16) (s : State) : Out :=
  if s.thermalUp ∧ t.val < 44 then .next (s.sensorReading t reading)
  else if 40 ≤ t.val ∧ t.val < 44 then .next (s.shutCheck t reading)
  else .next s

/-- SENSOR_READING_MISSING (R382): a detected error; a sensor under test gives no reading to pass with (R284, R383). -/
def execSensorReadingMissing (t : Fin 48) (s : State) : Out :=
  if !s.thermalUp then .next s
  else if (s.unit (uSensor t)).st = 2 then .next (s.sensorTest t false)
  else .next (s.sensorDetect t (s.sensor t).read)

/-- SENSOR_RECHECK (R288, R384): a broken sensor's cross-check, repeated every 1 s; the zone continues from stage 4. -/
def execSensorRecheck (t : Fin 48) (reading : BitVec 16) (s : State) : Out :=
  if s.thermalUp ∧ (s.unit (uSensor t)).st = 7 then
    let u := (s.sensor t).underTest.toInt
    let ok := if t.val < 44 then s.crossCheck t reading.toInt
      else decide (u - 128 ≤ reading.toInt) && decide (reading.toInt ≤ u + 128)
    if ok then
      let s := s.fmDecide (slotUid (uSensor t)) (s.unit (uSensor t)).cause 0
      .next (s.inService (uSensor t)).refreshSet
    else .next (s.modSensor t fun y => { y with underTest := reading })
  else .next s

/-! ### Damper stages (R380) -/

/-- STAGE_UP: UP ms of a hot zone. -/
def execStageUp (zn : Fin 4) (s : State) : Out :=
  let n := s.thermal.zones.get zn
  if s.thermalUp ∧ s.zoneHot zn ∧ n.val < 4 then .next (s.setZone zn ⟨min (n.val + 1) 4, by omega⟩) else .next s

/-- STAGE_DOWN: DOWN s of a zone that is not hot; held while a sensor is suspect, and at 4 while one is broken (R384). -/
def execStageDown (zn : Fin 4) (s : State) : Out :=
  let n := s.thermal.zones.get zn
  if !s.thermalUp ∨ s.zoneHot zn ∨ s.zoneSuspect zn ∨ s.zoneBroken zn ∨ n.val = 0 then .next s
  else if n.val = 1 ∧ s.zoneWarm zn then .next s
  else .next (s.setZone zn ⟨n.val - 1, by omega⟩)

/-- PWR_VCORE_UPDATE (R390): by the ME, at most once a second, within 720 mV to 800 mV. -/
def execPwrVcoreUpdate (mv : BitVec 10) (s : State) : Out :=
  let soon := match s.thermal.vcoreTicks with
    | some t => decide (s.ticks < t + 16)
    | none => false
  if s.thermalUp ∧ (s.eng engME).st = 1 ∧ 720 ≤ mv.toNat ∧ mv.toNat ≤ 800 ∧ !soon then
    .next (s.modThermal fun t => { t with vcore := mv, vcoreTicks := some s.ticks })
  else .next s

/-! ### Resets (R463, R464) -/

/-- A device reset of the logic die: all of it but the pins; the analog die, the almanac buffer and the NV store are left (R463). -/
def State.logicReset (s : State) : State :=
  let r := State.reset
  { r with
    pending := s.pending, freeCtr := s.freeCtr, sextant := s.sextant
    bellows := s.bellows
    txs := if s.thermal.shutdown then updAll r.txs fun _ x => { x with line := 2 } else r.txs
    transit := { r.transit with trims := r.transit.trims.take 14 ++ s.transit.trims.drop 14 }
    store := { r.store with lost := s.store.lost, mem := s.store.mem, poison := s.store.poison, soft := s.store.soft, hard := s.store.hard }
    twin := { r.twin with strap := s.twin.strap }
    clocks := { r.clocks with refOk := s.clocks.refOk, hold := s.clocks.hold }
    serial := { r.serial with gpio := s.serial.gpio }
    boot := { r.boot with bootsel := s.boot.bootsel, cold := s.boot.cold }
    thermal := { r.thermal with
      shutdown := s.thermal.shutdown, rails := s.thermal.rails, vio := s.thermal.vio, vact := s.thermal.vact,
      pfail := s.thermal.pfail, pfStep := s.thermal.pfStep, pfCause := s.thermal.pfCause,
      handCause := s.thermal.handCause, shutRec := s.thermal.shutRec, resetN := s.thermal.resetN, held := s.thermal.held }
    nv := { s.nv with
      queue := [], cursor := 0, interrupted := false, openR := 0, openW := 0, page := 0, ppage := 0, ceN := 0, ueN := 0,
      pwbad := 0, ue := false, ce := false, serialHi := 0, optimeHi := 0, agreedHi := 0 } }

/-- The queued records reach the buffer in order (R426, R444), each requester's W25 set; the hand-over that brings them flushes them. -/
def State.enterAll (s : State) (n : Nat) : State :=
  let s := s.queueStamp fun i => !inQueue s.nv.queue i
  let q := s.nv.queue
  let s := s.modNv fun m => { m with queue := [] }
  forEach (q.take n) (fun r t =>
    let t := t.recPlace r.1
    match r.2 with
    | some w => t.latch w.eng w.ctx 25
    | none => t) s

/-- Of the NV writes that wait, a power-fail leaves the one in progress and the log pages of a flush in progress (R441, R445; log entry 184);
every access that a password opened closes (R438), with source 12. -/
def State.nvPowerFail (s : State) : State :=
  let closes := s.nv.openR != 0 || s.nv.openW != 0
  let keep (w : NvWrite) : Bool := w.isFlush && w.src != .flushCounter
  let s := s.modNv fun n => { n with openR := 0, openW := 0, writes := n.writes.take 1 ++ (n.writes.drop 1).filter keep }
  if closes then s.occur (srcAlm 12) else s

/-- A read frame whose words still wait when a power-fail begins gets 0 for them and is rejected (R402). -/
def State.readPowerFail (s : State) : State :=
  if s.serial.xipWait.isEmpty then s
  else ((s.modSerial fun x =>
    { x with wordsOut := x.wordsOut ++ List.replicate x.xipWait.length 0, xipWait := [] }).readFail 8).readClose

/-- A power-fail starts (R392 step 1): its cause is 0 for PFAIL_N or the rail of R389 in table order. A write of the retirement map that it
interrupts is abandoned (R441). MP1 stops; selects that software controlled return to hardware control, with source 20 (R419, R421). -/
def State.powerFailStart (s : State) (cause : Nat) : State :=
  if s.thermal.pfStep ≠ 0 ∨ s.thermal.shutdown then s
  else
    let s := s.modThermal fun t => { t with pfStep := 2, pfCause := cause, handCause := 1 }
    let s := (s.life 4).blwShutdown.sextantStop.readPowerFail
    let soft := s.serial.swsel &&& 0x000300FF != 0
    let s := s.modSerial fun x => { x with mp1 := none, swsel := 0x000CFF00, swPend := none }
    let s := if soft then s.occur (srcSerial 20) else s
    s.mp0Discard.nvPowerFail

/-- POWER_FAIL: PFAIL_N falls (R392, R393). -/
def execPowerFail (s : State) : Out :=
  if s.thermal.pfail then .next ((s.modThermal fun t => { t with pfail := false }).powerFailStart 0) else .next s

/-- The stack's contents are lost when VDD_STK or VPP_STK falls (R15, R240); until the next boot zeroes the store its words are open. -/
def State.storeLose (s : State) (rail : Fin 9) : State :=
  if rail.val = 1 ∨ rail.val = 2 then
    { s.modStore fun t => { t with mem := [], poison := [], soft := [], hard := [], lost := some s.freeCtr } with
      freeCtr := s.freeCtr + 1 }
  else s

/-- RAIL_UNDERVOLTAGE (R389): VDD_CORE, with which OWNER goes low (R509), VDD_STK, VPP_STK, VDD_PHY, VIO0–VIO3; 8 is VDDA below its 3.0 V
reserve, which starts no power-fail. -/
def execRailUndervoltage (rail : Fin 9) (s : State) : Out :=
  if rail.val < 4 then
    let s := ((s.modThermal fun t => { t with rails := t.rails &&& ~~~(1 <<< rail.val : BitVec 5) }).powerFailStart
      (rail.val + 1)).storeLose rail
    .next (if rail.val = 0 then s.dropOwner else s)
  else if rail.val = 8 then .next (s.modThermal fun t => { t with rails := t.rails &&& 0xF })
  else .next ((s.modThermal fun t => { t with vio := false }).powerFailStart (rail.val + 2))

/-- The analog die's records after a hand-over of a power-fail or shutdown (R387, R444): the shutdown's record, the power-fail's record. The
flush follows (`handFlush`). -/
def State.handRecords (s : State) : State :=
  let s := if s.thermal.shutRec.isEmpty then s else s.noteAnalog 0x201 4 suThermal s.thermal.shutRec State.recPlace
  let s := if s.thermal.pfCause = 255 then s else s.noteAnalog 0x202 5 suPower [wn s.thermal.pfCause] State.recPlace
  s.modThermal fun t => { t with shutRec := [] }

/-- HANDOVER_DONE (R387, R392 step 3, R444, R464). -/
def execHandoverDone (s : State) : Out :=
  if s.thermal.handCause = 1 ∧ s.thermal.pfStep = 2 then
    let s := s.modNv fun n => { n with handed := true, handWords := s.counterWords }
    let s := (s.enterAll s.nv.queue.length).handRecords.handFlush
    let s := s.modThermal fun t => { t with pfStep := 4, handCause := 0 }
    .next (if s.thermal.shutdown then s.dropOwner.logicReset else s)
  else if s.thermal.handCause = 2 ∧ s.thermal.pfStep = 0 then
    let s := s.modNv fun n => { n with handWords := s.counterWords }
    let s := (s.enterAll s.nv.queue.length).handFlush.dropOwner.blwShutdown
    let strap := s.twin.strap
    let s := (s.modThermal fun t => { t with handCause := 0 }).logicReset
    .next (if s.thermal.resetN ∧ s.thermal.pfail ∧ s.railsUp then s.bootStart s.boot.bootsel strap
      else if s.thermal.resetN then s.modBoot fun b => { b with step := 5 } else s)
  else .next s

/-- LOGIC_DIE_POWER_LOSS (R393, R445): `records` whole records and, where `counters`, the 24 counter words had arrived. After the
hand-over the logic die may lose power at any time (R392 step 3). -/
def execLogicDiePowerLoss (counters : Bool) (records : Nat) (s : State) : Out :=
  if s.thermal.pfStep = 2 then
    let total := s.nv.queue.length
    let n := min records total
    let s := s.modNv fun m =>
      { m with handed := counters, incomplete := true, handWords := if counters then s.counterWords else [] }
    let s := ((s.life 5).enterAll n).handRecords.modThermal fun t => { t with pfStep := 4, handCause := 0 }
    let s := s.noteAnalog 0x002 3 suPower [wn (b2n counters + 2 ^ 16 * n), wn total] State.recPlace
    .next (s.handFlush.dropOwner.logicReset.modBoot fun b => { b with cold := true })
  else if 3 ≤ s.thermal.pfStep.val then .next (s.dropOwner.logicReset.modBoot fun b => { b with cold := true })
  else .next s

/-- NV_PAGE_WRITE_DONE (R435); the power-fail sequence ends with the last write (R392 step 5). -/
def execNvPageWriteDone (s : State) : Out :=
  let s := s.pageWriteDone
  .next (if s.thermal.pfStep = 4 ∧ s.nv.writes.isEmpty then s.modThermal fun t => { t with pfStep := 5 } else s)

/-- POWER_FAIL_RELEASE (R393, R511): PFAIL_N high and every rail in range for 10 ms after step 5; the E9640 boots as after a power
cycle. -/
def execPowerFailRelease (bootsel : BitVec 2) (role : Bool) (s : State) : Out :=
  if s.thermal.pfStep = 5 ∧ !s.thermal.shutdown then
    let s := (s.modThermal fun t => { t with pfStep := 0, rails := 0x1F, vio := true, pfail := true }).logicReset
    let s := s.modBoot fun b => { b with cold := true }
    if s.thermal.resetN then .next (s.bootStart bootsel role) else .next s
  else .next s

/-- POWER_ON_RESET (R446, R463): VDDA below 2.7 V. Of a page write in progress the first `groups` of its 8-byte groups are written. The power-up
that follows has still to bring every rail but VACT into range and PFAIL_N high (R391, R510); an incomplete hand-over stays marked in NV for the
next boot to find (R448 source 15; log entry 185). -/
def execPowerOnReset (groups : Nat) (s : State) : Out :=
  let n := s.nv.interrupt groups
  let r := State.reset
  .next { r with
    pending := s.pending, freeCtr := s.freeCtr,
    nv := { r.nv with mem := n.mem, bad := n.bad, soft := n.soft, incomplete := n.incomplete },
    thermal := { r.thermal with rails := 0, vio := false, pfail := false, vact := s.thermal.vact } }

/-- DEVICE_RESET: RESET_N falls (R464). The hand-over comes first, without a power-fail record. -/
def execDeviceReset (s : State) : Out :=
  if !s.thermal.resetN then .next s
  else
    let up := s.thermal.pfail && s.thermal.pfStep == 0 && !s.thermal.shutdown
    .next (s.modThermal fun t => { t with resetN := false, handCause := if up then 2 else t.handCause })

end Sys2Proof.Machine
end

