-- ==== Sys2Proof/Machine/Sextant.lean ====
section
/-! DEFINITION. The Sextant: triggers, sequences, conversions, results, accumulators, its latching reads (R341–R361, R378). -/
namespace Sys2Proof.Machine

/-! ### Class I blocks at their idle point (R100, R103, R347) -/

/-- The class I copy that may take effect: in twin operation the one the pair has agreed (R322). -/
def State.readyI (s : State) (blk : Nat) : Option PMap :=
  if s.twinning && (s.anyRunning || !s.twin.prime) then lookupN s.twin.agreedI blk else lookupN s.params.pending blk

/-- A class I copy takes effect or is refused; `after` is what its taking effect does, given the copies before. -/
def State.applyI (s : State) (blk : Nat) (after : PMap → State → State) : State :=
  match s.readyI blk with
  | none => s
  | some c =>
    let o := s.params.force
    let s := if lookupN s.params.pending blk = some c then s.dropPending blk else s
    let s := s.modTwin fun t => { t with agreedI := eraseN t.agreedI blk }
    match checkBlock s.chkEnv (o.setBlock blk c) o blk with
    | some i => s.refuseBlock blk i
    | none => after o ((s.modParams fun q => { q with force := q.force.setBlock blk c }).genInc blk)

def sxCtl (m : PMap) (k : Fin 8) : W := m.fld (0x1C0 + k.val) 0
def sxTrig (w : W) : Nat := fld w 3 2

/-- A modulator's block takes effect (R347, R350): with EN = 0 a pending trigger is discarded; a continuous modulator that is idle
starts. -/
def State.sxBlock (s : State) (k : Fin 8) (o : PMap) : State :=
  let n := sxCtl s.params.force k
  if !bitOf n 0 then s.modMod k fun x => { x with pend := none, edges := 0, cond := .idle }
  else
    let s := if bitOf (sxCtl o k) 0 then s else s.modMod k fun x => { x with edges := 0 }
    if sxTrig n = 0 ∧ !bitOf (sxCtl o k) 0 then s.sxNext k none else s

/-! ### Triggers (R350, R351) -/

/-- A trigger of a modulator at time `t`, µs. -/
def State.sxTrigger (s : State) (k : Fin 8) (t : Nat) : State :=
  let x := s.mod k
  let u := (s.unit (uMod k)).st
  if x.cond = .idle ∧ !x.inGap ∧ (u = 0 ∨ u = 3) then
    s.modMod k fun x => { x with cond := .delaying, startAt := t + s.sxDelay k, late := false }
  else if x.pend.isNone then s.modMod k fun x => { x with pend := some t }
  else (s.modMod k fun x => { x with overrun := satAdd x.overrun 1 }).occur (srcMod k 4)

/-- SEXTANT_TRIGGER (R350): a tick of the timer, or a selected edge of the bellows channel, of which every (EDIV + 1)-th is a
trigger. -/
def execSextantTrigger (m : Fin 8) (timeUs : Nat) (s : State) : Out :=
  let c := sxCtl s.params.force m
  let b : Fin 8 := ⟨fld c 18 16 % 8, by omega⟩
  if !bitOf c 0 ∨ s.sextant.stopped ∨ !s.clocks.refOk ∨ s.modRetired m then .next s
  else if sxTrig c = 1 then .next (s.sxTrigger m timeUs)
  else if sxTrig c = 2 ∧ blwEn s.params.force b ∧ !s.blwRetired b then
    if fld c 31 24 ≤ (s.mod m).edges then .next ((s.modMod m fun x => { x with edges := 0 }).sxTrigger m timeUs)
    else .next (s.modMod m fun x => { x with edges := x.edges + 1 })
  else .next s

/-- SEQUENCE_START (R349): the chain is read from the table in force. -/
def execSequenceStart (m : Fin 8) (s : State) : Out :=
  let u := (s.unit (uMod m)).st
  if (s.mod m).cond = .delaying ∧ !s.sextant.stopped ∧ s.clocks.refOk ∧ !(s.mod m).inGap ∧ (u = 0 ∨ u = 3) then
    let es := ((sxChainOf s.params.force m).getD []).map fun e =>
      let w := sxEntryOf s.params.force e
      { no := BitVec.ofNat 8 e, w0 := w.1, w1 := w.2 : SxEntry }
    .next ((s.modMod m fun x =>
      { x with cond := .converting, chain := es, conv := 0, sum := 0, clip := false, compl := false }).occur (srcMod m 0))
  else .next s

/-! ### Results (R345, R352–R355, R378) -/

/-- Decimation by ODR code (R345): output periods in µs. -/
def decimation (odr : Nat) : Nat :=
  [125, 250, 500, 1000, 2000, 4000, 10000, 20000, 40000, 100000, 200000, 400000].getD odr 0

def SxEntry.reps (e : SxEntry) : Nat := fld e.w0 31 24 + 1
/-- Duration of an entry in µs (R345). -/
def SxEntry.dur (e : SxEntry) : Nat := fld e.w1 15 0 + (e.reps + 2) * decimation (fld e.w1 19 16)

/-- The excitation that modulator `m` drives (R344, R358, R359): the AIN pin and the current in µA, from the start of an entry to its last
conversion; a shared entry leaves its pin to the twin partner that holds OWNER. -/
def State.excitation (s : State) (m : Fin 8) : Option (Nat × Nat) :=
  let x := s.mod m
  match x.cond, x.chain with
  | .converting, e :: _ =>
    if s.sextant.stopped ∨ fld e.w0 18 16 = 0 ∨ (bitOf e.w1 30 ∧ s.twinEn ∧ !s.twin.owner) then none
    else some (fld e.w0 23 19, [10, 20, 50, 100, 200, 500, 1000].getD (fld e.w0 18 16 - 1) 0)
  | _, _ => none

/-- The input that an INP code selects (R342), as a voltage in nV and the power of two that divides it. -/
def sxInput (inp : Nat) (p : SxPins) : Int × Nat :=
  let ain (k : Nat) : Int := p.ain.getD k 0
  if inp < 0x10 then (ain (2 * inp) - ain (2 * inp + 1), 0)
  else if inp < 0x30 then (ain (inp - 0x10), 0)
  else match inp with
    | 0x30 => (0, 0)
    | 0x31 => (p.vrefx, 1)
    | 0x32 => (p.vdda, 2)
    | 0x33 => (p.vact, 4)
    | 0x34 => (p.core, 0)
    | 0x35 => (p.stk, 0)
    | 0x36 => (p.vpp, 1)
    | 0x37 => (p.phy, 0)
    | 0x38 => (p.rxref, 0)
    | 0x39 => (p.diode, 0)
    | 0x3A => (p.vint, 1)
    | _ => (0, 0)

/-- The reference that a REF code selects (R343, R348), in nV: internal, VREFX or ratiometric. -/
def sxReference (ref : Nat) (p : SxPins) : Int := if ref = 0 then p.vint else if ref = 1 then p.vrefx else p.rxref

/-- The raw code before its saturation (R343): round(V × gain / VREF × 2^23), `gain` as its power of two, and the modulator's own error. The
manual gives no quotient without a reference voltage: there the code is free (log entry 3). -/
def State.sxRaw (s : State) (inp ref gain : Nat) (c : RawConv) : Int × State :=
  let v := sxInput inp c.pins
  let r := sxReference ref c.pins
  if r = 0 then (s.free.1.toInt, s.free.2)
  else (rndDiv (v.1 * r.sign * 2 ^ (gain + 23)) (r.natAbs * 2 ^ v.2) + c.err, s)

/-- Whether the internal reference lies outside 2.500 V ± 1% (R357). -/
def sxOutside (c : RawConv) : Bool := decide (c.pins.vint < 2475000000) || decide (2525000000 < c.pins.vint)

def sxFull : Int := 2 ^ 23 - 1

/-- The corrected code of a raw code (R355). -/
def State.sxCode (s : State) (k : Fin 8) (raw : Int) : Int :=
  let ofs := sfld (nthW s.transit.trims (14 + k.val)) 23 0
  let g := (nthW s.transit.trims (22 + k.val)).toNat
  satS 24 (rndDiv ((raw - ofs) * g) (2 ^ 30))

/-- A result's share of the dome temperature (R216): exactly, as a fraction. -/
def State.domeResult (s : State) (k : Fin 8) (e : SxEntry) (sum : Int) : State :=
  match s.transit.cur with
  | some c =>
    let w := s.t1 (16 + 8 * c.port.val)
    if c.step = 4 ∧ bitOf w 3 ∧ fld w 2 0 = k.val ∧ fld w 15 8 = e.no.toNat then
      let num := sum * 2 ^ 30
      let den := e.reps * 2 ^ (fld e.w0 14 12) * 2 ^ 23
      s.modCur fun c =>
        if c.rhoDen = 0 then { c with rhoSum := num, rhoDen := den, rhoN := 1 }
        else if c.rhoDen = den then { c with rhoSum := c.rhoSum + num, rhoN := c.rhoN + 1 }
        else { c with rhoSum := c.rhoSum * den + num * c.rhoDen, rhoDen := c.rhoDen * den, rhoN := c.rhoN + 1 }
    else s
  | none => s

/-- The external sensors that a result is read for (R378). -/
def State.extResults (s : State) (k : Fin 8) (e : SxEntry) (sum : Int) (flagged : Bool) : State :=
  if !s.thermalUp then s
  else forEach (allFin 4) (fun j s =>
    let w := thermWord s.thermal (11 + 3 * j.val)
    if fld w 7 0 = e.no.toNat ∧ fld w 10 8 = k.val then
      let ta := (thermWord s.thermal (12 + 3 * j.val)).toInt
      let tb := (thermWord s.thermal (13 + 3 * j.val)).toInt
      let d : Nat := e.reps * 2 ^ 23
      s.extReading ⟨44 + j.val, by omega⟩ (BitVec.ofInt 16 (satS 16 (rndDiv (ta * d + tb * sum) (d * 2 ^ 10)))) flagged
    else s) s

/-- An entry's result record (R352–R354): FIFO, latest result, accumulator, and who reads it. -/
def State.sxRecord (s : State) (k : Fin 8) (e : SxEntry) : State :=
  let x := s.mod k
  let notExc := bitOf e.w1 30 && s.twinEn && !s.twin.owner
  let w0 := wi x.sum
  let w1 := wn (e.no.toNat + 2 ^ 8 * x.seqNo.toNat + 2 ^ 16 * (e.reps - 1) + 2 ^ 24 * b2n x.clip + 2 ^ 25 * b2n x.compl +
    2 ^ 26 * b2n x.late + 2 ^ 27 * b2n notExc + 2 ^ 28 * k.val + 2 ^ 31)
  let s := if x.fifo.length < 32 then (s.modMod k fun x => { x with fifo := x.fifo ++ [(w0, w1)] }).occur (srcMod k 2)
    else (s.modMod k fun x => { x with ovf := satAdd x.ovf 1 }).occur (srcMod k 3)
  let s := { s with sextant := { s.sextant with latest := insertN s.sextant.latest e.no.toNat (w0, w1) } }
  let s := if bitOf e.w1 29 ∧ x.cnt.toNat + e.reps ≤ 65535 then
      s.modMod k fun x => { x with acc := x.acc + BitVec.ofInt 48 w0.toInt, cnt := x.cnt + BitVec.ofNat 16 e.reps }
    else s
  let s := if x.clip ∨ x.compl then s.occur (srcMod k 5) else s
  (s.domeResult k e x.sum).extResults k e x.sum (x.clip || x.compl)

/-- A sequence ends (R289, R347, R350, R351): a retry has been made, the block takes effect, and what waits for the gap begins. -/
def State.sxEnd (s : State) (k : Fin 8) : State :=
  let s := (s.modMod k fun x => { x with cond := .idle, chain := [], seqNo := x.seqNo + 1 }).occur (srcMod k 1)
  let s := (s.retryDone (uMod k)).settleUnit (uMod k)
  let s := s.applyI (0x1C0 + k.val) fun o s => s.sxBlock k o
  s.sxNext k (some (s.mod k).startAt)

/-- A detected error of a modulator (R211, R357): the conversion in progress completes, no record is placed, the rest of the sequence
is abandoned, and the transit whose dome it measures with it. -/
def State.sxError (s : State) (k : Fin 8) : State :=
  let s := ((s.occur (srcMod k 7)).detect (uMod k) 7).settleUnit (uMod k)
  if (s.unit (uMod k)).st = 1 then
    let s := s.modMod k fun x => { x with cond := .idle, chain := [], checking := none, trimming := none }
    match s.transit.cur with
    | some c => if fld (s.t1 (16 + 8 * c.port.val)) 2 0 = k.val then s.transitAbandon 6 false else s
    | none => s
  else s

/-- The conversion of a targeted self-test (R357): internal 10 at gain 1 against the internal reference, decided at once; a failed residue
check, or the reference outside its window, is a detected error and fails it. The modulator goes on 3 ms after its start. -/
def State.sxTestConv (s : State) (m : Fin 8) (c : RawConv) : State :=
  let bad := c.residueFail || sxOutside c
  let s := if bad then (s.occur (srcMod m 7)).detect (uMod m) 7 else s
  let v := s.sxRaw 0x3A 0 0 c
  let code := v.2.sxCode m (clampI v.1 (-sxFull) sxFull)
  let pass := !bad && decide ((code - 2 ^ 22).natAbs ≤ 2097)
  let done := ((s.mod m).gapAt.map (· + 3000)).getD c.endUs
  ((v.2.testOver (uMod m) pass 0).sxNext m (some done)).fmDeliver

/-- One of the 16 conversions of a reference check, of internal 1 at gain 1 (R356); the last one gives the measurement, and the modulator goes on
180 ms after it began. -/
def State.sxCheckConv (s : State) (m : Fin 8) (n : Nat) (sum : Int) (c : RawConv) : State :=
  let s := if c.residueFail || sxOutside c then s.sxError m else s
  if (s.unit (uMod m)).st = 1 then s
  else
    let v := s.sxRaw 0x31 0 0 c
    let sum := sum + v.2.sxCode m (clampI v.1 (-sxFull) sxFull)
    if n + 1 < 16 then v.2.modMod m fun x => { x with checking := some (n + 1, sum) }
    else
      let s := (v.2.modMod m fun x => { x with checking := none }).refCheck m sum
      s.sxNext m (some (((s.mod m).gapAt.map (· + 180000)).getD c.endUs))

/-- The trims that a modulator's measurements give (R355): OFS, and GTRIM, which is 2^22 over the raw code of internal 10 less OFS. The raw codes
are the means of 16; the manual gives no quotient for a difference of 0 or less (log entry 3). -/
def State.trimMod (s : State) (k : Fin 8) (sumOfs sumGain : Int) : State :=
  let o := rndDiv sumOfs 16
  let g := sumGain - 16 * o
  let q := if 0 < g then (wi (satU 32 (rndDiv (2 ^ 56) g.toNat)), s) else s.free
  (q.2.setTrim (14 + k.val) (wn (BitVec.ofInt 24 (satS 24 o)).toNat)).setTrim (22 + k.val) q.1

/-- One of the conversions of a self-trim pass (R232, R355; log entry 159): 16 with shorted inputs, then 16 of internal 10, at gain 1 against the
internal reference. The last one installs the trims, and the ME writes them to the record (R230); the two measurements of 18 ms take the
gap between two sequences. -/
def State.sxTrimConv (s : State) (m : Fin 8) (n : Nat) (so sg : Int) (c : RawConv) : State :=
  let s := if c.residueFail || sxOutside c then s.sxError m else s
  if (s.unit (uMod m)).st = 1 then s
  else
    let v := s.sxRaw (if n < 16 then 0x30 else 0x3A) 0 0 c
    let raw := clampI v.1 (-sxFull) sxFull
    let q := if n < 16 then (so + raw, sg) else (so, sg + raw)
    if n + 1 < 32 then v.2.modMod m fun x => { x with trimming := some (n + 1, q) }
    else
      let s := (v.2.modMod m fun x => { x with trimming := none }).trimMod m q.1 q.2
      let s := if (s.eng engME).st = 1 then s.trimRecord else s
      s.sxNext m (some (((s.mod m).gapAt.map (· + 36000)).getD c.endUs))

/-- One conversion of the entry that runs (R343, R349, R357); the last one places its record, and the last entry's ends the sequence. -/
def State.sxEntryConv (s : State) (m : Fin 8) (e : SxEntry) (r : List SxEntry) (c : RawConv) : State :=
  let s := if c.residueFail || sxOutside c && fld e.w0 9 8 == 0 then s.sxError m else s
  if (s.unit (uMod m)).st = 1 then s
  else
    let v := s.sxRaw (fld e.w0 5 0) (fld e.w0 9 8) (fld e.w0 14 12) c
    let clip := c.overload || decide (sxFull < v.1) || decide (v.1 < -sxFull)
    let code := v.2.sxCode m (clampI v.1 (-sxFull) sxFull)
    let s := v.2.modMod m fun x =>
      { x with conv := x.conv + 1, sum := x.sum + code, clip := x.clip || clip, compl := x.compl || c.compliance }
    if (s.mod m).conv < e.reps then s
    else
      let s := s.sxRecord m e
      let s := s.modMod m fun x =>
        { x with chain := r, conv := 0, sum := 0, clip := false, compl := false, startAt := x.startAt + e.dur }
      if r.isEmpty then (s.sxEnd m).fmDeliver else s

/-- SEXTANT_CONVERSION (R343, R349, R355–R357): one conversion of the entry that runs, of a targeted self-test, of a reference check or of a
self-trim pass. -/
def execSextantConversion (m : Fin 8) (c : RawConv) (s : State) : Out :=
  let x := s.mod m
  let u := (s.unit (uMod m)).st
  if s.sextant.stopped ∨ !s.clocks.refOk then .next s
  else if x.testing then .next (if u = 2 ∧ !s.thermal.shutdown ∧ !s.thermal.held then s.sxTestConv m c else s)
  else if x.cond ≠ .converting ∧ !x.inGap then .next s
  else if !(u = 0 ∨ u = 3) then .next (s.modMod m fun x => { x with cond := .idle, chain := [], checking := none, trimming := none })
  else match x.checking, x.trimming, x.chain with
    | some (n, sum), _, _ => .next (s.sxCheckConv m n sum c)
    | none, some (n, so, sg), _ => .next (s.sxTrimConv m n so sg c)
    | none, none, [] => .next (s.sxEnd m)
    | none, none, e :: r => .next (s.sxEntryConv m e r c)

/-- SEXTANT_DRAIN (R353): the oldest record enters CE channel 12 as a pair of words. -/
def execSextantDrain (m : Fin 8) (s : State) : Out :=
  let ch := (s.eng engCE).chans.get 12
  if s.thermal.held ∨ !bitOf (sxCtl s.params.force m) 5 ∨ 2 < ch.length then .next s
  else match (s.mod m).fifo with
    | r :: t =>
      let s := (s.modMod m fun x => { x with fifo := t }).modEng engCE fun en =>
        { en with chans := upd en.chans 12 (· ++ [r.1, r.2]) }
      .next (forEach (allFin 4) (fun c t => t.latch engCE c 24) s)
    | [] => .next s

/-! ### Reads that latch or remove, the accumulator clear (R353, R354, R360) -/

/-- A read of RES_LO: the word returned, the record removed. -/
def State.resLo (s : State) (m : Fin 8) : W × State :=
  if bitOf (sxCtl s.params.force m) 5 then (0, s.modMod m fun x => { x with resHi := 0 })
  else match (s.mod m).fifo with
    | r :: t => (r.1, s.modMod m fun x => { x with fifo := t, resHi := r.2 })
    | [] => (0, s.modMod m fun x => { x with resHi := 0 })

def State.accLo (s : State) (m : Fin 8) : W × State :=
  let x := s.mod m
  (x.acc.extractLsb' 0 32, s.modMod m fun x => { x with accHi := wn (x.acc.toNat / 2 ^ 32 + 2 ^ 16 * x.cnt.toNat) })

def State.lastLo (s : State) (e : Nat) : W × State :=
  let l := getN s.sextant.latest e (0, 0)
  (l.1, { s with sextant := { s.sextant with lastHi := insertN s.sextant.lastHi e l.2 } })

def State.accClr (s : State) (v : W) : State :=
  forEach (allFin 8) (fun m t => if bitOf v m.val then t.modMod m fun x => { x with acc := 0, cnt := 0 } else t) s

end Sys2Proof.Machine
end

