-- ==== Sys2Proof/Machine/BellowsCmds.lean ====
section
/-! DEFINITION. The bellows channels' commands: loop periods, phases, reports, test pulses, protective cuts (R363–R373). -/
namespace Sys2Proof.Machine

/-! ### Blocks (R364) -/

/-- A bellows block takes effect (R364, R366): EN = 0 releases; a new ACT_SEQ starts the action of ACT, for B0–B3 none. -/
def State.blwBlock (s : State) (c : Fin 8) (o : PMap) : State :=
  let n := blwCtl s.params.force c
  let s := s.parFollow c
  let s := if blwEn o c && !bitOf n 0 then s.blwRelease c else s
  let seqNo := BitVec.ofNat 8 (fld n 31 24)
  if (s.blw c).actSeq = seqNo then s
  else
    let s := s.modBlw c fun b => { b with actSeq := seqNo }
    if c.val < 4 ∨ (s.blw c).st = 7 then s
    else match fld n 21 20 with
      | 0 => s.blwRelease c
      | 1 => s.blwAction c false
      | _ => s.blwAction c true

/-- A dome channel that no transit holds closed: it opens again when its retry has repeated the failed step (R289, R369). -/
def State.domeLone (s : State) (c : Fin 8) : Bool :=
  decide (c.val < 4) && !(s.transit.cur.any fun t => t.port.val == c.val && decide (t.step.val ≤ 5))

/-- Ends a retry whose failed phase has run (R289). -/
def State.blwRetryDone (s : State) (c : Fin 8) : State := (((s.retryDone (uBlw c)).settleUnit (uBlw c)).parFollow c).fmDeliver

/-- BELLOWS_LOOP_PERIOD (R362, R364, R365): the current is measured, the ramp and the dither go on by 40 µs; the end of the period is the
channel's idle point. A retried hold of a dome whose transit is over ends with its first
period, and a retry whose waiting request was withdrawn closes. -/
def execBellowsLoopPeriod (c : Fin 8) (ma : BitVec 16) (s : State) : Out :=
  let s := s.modBlw c fun b =>
    let n := if blwActive b then 1 else 0
    { b with measured := ma, periods := b.periods + n, phasePeriods := b.phasePeriods + n }
  if s.thermal.held then .next s
  else
    let retry := (s.unit (uBlw c)).st == 3
    let s := if (s.blw c).st = 3 ∧ retry ∧ s.domeLone c then s.blwRelease c
      else if (s.blw c).st = 0 ∧ retry then s.blwRetryDone c else s
    .next (s.applyI (0x1D0 + c.val) fun o s => s.blwBlock c o)

/-! ### Phases (R365, R367, R369) -/

/-- The closed report of a channel (R369, R375 source 1). -/
def State.blwClosed (s : State) (c : Fin 8) : State :=
  ((s.modBlw c fun b => { b with wantClosed := false }).blwOccur c 1).domeClosed c

/-- The open report of a channel (R369, R375 source 2). -/
def State.blwOpened (s : State) (c : Fin 8) : State :=
  ((s.modBlw c fun b => { b with wantOpen := false }).blwOccur c 2).domeOpen c

/-- PULL_IN_END (R365, R369): the channel goes to hold; a timed dome is reported closed if its current is within 10% of IPULL and no
error is pending. The device without OWNER has no current of its own and raises the source at the same moment (R372). -/
def execPullInEnd (c : Fin 8) (ma : BitVec 16) (s : State) : Out :=
  let b := s.blw c
  if b.st ≠ 2 then .next s
  else
    let s := (s.modBlw c fun b => { b with st := 3, target := b.act.ihold, phasePeriods := 0, measured := ma }).blwReeval c
    let near := decide (9 * b.act.ipull ≤ 10 * ma.toNat) && decide (10 * ma.toNat ≤ 11 * b.act.ipull)
    let s :=
      if 4 ≤ c.val then s.blwOccur c 1
      else if b.wantClosed && !b.act.pos && decide (100 ≤ b.act.ipull) && (near || !s.drives) && s.blwFree c then s.blwClosed c
      else s
    let lone := (s.unit (uBlw c)).st == 3 && s.domeLone c
    let s := s.blwRetryDone c
    .next (if lone then s.blwRelease c else s)

/-- HOLD_END (R365): THOLD of a pulse elapses. -/
def execHoldEnd (c : Fin 8) (s : State) : Out :=
  let b := s.blw c
  if b.st = 3 ∧ b.act.pulse then .next ((s.blwRelease c).blwRetryDone c) else .next s

/-- RELEASE_END (R365, R367): the channel is off, or waits for its switch where an action resumed meanwhile. -/
def execReleaseEnd (c : Fin 8) (s : State) : Out :=
  let b := s.blw c
  if b.st ≠ 4 then .next s
  else
    let st : BlwSt := if b.req.isSome then 1 else s.blwRest c
    let s := s.modBlw c fun b => { b with st := st, target := 0 }
    let s := if 4 ≤ c.val then s.blwOccur c 2 else s
    .next (((s.blwReeval c).parFollow c).blwRetryDone c)

/-- OPEN_SETTLE_END (R369): the open report of a timed dome. -/
def execOpenSettleEnd (c : Fin 8) (s : State) : Out :=
  let b := s.blw c
  if b.wantOpen ∧ !b.act.pos ∧ (b.st = 0 ∨ b.st = 1 ∨ b.st = 5 ∨ b.st = 6) then .next (s.blwOpened c) else .next s

/-- POSITION_REPORT (R369): PGPIO has read `level` for 1 ms; the device without OWNER takes the reports from AGREE (R372). -/
def execPositionReport (c : Fin 8) (level : Bool) (s : State) : Out :=
  let b := s.blw c
  let g : BitVec 16 := 1 <<< b.act.pgpio.val
  let s := if b.act.pos then s.modSerial fun x => { x with gpio := if level then x.gpio ||| g else x.gpio &&& ~~~g } else s
  if !b.act.pos ∨ !s.drives then .next s
  else if b.wantClosed ∧ level = b.act.plevel ∧ (b.st = 2 ∨ b.st = 3) then .next (s.blwClosed c)
  else if b.wantOpen ∧ level ≠ b.act.plevel then .next (s.blwOpened c)
  else .next s

/-! ### Tests and protective cuts (R368, R370, R371) -/

/-- Whether the switch current agreed with the channel's (R371). -/
def pulseSwitchOk (r : PulseResult) : Bool := decide (r.apart ≤ 20)
/-- Whether a test pulse passes (R371). -/
def pulsePass (r : PulseResult) : Bool := decide (85 ≤ r.low ∧ r.high ≤ 115 ∧ r.after < 5) && pulseSwitchOk r

/-- The retry of a pair waits for the test of its upper channel (R368): it starts, or closes, when that test is over. -/
def State.blwRetryPair (s : State) (c : Fin 8) : State :=
  match s.pairOf c with
  | some l =>
    if l ≠ c ∧ (s.unit (uBlw l)).st = 3 ∧ ((s.blw l).st = 0 ∨ (s.blw l).st = 6) then (s.blwRetry l).settleUnit (uBlw l) else s
  | none => s

/-- The test of a channel is decided, and a retry that waited for it goes on (R288, R368, R371). -/
def State.blwTestOver (s : State) (c : Fin 8) (pass : Bool) : State :=
  (((s.testOver (uBlw c) pass 0).parFollow c).blwRetryPair c).parFollow c

/-- TEST_PULSE_END (R371): the channel's test is decided; a failed switch fails both of its channels. -/
def execTestPulseEnd (c : Fin 8) (r : PulseResult) (s : State) : Out :=
  let b := s.blw c
  if b.st ≠ 5 then .next s
  else
    let s := (s.modBlw c fun b => { b with st := 6, target := 0 }).blwReeval c
    let o := otherBlw c
    let s := s.blwTestOver c (pulsePass r)
    let u := (s.unit (uBlw o)).st
    let s :=
      if pulseSwitchOk r ∨ u = 4 ∨ u = 5 then s
      else
        let s := (s.modUnit (uBlw o) fun x => { x with byError := true, cause := (s.unit (uBlw c)).cause }).blwRelease o
        let s := if (s.blw o).st = 0 ∨ (s.blw o).st = 7 then s.modBlw o fun b => { b with st := 6 } else s
        s.blwTestOver o false
    .next s.fmDeliver

/-- A detected error of a channel; of both where they are a pair (R368). -/
def State.blwDetect (s : State) (c : Fin 8) (cause : Byte) : State :=
  match s.pairOf c with
  | some k => ((s.detect (uBlw k) cause).detect (uBlw (otherBlw k)) cause).settleUnit (uBlw k) |>.settleUnit (uBlw (otherBlw k))
  | none => (s.detect (uBlw c) cause).settleUnit (uBlw c)

/-- The channel that drives a channel's current: the lower one of a pair, but each its own in a test pulse (R368, R371). -/
def State.blwDriver (s : State) (c : Fin 8) : Fin 8 := if (s.blw c).st = 5 then c else (s.pairOf c).getD c

/-- Whether a channel carries current, alone or as the upper half of a pair. -/
def State.blwLive (s : State) (c : Fin 8) : Bool :=
  blwActive (s.blw c) || ((s.blw c).st == 7 && blwActive (s.blw (otherBlw c)))

/-- A channel is cut; a test pulse that the cut ends has failed (R370, R371). -/
def State.blwCutTest (s : State) (c : Fin 8) : State :=
  let test := (s.blw c).st == 5 && (s.unit (uBlw c)).st == 2
  let s := s.blwCut c
  if test then s.blwTestOver c false else s

/-- BELLOWS_OVERCURRENT (R370): cut at once, source 5. -/
def execBellowsOvercurrent (c : Fin 8) (s : State) : Out :=
  if !s.blwLive c ∨ !s.drives then .next s
  else
    let k := s.blwDriver c
    .next (((s.blwOccur c 5).blwDetect c 5).blwCutTest k).fmDeliver

/-- BELLOWS_REGULATION_ERROR (R370): open load, or regulation off for 5 ms outside release: released, source 6. -/
def execBellowsRegulationError (c : Fin 8) (s : State) : Out :=
  let k := s.blwDriver c
  if !s.blwLive c ∨ (s.blw k).st = 4 ∨ !s.drives then .next s
  else .next (((s.blwOccur c 6).blwDetect c 6).blwRelease k).fmDeliver

/-- SWITCH_FAULT (R370): both channels of the switch are off at once, source 7. -/
def execSwitchFault (k : Fin 4) (s : State) : Out :=
  if !s.drives then .next s
  else
    let a : Fin 8 := ⟨2 * k.val, by omega⟩
    let b : Fin 8 := ⟨2 * k.val + 1, by omega⟩
    let s := { s with bellows := { s.bellows with hsFault := s.bellows.hsFault ||| (1 <<< k.val : BitVec 4) } }
    let s := ((s.blwOccur a 7).detect (uBlw a) 7).blwOccur b 7
    let s := ((s.detect (uBlw b) 7).settleUnit (uBlw a)).settleUnit (uBlw b)
    let cut (c : Fin 8) (s : State) : State := if (s.blw c).st = 0 ∨ (s.blw c).st = 7 then s else s.blwCutTest c
    .next (cut b (cut a s)).fmDeliver

/-- VACT_UNDERVOLTAGE (R370): every action ends by release and requests are refused while it lasts. -/
def execVactUndervoltage (low : Bool) (s : State) : Out :=
  let s := s.modThermal fun t => { t with vact := !low }
  let was := s.bellows.lowVact
  let s := { s with bellows := { s.bellows with lowVact := low } }
  .next (if low && !was then s.blwLowVact else s)

end Sys2Proof.Machine
end

