-- ==== Sys2Proof/Machine/TwinOps.lean ====
section
/-! DEFINITION. Twin operation: ownership, pairing, the commit agreement, digests and resync (R311–R338). -/
namespace Sys2Proof.Machine

/-! ### Ownership (R311, R312, R331, R332, R516, R517) -/

/-- Whether a port is the lowest-numbered running one. -/
def State.isLow (s : State) (p : Port) : Bool := s.lowRunning == some p

/-- OWNER rises (R311, R312): source 8, record 0x500, source 4 of the transmitters (R283); in twin operation the outputs flag failover (R281), a
transit in steps 2 to 6 is abandoned with code 0x09, in LOCKSTEP by the next AGREE (R322), and washer actions end. -/
def State.gainOwner (s : State) : State :=
  if s.twin.owner then s
  else
    let took := s.twin.takeover
    let s := s.modTwin fun t =>
      { t with owner := true, raiseAtMer := false, takeover := false, prime := t.prime || s.twinEn,
               takeovers := if took then satAdd t.takeovers 1 else t.takeovers }
    let s := (s.occur (srcLink 8)).noteTwin 8
    if !s.twinEn then (s.occur (srcTx 0 4)).occur (srcTx 1 4)
    else
      let s := s.outputsGain
      let s := if !s.transit.cur.any fun c => 2 ≤ c.step.val && c.step.val ≤ 6 then s
        else if s.twin.st = 4 then s.modCur fun c => { c with abPend := if c.abPend = 0 then 9 else c.abPend }
        else s.transitAbandonNow 9 false
      forEach ((allFin 8).filter fun c => 4 ≤ c.val) (fun c t => t.blwRelease c) s

/-- Whether the analog die can drive OWNER high: boot complete (R516), the watchdog refreshed, no thermal shutdown (R311). -/
def State.canOwn (s : State) : Bool := s.boot.complete && !s.twin.watchdog && !s.thermal.shutdown && !s.thermal.held

/-- Whether OWNER may rise with PEER_OWNER low (R318, R331). -/
def State.mayOwn (s : State) : Bool := s.canOwn && !s.peerOwner

/-- The device is to own: at its next meridian of the lowest-numbered running port, or at once when no port runs (R318, R331). -/
def State.wantOwner (s : State) : State :=
  if s.twin.owner then s
  else
    let s := s.modTwin fun t => { t with raiseAtMer := true }
    if !s.anyRunning && s.mayOwn then s.gainOwner else s

/-- The device is to lower OWNER by the same rule (R517). -/
def State.wantLower (s : State) : State :=
  if s.anyRunning then s.modTwin fun t => { t with lowerAtMer := true } else s.dropOwner

/-- OWNER rises where it is to: pending from the pair's roles, or with EN = 0 from the completion of boot on (R311, R318). -/
def State.ownerRise (s : State) : State :=
  let s := if s.twin.raiseAtMer && s.mayOwn then s.gainOwner else s
  if !s.twinEn && s.mayOwn then s.gainOwner else s

/-- Pending changes of OWNER at a meridian of the lowest-numbered running port. -/
def State.ownerAtMer (s : State) : State := (if s.twin.lowerAtMer then s.dropOwner else s).ownerRise

/-! ### States of the unit (R317, R318, R331) -/

/-- The unit enters a state. A pair that forms starts with this device's own damper stage until its first AGREE, and one that ends returns to it
(R381; log entry 186). -/
def State.twinState (s : State) (n : Fin 7) : State :=
  let t := s.modTwin fun t => { t with st := n }
  let t := if t.twinning && !s.twinning then t.modThermal fun th => { th with agreed := th.stage } else t
  t.stageFollow s.deviceStage

/-- Serial number, from the identity item (R441). -/
def State.serial64 (s : State) : BitVec 64 :=
  let w := bytesWords (s.nv.itemRead itemIdentity)
  nthW w 1 ++ nthW w 0

def idWord : W := 0x01119640

/-- HELLO (R315). -/
def State.helloWords (s : State) : List W :=
  let sn := s.serial64
  [sn.extractLsb' 0 32, sn.extractLsb' 32 32, wn (b2n s.twin.strap + 2 * b2n s.twin.owner), idWord, s.imageDigest]

/-- The agreement of the pair and everything that waits on the link is forgotten; a class D copy that waited for its AGREE replaces the one
under adoption (R519). -/
def State.twinClear (s : State) : State :=
  let s := match s.twin.laterD with
    | some c => s.modParams fun q => { q with pending := insertN q.pending 0 c, devChecked := false, devAdopters := [] }
    | none => s
  let s := forEach (allFin 182) (fun u t =>
    if (t.unit u).forPeer then t.modUnit u fun x => { x with forPeer := false, backAtMer := true } else t) s
  let s := forEach s.nv.sent (fun w t =>
    t.nvQueue { page := 1024 + w.1, off := w.2.1, bytes := w.2.2, src := .host }) (s.modNv fun n => { n with sent := [] })
  s.modTwin fun t =>
    { t with unacked := [], queue := [], txSeq := 0, rxSeq := 0, ackDue := false, proposals := [], captured := [], agreedI := [], laterD := none,
             sweep := false, checkFrames := 0, rowsIn := [], ownTiles := [], peerTiles := [], mism := [], diverged := [],
             gotRows := [], portWait := [], agreeHold := Vector.replicate 4 false,
             sendTiles := [], tests := [], psIn := [], psWait := [], psOut := [], allBlocks := false, swapAt := false, agreeIn := [], mapNew := false,
             offsetDue := Vector.replicate 4 false, fromPeer := Vector.replicate 4 false, ownStart := Vector.replicate 4 false }

/-- The device serves alone (R317, R331): a device that is not owner takes OWNER when PEER_OWNER is low. Lanes parked for the partner stay
parked until a resync withdraws its retirements (R146). -/
def State.alone (s : State) (n : Fin 7) : State :=
  let s := s.twinClear.twinState n
  let s := s.modTwin fun t =>
    { t with agreedTicks := s.nv.optime, held := if t.owner then [] else t.held, prime := t.prime || t.owner }
  if s.twin.owner then s
  else (s.modTwin fun t => { t with takeover := true }).wantOwner

/-- Which device is PRIME (R318, R517): the one that holds OWNER; else, or with both, by strap and then by the lower serial number. -/
def State.electPrime (s : State) (peer : List W) : Bool :=
  let po := bitOf (nthW peer 2) 1
  let ps := bitOf (nthW peer 2) 0
  if s.twin.owner && !po then true
  else if !s.twin.owner && po then false
  else if s.twin.strap && !ps then true
  else if !s.twin.strap && ps then false
  else decide (s.serial64.toNat < (nthW peer 1).toNat * 2 ^ 32 + (nthW peer 0).toNat)

/-- NVWRITE's words (R315, R337): page, offset and length, the bytes; their order is the model's (log entry 33). -/
def nvFrame (page off : Nat) (bs : List Byte) : List W := wn page :: wn (off + 2 ^ 16 * bs.length) :: bytesWords bs

/-- The host pages of the prime go to the shadow when the pair forms (R333, R336). -/
def State.sendPages (s : State) : State :=
  forEach (List.range 768) (fun q t =>
    t.linkSend 0x09 3 0 (nvFrame q 0 (Mem.read t.nv.view ((1024 + q) * 256) 256))) s

/-- HELLO accepted (R317, R318, R321, R333): the pair is in RESYNC, every port out of step. -/
def State.paired (s : State) (peer : List W) : State :=
  let prime := s.electPrime peer
  let s := (s.twinState 3).modTwin fun t =>
    { t with prime := prime, held := [], outStep := Vector.replicate 4 true, agreedTicks := s.nv.optime, checkFrames := 0,
             allBlocks := prime, mapNew := true, offsets := if prime then Vector.replicate 4 0 else t.offsets,
             offsetDue := Vector.replicate 4 (!prime) }
  let s := s.occur (srcLink 2)
  if prime then s.wantOwner.sendPages else if s.twin.owner then s.wantLower else s

/-- LOCKSTEP ends (R317): what a bulk resync copies for the device as a whole goes with it (R333). -/
def State.resyncAgain (s : State) : State :=
  if s.twin.st = 4 then
    let s := s.modTwin fun t => { t with st := 3, checkFrames := 0, allBlocks := t.prime }
    if s.twin.prime then s.sendPages else s
  else s.modTwin fun t => { t with checkFrames := 0 }

/-- A port is to be resynced in bulk from the prime: LOCKSTEP ends (R317, R328). -/
def State.bulkPort (s : State) (p : Port) : State :=
  if s.twin.outStep.get p then s
  else
    (s.modTwin fun t =>
      { t with outStep := upd t.outStep p fun _ => true, fromPeer := upd t.fromPeer p fun _ => false }).resyncAgain

/-- A port is out of step (R325): source 28; the shadow takes its offset from the next AGREE (R321). -/
def State.outOfStep (s : State) (p : Port) : State :=
  let new := !s.twin.outStep.get p
  let s := (s.modTwin fun t =>
    { t with offsetDue := if t.prime then t.offsetDue else upd t.offsetDue p fun _ => true }).bulkPort p
  if new then s.occur (srcLink 28) else s

/-- A meridian at which a port is found out of step is counted (R339 TW_OUTSTEP). -/
def State.stepMissed (s : State) (p : Port) : State :=
  (s.modTwin fun t => { t with outsteps := satAdd t.outsteps 1 }).outOfStep p

/-! ### Resync (R328, R329, R333, R334) -/

/-- The port state that is copied (R333). -/
def State.portState (s : State) (p : Port) : ResyncState :=
  let x := s.port p
  { col := x.col, rowOff := x.rowOff, slotOrder := x.slotOrder,
    slots := x.slots.toList.map fun d => (d.m, d.ysh, d.valid),
    zones := x.zones.toList.map fun z => (z.st, z.ctr, z.entry, z.alarms, z.maxima),
    curve := x.curve.toList, sgen := x.sgenNow, egen := x.egen,
    fields := (List.range 8).map fun i => s.force 1 (64 + 8 * p.val + i) }

/-- The port state as words; their order is the model's (log entry 32). -/
def stateBody (r : ResyncState) : List W :=
  (r.col.flatMap fun e => [wn e.1, wi e.2]) ++ (r.rowOff.flatMap fun e => [wn e.1, wi e.2]) ++
    r.slotOrder.map (fun j => wn j.val) ++ (r.slots.flatMap fun d => [d.1, wn d.2.1, wn (b2n d.2.2)]) ++
    (r.zones.flatMap fun z => [wn z.1.val, wn z.2.1, z.2.2.1.zeroExtend 32, wn z.2.2.2.1] ++ z.2.2.2.2.map wn) ++
    bytesWords r.curve ++ [r.sgen.zeroExtend 32, r.egen] ++ r.fields

/-- Installs a port state (R333). -/
def State.installState (s : State) (p : Port) (r : ResyncState) : State :=
  let f (i : Nat) : W := nthW r.fields i
  let s := s.modPort p fun x =>
    { x with
      col := r.col, rowOff := r.rowOff, slotOrder := r.slotOrder
      slots := updAll x.slots fun j d => match r.slots[j.val]? with
        | some e => ⟨e.1, e.2.1, e.2.2⟩
        | none => d
      zones := updAll x.zones fun z d => match r.zones[z.val]? with
        | some e => ⟨e.1, e.2.1, e.2.2.1, e.2.2.2.1, e.2.2.2.2⟩
        | none => d
      curve := updAll x.curve fun i d => (r.curve[i.val]?).getD d
      curveFresh := false, sgenNow := r.sgen, egen := r.egen }
  s.modTPort p fun x =>
    { x with tcount := f 1, lastTicks := ticksOf (f 2) (f 3), lastPcc := pccOf (f 3), abcode := BitVec.ofNat 8 (fld (f 4) 31 24),
             domeab := BitVec.ofNat 8 (fld (f 4) 23 16), wdefer := bitOf (f 4) 11, overdue := bitOf (f 4) 10,
             domeout := bitOf (f 4) 9, sceneOn := bitOf (f 4) 8, abcount := f 5, tdome := f 6, sbframes := f 7 }

/-- Whether a frame's words of a row are all formed and written back. -/
def Frame.rowFormed (fr : Frame) (p : Port) (row : Nat) : Bool :=
  (List.range (fr.pb.cols p)).all fun a => (fr.px p row a).word.isSome

/-- Whether this device has finished a row of the frame that ended last: its words are all formed, or it did not process the frame. -/
def State.rowDone (s : State) (p : Port) (row : Nat) : Bool :=
  match (s.port p).tail with
  | some fr => !fr.processed || fr.rowFormed p row
  | none => true

/-- Whether phase A of a row has begun in the frame now arriving. -/
def State.rowBegun (s : State) (p : Port) (row : Nat) : Bool :=
  match (s.port p).frame with
  | some fr => (List.range (fr.pb.cols p)).any fun a => (fr.px p row a).doneA
  | none => false

/-- The frame that a row now stands after, by its agreed count, with the three slots most recently written at that row (R329, R333): the
frame arriving, once it has written the row back; else the frame that ended last, until phase A of the row begins in the frame arriving. -/
def State.rowPlace (s : State) (p : Port) (row : Nat) : Option (W × List (Fin 4)) :=
  let x := s.port p
  let last := if s.rowDone p row && !s.rowBegun p row then some (s.agreedMer p, x.slotOrder.take 3) else none
  match x.frame with
  | some fr =>
    if 0 < fr.pb.cols p ∧ fr.rowFormed p row then
      some (s.agreedOf p fr.m, (fr.slot.toList ++ x.slotOrder.filter fun j => fr.slot != some j).take 3)
    else last
  | none => last

/-- Its slots. -/
def State.rowSlots (s : State) (p : Port) (row : Nat) : List (Fin 4) :=
  match s.rowPlace p row with
  | some e => e.2
  | none => (s.port p).slotOrder.take 3

/-- The byte ranges of the store that a row is made of: its records, and its words in those slots. -/
def State.rowRanges (s : State) (p : Port) (row : Nat) : List (Nat × Nat) :=
  let n := s.params.force.cols p
  (recordAddr s.params.force p row 0, 64 * n) :: (s.rowSlots p row).map fun j => (slotBase p j + row * n * 4, 4 * n)

/-- The 64-bit words of a row in order. -/
def State.rowWords (s : State) (p : Port) (row : Nat) : List Nat := (s.rowRanges p row).flatMap fun e => wordsOf e.1 e.2

/-- A row as it is sent, its words read and checked (R245); poisoned words go as such (R247; log entry 181). -/
def State.rowBody (s : State) (p : Port) (row : Nat) : ResyncRow :=
  let pb := s.params.force
  let n := pb.cols p
  let ws := s.rowWords p row
  { port := p, row := row, frame := ((s.rowPlace p row).map (·.1)).getD (s.agreedMer p), records := s.storeBytes (recordAddr pb p row 0) (64 * n),
    slots := (s.rowSlots p row).map fun j => bytesWords (s.storeBytes (slotBase p j + row * n * 4) (4 * n)),
    portState := if s.twin.psOut.contains p then some (s.portState p) else none
    poison := (ws.zip (List.range ws.length)).filterMap fun e => if s.store.poison.contains e.1 then some e.2 else none }

/-- Sends a row in STATE frames. -/
def State.sendRow (s : State) (p : Port) (row : Nat) : State :=
  let s := forEach (s.rowRanges p row) (fun e t => t.storeCheck e.1 e.2) s
  let r := s.rowBody p row
  let ps := match r.portState with
    | some x => stateBody x
    | none => []
  let s := s.modTwin fun t => { t with psOut := t.psOut.filter fun q => q ≠ p }
  s.linkSend 0x07 4 p ([wn row, r.frame] ++ bytesWords r.records ++ r.slots.flatten ++ r.poison.map wn ++ ps)

/-- The tiles of a port that contain a row, by number. -/
def tilesAt (pb : PMap) (p : Port) (row : Nat) : List Nat :=
  (List.range (pb.tilesAcross p)).map fun i => row / 64 * pb.tilesAcross p + i

/-- Installs a row (R329): a store write of the records and slot words; a poisoned word arrives as poison (log entry 181). Its tiles receive
resync in the frame (R327). -/
def State.installRow (s : State) (r : ResyncRow) : State :=
  let pb := s.params.force
  let p := r.port
  let n := pb.cols p
  let k := r.frame.toNat
  let s := s.modTwin fun t =>
    { t with gotRows := (t.gotRows.filter fun e => e.1 ≠ p.val ∨ e.2.2 + 1 = k ∨ e.2.2 = k) ++ (tilesAt pb p r.row).map fun i => (p.val, i, k) }
  let s := s.storeWrite (recordAddr pb p r.row 0) (r.records.take (64 * n))
  let s := forEach ((s.rowSlots p r.row).zip r.slots) (fun e t =>
    t.storeWrite (slotBase p e.1 + r.row * n * 4) (wordsBytes (e.2.take n))) s
  let ws := s.rowWords p r.row
  forEach r.poison (fun i t => match ws[i]? with
    | some w => t.modStore fun x => x.poisonWord w
    | none => t) s

/-- The running ports that wait for a bulk resync. -/
def State.sweepPorts (s : State) : List Port :=
  (allFin 4).filter fun p => (s.port p).st == .running && s.twin.outStep.get p

/-- LOCKSTEP is entered (R317, R332). -/
def State.lockstep (s : State) : State :=
  let s := (s.twinState 4).occur (srcLink 6)
  if s.twin.yieldWait && s.twin.owner then s.modTwin fun t => { t with yieldWait := false, swapAt := true } else s

/-- Whether a transit is in steps 2 to 7 or an AGREE not yet applied starts one (R322, R334). -/
def State.transitNear (s : State) : Bool := s.inTransit || (s.twin.captured ++ s.twin.held).any fun a => a.decision == 1

/-- The sweep of a port begins (R333, R334, R340): its source sends the port state with the first row. -/
def State.sweepBegin (s : State) (p : Port) : State :=
  (s.modTwin fun t =>
    { t with sweep := true, sweepPort := p, sweepRow := 0, psOut := if t.isSource p then t.psOut ++ [p] else t.psOut }).occur (srcLink 4)

/-- What RESYNC does next (R317, R334): the prime starts the sweep of the lowest port out of step unless a transit is in steps 2 to 7;
once every running port is in step and its check frame has matched, LOCKSTEP. A port that enters running unequal brings RESYNC again. -/
def State.resyncNext (s : State) : State :=
  let s := if s.twin.st = 4 ∧ !s.sweepPorts.isEmpty then s.resyncAgain else s
  if s.twin.st ≠ 3 then s
  else match s.sweepPorts with
    | p :: _ => if s.twin.prime && !s.twin.sweep && !s.transitNear then s.sweepBegin p else s
    | [] =>
      if s.anyRunning && !s.twin.sweep &&
          (allFin 4).all (fun p => (s.port p).st != .running || s.twin.checkFrames / 2 ^ p.val % 2 == 1) then s.lockstep
      else s

/-- The sweep of a port is complete; the next begins or the bulk resync is (R333, R340 source 5). Who is the port's source is kept until its
check frame matches, for rows that have to be sent again (R329). -/
def State.sweepOver (s : State) (p : Port) : State :=
  let s := s.modTwin fun t => { t with outStep := upd t.outStep p fun _ => false, sweepRow := 0 }
  match s.sweepPorts with
  | q :: _ => s.modTwin fun t => { t with sweepPort := q, psOut := if t.isSource q then t.psOut ++ [q] else t.psOut }
  | [] => (s.modTwin fun t => { t with sweep := false, bulk := satAdd t.bulk 1, checkFrames := 0 }).occur (srcLink 5)

/-! ### Tile digests (R327, R328) -/

/-- The tile is resynced, from this device or to it. -/
def State.resyncTile (s : State) (k : Nat) (source : Bool) : State :=
  let e := (k / 65536, k % 65536)
  s.modTwin fun t =>
    if source then { t with sendTiles := if t.sendTiles.contains e then t.sendTiles else t.sendTiles ++ [e] }
    else { t with diverged := if t.diverged.contains e then t.diverged else t.diverged ++ [e] }

/-- The bands of frame `f` of a port: of the frame that ended last, of the one arriving, or of the coming one. -/
def State.bandsIn (s : State) (p : Port) (f : Nat) : List Band :=
  let x := s.port p
  let at' (o : Option Frame) : Option (List Band) := o.bind fun fr => if (s.agreedOf p fr.m).toNat = f then some fr.bands else none
  ((at' x.tail).orElse fun _ => at' x.frame).getD x.bands

/-- The lanes whose bands met a tile in frame `f` (R328). -/
def State.tileLanes (s : State) (p : Port) (t f : Nat) : List LaneNo :=
  let q := tileRect s.params.force p t
  ((s.bandsIn p f).filter fun b => decide (b.first < q.2.2.1 + q.2.2.2) && decide (q.2.2.1 < b.first + b.width)).map (·.lane)

/-- The words of a tile's records and of its frame-slot words (R328). -/
def State.tileWords (s : State) (p : Port) (t : Nat) : List Nat :=
  let pb := s.params.force
  (tilePix pb p t).flatMap fun q =>
    wordsOf (recordAddr pb p q.1 q.2) 64 ++ (allFin 4).flatMap fun j => wordsOf (slotBase p j + (q.1 * pb.cols p + q.2) * 4) 4

/-- The tests of a mismatch without flags (R328 cases 3 to 5): the tile check now, the lanes by rotation. -/
def State.tileTest (s : State) (p : Port) (k f : Nat) : State :=
  let all := s.tileWords p (k % 65536)
  let ws := all.filter fun w => s.store.hard.contains w || s.store.poison.contains w
  let s := forEach all (fun w t => t.checkWord w) s
  let ls := s.tileLanes p (k % 65536) f
  let s := forEach ls (fun l t => if (t.unit (uLane l)).st = 0 then
    t.modUnit (uLane l) fun x => { x with rotate := true, cause := 0xFF, byError := false } else t) s
  s.modTwin fun t =>
    { t with tests := t.tests ++ [{ key := k, frame := f, lanes := ls, tileFail := !ws.isEmpty, own := none, peer := none }] }

/-- Whether the prime, and whether the shadow, flagged tiles of a port among those that differed in frame `f`. -/
def State.flagsOf (s : State) (p : Port) (f : Nat) : Bool × Bool :=
  let l := s.twin.mism.filter fun x => x.1 = p.val ∧ x.2.1 = f
  (l.any (·.2.2.1), l.any (·.2.2.2))

/-- The port state is resynced, from this device or to it (R328, R333). -/
def State.portResync (s : State) (p : Port) (source : Bool) : State :=
  if source then (s.modTwin fun t => { t with psOut := t.psOut ++ [p] }).sendRow p 0
  else s.modTwin fun t => { t with psWait := if t.psWait.contains p then t.psWait else t.psWait ++ [p] }

/-- The rule for a port with more than 64 mismatched tiles in one frame (R328), applied with the port digest, when all of them are known: bulk
from the prime, unless only the prime flagged tiles. -/
def State.bulkCheck (s : State) (p : Port) (f : Nat) : State :=
  let fl := s.flagsOf p f
  if 64 < (s.twin.mism.filter fun x => x.1 = p.val ∧ x.2.1 = f).length && !(fl.1 && !fl.2) then s.bulkPort p else s

/-- A port digest that differs (R328): the port state is resynced, from the device without flags where one device alone flagged tiles of
the port; where the source of the port's tiles waits for tests, from the source that they name first; else from the prime. -/
def State.portMismatch (s : State) (p : Port) (f : Nat) : State :=
  let s := s.occur (srcLink 14)
  let fl := s.flagsOf p f
  if s.twin.outStep.get p then s
  else if !fl.1 && !fl.2 && s.twin.tests.any (fun e => e.key / 65536 == p.val && e.frame == f) then
    s.modTwin fun t => { t with portWait := t.portWait ++ [(p, f)] }
  else s.portResync p (s.twin.prime != (fl.1 && !fl.2))

/-- A tile digest that differs (R328). A port whose bulk resync runs is resent by its sweep; a tile that is being resynced, or that received
resync in the frame, is resent from the same source without tests. -/
def State.tileMismatch (s : State) (k f : Nat) (own peer : BitVec 3) : State :=
  let p : Port := ⟨k / 65536 % 4, by omega⟩
  let e := (p.val, k % 65536)
  let primeFl := if s.twin.prime then own else peer
  let shadowFl := if s.twin.prime then peer else own
  let s := (s.modTwin fun t =>
    { t with mismatch := satAdd t.mismatch 1,
             mism := (t.mism.filter fun x => x.1 ≠ p.val ∨ x.2.1 = f) ++ [(p.val, f, primeFl != 0, shadowFl != 0)] }).occur (srcLink 10)
  if s.twin.outStep.get p then s
  else if s.twin.diverged.contains e || s.twin.sendTiles.contains e then s
  else if own.getLsbD 2 || peer.getLsbD 2 then s.resyncTile k (!own.getLsbD 2)
  else if own = 0 ∧ peer ≠ 0 then s.resyncTile k true
  else if own ≠ 0 ∧ peer = 0 then s.resyncTile k false
  else if own ≠ 0 then s.resyncTile k s.twin.prime
  else if s.twin.tests.any fun x => x.key == k then s
  else s.tileTest p k f

/-- A tile digest that agrees: the tile's resync, if it was one, is over (R329); a port digest that agrees is the port's check frame (R317),
and its source is the prime again. -/
def State.tileMatch (s : State) (k f : Nat) : State :=
  let p : Port := ⟨k / 65536 % 4, by omega⟩
  if k % 65536 = 65535 then
    (if s.twin.st = 3 ∧ !s.twin.sweep ∧ !s.twin.outStep.get p ∧ !(s.twin.mism.any fun x => x.1 == p.val && x.2.1 == f) then
      s.modTwin fun x =>
        { x with checkFrames := if x.checkFrames / 2 ^ (k / 65536) % 2 = 1 then x.checkFrames else x.checkFrames + 2 ^ (k / 65536),
                 fromPeer := upd x.fromPeer p fun _ => false }
     else s)
  else s.modTwin fun x => { x with sendTiles := x.sendTiles.filter fun e => e ≠ (p.val, k % 65536) }

/-- Compares the partner's digests with this device's, as far as both are known. -/
def State.digestSettle (s : State) : State :=
  let l := s.twin.peerTiles
  let s := s.modTwin fun t => { t with peerTiles := [] }
  forEach l (fun e t =>
    match t.twin.ownTiles.find? fun o => o.1 = e.1 with
    | none => t.modTwin fun x => { x with peerTiles := x.peerTiles ++ [e] }
    | some o =>
      if o.2.1 < e.2.1 then t.modTwin fun x => { x with peerTiles := x.peerTiles ++ [e] }
      else if o.2.1 > e.2.1 then t
      else
        let p : Port := ⟨e.1 / 65536 % 4, by omega⟩
        let t := if e.1 % 65536 = 65535 then t.bulkCheck p e.2.1 else t
        if o.2.2.1 = e.2.2.1 then t.tileMatch e.1 e.2.1
        else if e.1 % 65536 = 65535 then t.portMismatch p e.2.1
        else t.tileMismatch e.1 e.2.1 o.2.2.2 e.2.2.2) s

/-- A test whose lanes are back: its result goes to the partner; with both results the source is chosen (R328). -/
def State.testSettle (s : State) : State :=
  let l := s.twin.tests
  let s := s.modTwin fun t => { t with tests := [] }
  forEach l (fun e t =>
    let over' (x : LaneNo) : Bool :=
      let u := t.unit (uLane x)
      !u.rotate && u.st != 1 && u.st != 2 && (u.st != 6 || u.backAtMer || u.failAtMer)
    let fail := e.lanes.any fun x =>
      (t.unit (uLane x)).st == 4 || (t.unit (uLane x)).st == 5 || (t.unit (uLane x)).failAtMer
    let r : TileTest × State :=
      if e.own.isNone && e.lanes.all over' then
        ({ e with own := some (fail || e.tileFail) },
          t.linkSend 0x06 1 ⟨e.key / 65536 % 4, by omega⟩ [wn (e.key % 65536), wn e.frame, wn (b2n fail + 2 * b2n e.tileFail)])
      else (e, t)
    match r.1.own, r.1.peer with
    | some o, some q =>
      let src := if o == q then r.2.twin.prime else !o
      let u := r.2.resyncTile e.key src
      let w : Port × Nat := (⟨e.key / 65536 % 4, by omega⟩, e.frame)
      if u.twin.portWait.contains w then
        (u.modTwin fun x => { x with portWait := x.portWait.filter fun v => v != w }).portResync w.1 src
      else u
    | _, _ => r.2.modTwin fun x => { x with tests := x.tests ++ [r.1] }) s

/-! ### The commit agreement (R321–R326) -/

/-- Whether a class P block has no running port to carry it (R322). -/
def State.portless (s : State) (blk : Nat) : Bool :=
  blkClass blk == .p && (match blkPort blk with
    | some q => (s.port q).st != .running
    | none => match lookupN s.params.streamTie blk with
      | some q => (s.port q).st != .running
      | none => true)

/-- The blocks that AGREE(M) of a port carries (R322, R333). -/
def State.agreeBlocks (s : State) (p : Port) : List (Nat × PMap) :=
  let own := s.pendingOf p
  if !s.isLow p then own
  else
    let dev := s.params.pending.filter fun e =>
      (blkClass e.1 == .d && !s.params.devChecked) || (blkClass e.1 == .i && !s.twin.agreedI.contains e) || (s.portless e.1 && !own.contains e)
    let all := if s.twin.allBlocks then
        ((List.range 0x1E1).filter fun b =>
          blkClass b != .none && blkClass b != .ro && (lookupN s.params.pending b).isNone).map fun b => (b, s.params.force.block b)
      else []
    let later := match s.twin.laterD with
      | some c => [(0, c)]
      | none => []
    own ++ later ++ dev ++ all

/-- Identifiers named by the entries of the partner's latest PROPOSE with an action. -/
def State.proposed (s : State) (act : Nat) : List W :=
  (s.twin.proposals.flatMap fun q => q.entries.filterMap fun e => if e.2.toNat = act then some e.1 else none).eraseDups

/-- Units of UNIT_STATE with a property, by identifier. -/
def State.unitsWith (s : State) (f : UnitS → Bool) : List W := ((allFin 182).filter fun u => f (s.unit u)).map slotUid

/-- What the prime captures at its meridian M of a port (R322, R324); with the first AGREE of a bulk resync also the generation that each
carried copy follows (R333, log entry 164). -/
def State.capture (s : State) (p : Port) : State :=
  let s := match s.transit.cur with
    | some c =>
      if c.port = p ∧ c.step = 4 ∧ fld (s.t1 3) 15 8 ≤ c.flats ∧ (c.rhoDen = 0 ∨ !bitOf (s.t1 (16 + 8 * p.val)) 3) ∧ c.abPend = 0 then
        s.modCur fun c => { c with abPend := 6 }
      else s
    | none => s
  let low := s.isLow p
  let c := s.transit.cur
  let blocks := s.agreeBlocks p
  let ag : Agreement :=
    { port := p, m := s.agreedMer p, stage := 0, swap := low && s.twin.swapAt, ticks := s.nv.optime, pcc := s.nv.pcc, sgen := 0,
      decision := BitVec.ofNat 8 (s.transitDecision p),
      abcode := BitVec.ofNat 8 ((c.map (·.abPend)).getD 0),
      rho := match c with
        | some x => if x.port = p ∧ x.step = 4 ∧ x.rhoDen ≠ 0 then wn (rhoOf x) else 0
        | none => 0
      blocks := blocks
      gens := if low && s.twin.allBlocks then
          blocks.map fun e => (e.1, getN s.params.gens e.1 0 - if (lookupN s.params.pending e.1).isSome then 0 else 1)
        else []
      retires := if low then s.unitsWith (fun u => u.st == 4) else []
      rotOut := if low then s.unitsWith (fun u => u.rotate) else []
      rotBack := if low then s.unitsWith (fun u => u.st == 6 && (u.backAtMer || u.forPeer)) else [], withdrawn := [] }
  s.modTwin fun t =>
    { t with captured := (t.captured.filter fun a => a.port ≠ p) ++ [ag] }

/-- What this device has retired of the units that the pair's lists are made from (R146). -/
def State.ownRetired (s : State) : List W :=
  ((allFin 108).filter fun u => (s.unit ⟨u.val, by omega⟩).st == 5).map fun u => slotUid ⟨u.val, by omega⟩

/-- The units that the AGREE of the lowest-numbered running port lists, with the shadow's latest proposals (R294, R324): in the first of a
pair also what either device retired before, and the withdrawal of what the shadow no longer has retired (log entry 163). -/
def State.agreeLists (s : State) (a : Agreement) : Agreement :=
  if !s.isLow a.port then a
  else
    let heard := s.twin.proposals.any fun q => q.port == a.port
    let props := s.proposed 1
    { a with
      retires := (a.retires ++ props ++ if s.twin.mapNew then s.ownRetired else []).eraseDups
      rotOut := (a.rotOut ++ s.proposed 2).eraseDups
      rotBack := a.rotBack.filter fun w => !(s.proposed 2).contains w
      withdrawn := if s.twin.mapNew && heard then s.twin.peerMap.filter fun w => !props.contains w else [] }

/-- A copy from the words of an entry. -/
def entryCopy (blk : Nat) (ws : List W) : PMap :=
  (List.range ws.length).foldl (fun m f => if (fieldInfo blk f).isSome then insertN m (blk * 256 + f) (nthW ws f) else m) []

/-- Reads the entries of an AGREE. -/
def readEntries : Nat → List W → Agreement → Agreement
  | 0, _, a => a
  | _, [], a => a
  | n + 1, h :: r, a =>
    let u := nthW r 0
    match fld h 31 28 with
    | 1 =>
      let w := fld h 24 16
      let blk := fld h 9 0
      readEntries n (r.drop w) { a with blocks := a.blocks ++ [(blk, entryCopy blk (r.take w))] }
    | 2 => readEntries n (r.drop 1) { a with retires := a.retires ++ [u] }
    | 3 => readEntries n (r.drop 1) { a with rotOut := a.rotOut ++ [u] }
    | 4 => readEntries n (r.drop 1) { a with rotBack := a.rotBack ++ [u] }
    | 5 => readEntries n (r.drop 1) { a with withdrawn := a.withdrawn ++ [u] }
    | 6 => readEntries n (r.drop 1) { a with gens := a.gens ++ [(fld h 9 0, u)] }
    | _ => a

/-- An AGREE read back. -/
def readAgree (ws : List W) : Agreement :=
  let w (i : Nat) : W := nthW ws i
  readEntries (fld (w 0) 31 16) (ws.drop 8)
    { port := ⟨fld (w 0) 1 0 % 4, by omega⟩, m := w 1, stage := fld (w 0) 6 4, swap := bitOf (w 0) 8, ticks := ticksOf (w 2) (w 3),
      pcc := pccOf (w 3), sgen := (w 4).extractLsb' 0 16, decision := (w 5).extractLsb' 0 8, abcode := (w 5).extractLsb' 8 8,
      rho := w 6, blocks := [], gens := [], retires := [], rotOut := [], rotBack := [], withdrawn := [] }

/-- Whether two copies of a block hold the same fields. -/
def sameCopy (blk : Nat) (a b : PMap) : Bool :=
  (a ++ b).all fun e => a.fld blk (e.1 % 256) == b.fld blk (e.1 % 256)

/-- The carried copies become the pending ones (R324): a pending copy of this device's own that differs counts as a divergence on the
shadow; on the prime a newer pending copy waits for its own AGREE. -/
def State.agreePending (s : State) (a : Agreement) : State :=
  forEach a.blocks (fun e t =>
    match lookupN t.params.pending e.1 with
    | some c =>
      if sameCopy e.1 c e.2 || t.twin.prime then t
      else
        ((t.modParams fun q => { q with pending := insertN q.pending e.1 e.2 }).modTwin fun x =>
          { x with diverge := satAdd x.diverge 1 }).occur (srcLink 13)
    | none => t) s

/-- Class I blocks agreed: they wait for their unit's idle point (R322). -/
def State.agreeClassI (s : State) (a : Agreement) : State :=
  forEach (a.blocks.filter fun e => blkClass e.1 == .i) (fun e t =>
    t.modTwin fun x => { x with agreedI := insertN x.agreedI e.1 e.2 }) s

/-- The retirements, rotations and withdrawals of an AGREE (R294, R322, R324): this device's own units in state 4 retire; the
partner's enter the partner's map, whose lanes park here (R146). A lane out for a test of either device that the partner then retires comes
back and parks: its return changes no lane list (R287, R304). The shadow's view of the map starts anew with the first list of a pair. -/
def State.agreeUnits (s : State) (a : Agreement) : State :=
  let mine (l : List W) (u : Fin 182) : Bool := l.contains (slotUid u)
  let theirs := a.retires.filter fun w => match uidSlot w with
    | some u => (s.unit u).st != 4 && (s.unit u).st != 5
    | none => false
  let some' := !a.retires.isEmpty
  let told := s.ownRetired.all fun w => a.retires.contains w
  let s := s.modTwin fun t =>
    let old := if t.mapNew && !t.prime then [] else t.peerMap
    { t with peerMap := (old ++ theirs.filter fun w => !old.contains w).filter fun w => !a.withdrawn.contains w,
             mapNew := t.mapNew && (t.prime || !told) }
  let s := forEach (allFin 182) (fun u t =>
    let x := t.unit u
    let parted := t.twin.peerMap.contains (slotUid u)
    if (mine a.rotBack u || parted) && x.st == 6 && (x.backAtMer || x.forPeer) then
      (t.inService u).modUnit u fun x => { x with backAtMer := false, forPeer := false }
    else t) s
  let s := s.retirePending (mine a.retires) true
  let s := s.rotateOut (mine a.rotOut)
  let s := forEach (allFin 182) (fun u t =>
    if mine a.rotOut u && (t.unit u).st == 0 then t.modUnit u fun x => { x with st := 6, forPeer := true } else t) s
  if some' then s.occur (srcLink 15) else s

/-- The position reports that the device without OWNER takes from AGREE (R372): the closed report with decision 2, the open one with 3. -/
def State.domeReport (s : State) (p : Port) (d : Nat) : State :=
  let c := domeOf p
  let b := s.blw c
  if s.drives ∨ !b.act.pos then s
  else if d = 2 ∧ b.wantClosed then (s.modBlw c fun b => { b with wantClosed := false }).blwOccur c 1
  else if d = 3 ∧ b.wantOpen then (s.modBlw c fun b => { b with wantOpen := false }).blwOccur c 2
  else s

/-- The transit decision of an AGREE (R222, R322): the end of step 4 with the averaged ρ, the step, or the abandonment. -/
def State.agreeTransit (s : State) (a : Agreement) : State :=
  let s := match s.transit.cur with
    | some c =>
      let ended := match c.flatMer with
        | some m => decide ((a.m - m).toNat < 2 ^ 31)
        | none => false
      if c.port = a.port ∧ c.step = 4 ∧ ended ∧ a.decision ≠ 5 then s.flatEnd c (some a.rho.toNat) else s
    | none => s
  let s := if !s.twin.prime ∧ s.twin.ownStart.get a.port ≠ (a.decision == 1) then
      (s.modTwin fun t => { t with diverge := satAdd t.diverge 1 }).occur (srcLink 13)
    else s
  if a.decision = 5 then
    (if s.transit.cur.any fun c => c.port == a.port then
      (if s.twin.prime then s.transitAbandonNow a.abcode.toNat false
       else s.transitAbandonNow 9 (domeCode a.abcode.toNat false)) else s)
  else (s.domeReport a.port a.decision.toNat).transitCarry a.port a.decision.toNat

/-- The OWNER swap (R332): a device whose analog die cannot drive OWNER yet takes it as soon as it may. -/
def State.swapOwner (s : State) : State :=
  if s.twin.prime then
    (s.modTwin fun t => { t with yields := satAdd t.yields 1 }).dropOwner.modTwin fun t => { t with prime := false, captured := [] }
  else if s.canOwn then s.gainOwner
  else s.modTwin fun t => { t with raiseAtMer := true, prime := true }

/-- The shadow's PROPOSE(M) (R323). `fr` is the frame that ended at the meridian. Until the prime has listed it, what the shadow retired before
the pair formed goes with its own proposals (log entry 163). -/
def State.sendPropose (s : State) (p : Port) (fr : Option Frame) : State :=
  let fs := match fr with
    | some f => if f.startDisc then 3 else if f.skipped || f.stopped then 2 else if f.held || f.heldStart then 1 else 0
    | none => 3
  let no := match fr with
    | some f => f.fsNum.toNat
    | none => 0
  let es := (s.unitsWith (fun u => u.st == 4) ++ if s.twin.mapNew then s.ownRetired else []).flatMap (fun w => [w, 1]) ++
    (s.unitsWith fun u => u.rotate || (u.st == 6 && !u.backAtMer && !u.forPeer)).flatMap fun w => [w, 2]
  s.linkSend 0x03 1 p ([wn (p.val + 2 ^ 4 * s.thermal.stage + 2 ^ 8 * fs + 2 ^ 16 * (es.length / 2)), s.agreedMer p, wn no] ++ es)

/-! ### EN, REJOIN and YIELD_SEQ (R317, R332, R338, R465) -/

/-- Block 0x002 takes effect. -/
def State.twinBlock (s : State) (o : PMap) : State :=
  let n := s.params.force.fld 2 0
  let was := o.twinEn
  let en := bitOf n 0
  let s :=
    if !en then
      (if was then
        let s := (((s.linkDiscard.islandReset 21).modClocks fun c => c.drop 3).twinClear.twinState 0).modTwin fun t =>
          { t with trained := false, lock := 0, badRun := 0, prime := false, raiseAtMer := false, lowerAtMer := false, takeover := false,
                   held := [], offsets := Vector.replicate 4 0, peerMap := [] }
        if s.mayOwn then s.gainOwner else s
       else s)
    else if !was ∨ s.twin.st = 6 then
      (((s.islandReset 21).islandOut 21).modTwin fun t => { t with trained := false, lock := 0, badRun := 0, imgAsked := false }).twinState 1
    else s
  let seqNo := BitVec.ofNat 8 (fld n 15 8)
  if seqNo = s.twin.yieldSeq then s
  else (s.modTwin fun t => { t with yieldSeq := seqNo }).yieldDue

end Sys2Proof.Machine
end

