-- ==== Sys2Proof/Machine/ZxAlu.lean ====
section
/-! DEFINITION. The scalar ALU instructions (R50–R53). -/
namespace Sys2Proof.Machine

/-- Low and high halves of products (R52). -/
def mulLow (a b : W) : W := a * b
def mulHigh (a b : W) : W := wi ((a.toInt * b.toInt).fdiv (2 ^ 32))

/-- Signed minimum and maximum (R52). -/
def sMin (a b : W) : W := if a.toInt ≤ b.toInt then a else b
def sMax (a b : W) : W := if a.toInt ≤ b.toInt then b else a

/-- A register ALU function (R52): `r` the result from the contents of d, a and b, `fl` the flags it sets when F is 1. -/
def State.alu (s : State) (z : Zx) (f : Bool) (d a b : Reg) (r : W → W → W → W) (fl : Ctx → W → W → W → Ctx) : Out :=
  s.zx z true fun c s =>
    let x := c.get d
    let y := c.get a
    let w := c.get b
    s.done z.agent ((if f then fl c x y w else c).put d (r x y w))

/-- A register ALU function whose flags are Z and N of its result (R52). -/
def State.aluZN (s : State) (z : Zx) (f : Bool) (d a b : Reg) (r : W → W → W → W) : Out :=
  s.alu z f d a b r fun c x y w => c.flagsZN (r x y w)

/-- A shift by b[5:0] (R52). -/
def State.aluShift (s : State) (k : Shift) (z : Zx) (f : Bool) (d a b : Reg) : Out :=
  s.alu z f d a b (fun _ y w => shiftBy k y (fld w 5 0)) fun c _ y w => c.flagsShift k y (fld w 5 0)

/-- An immediate ALU instruction: no flag changes (R53). -/
def State.aluImm (s : State) (z : Zx) (d a : Reg) (r : W → W) : Out :=
  s.zx z true fun c s => s.done z.agent (c.put d (r (c.get a)))

/-- ADD (R52): d <- a + b. -/
def execAdd (z : Zx) (f : Bool) (d a b : Reg) (s : State) : Out :=
  s.alu z f d a b (fun _ y w => y + w) fun c _ y w => c.flagsAdd y w

/-- SUB (R52): d <- a − b. -/
def execSub (z : Zx) (f : Bool) (d a b : Reg) (s : State) : Out :=
  s.alu z f d a b (fun _ y w => y - w) fun c _ y w => c.flagsSub y w

/-- AND (R52): d <- a and b. -/
def execAnd (z : Zx) (f : Bool) (d a b : Reg) (s : State) : Out :=
  s.aluZN z f d a b fun _ y w => y &&& w

/-- OR (R52): d <- a or b. -/
def execOr (z : Zx) (f : Bool) (d a b : Reg) (s : State) : Out :=
  s.aluZN z f d a b fun _ y w => y ||| w

/-- XOR (R52): d <- a xor b. -/
def execXor (z : Zx) (f : Bool) (d a b : Reg) (s : State) : Out :=
  s.aluZN z f d a b fun _ y w => y ^^^ w

/-- SHL (R52): d <- a << b[5:0]. -/
def execShl (z : Zx) (f : Bool) (d a b : Reg) (s : State) : Out :=
  s.aluShift .shl z f d a b

/-- SHR (R52): d <- a >> b[5:0], zero fill. -/
def execShr (z : Zx) (f : Bool) (d a b : Reg) (s : State) : Out :=
  s.aluShift .shr z f d a b

/-- SRA (R52): d <- a >> b[5:0], sign fill. -/
def execSra (z : Zx) (f : Bool) (d a b : Reg) (s : State) : Out :=
  s.aluShift .sra z f d a b

/-- MUL (R52): d <- low 32 bits of a × b. -/
def execMul (z : Zx) (f : Bool) (d a b : Reg) (s : State) : Out :=
  s.aluZN z f d a b fun _ y w => mulLow y w

/-- MULH (R52): d <- high 32 bits of the signed product. -/
def execMulh (z : Zx) (f : Bool) (d a b : Reg) (s : State) : Out :=
  s.aluZN z f d a b fun _ y w => mulHigh y w

/-- MIN (R52): d <- signed minimum. -/
def execMin (z : Zx) (f : Bool) (d a b : Reg) (s : State) : Out :=
  s.aluZN z f d a b fun _ y w => sMin y w

/-- MAX (R52): d <- signed maximum. -/
def execMax (z : Zx) (f : Bool) (d a b : Reg) (s : State) : Out :=
  s.aluZN z f d a b fun _ y w => sMax y w

/-- CLAMP (R52): d <- min(max(d, a), b), signed. -/
def execClamp (z : Zx) (f : Bool) (d a b : Reg) (s : State) : Out :=
  s.aluZN z f d a b fun x y w => sMin (sMax x y) w

/-- SEL (R52): d <- a if the condition holds, else b; condition 15 raises an illegal-operand exception (R51). -/
def execSel (z : Zx) (cond : BitVec 4) (d a b : Reg) (s : State) : Out :=
  s.zx z true fun c s =>
    if cond = 15 then s.raise z.agent 2 0
    else s.done z.agent (c.put d (if c.cond cond then c.get a else c.get b))

/-- ADDI (R53): d <- a + sext(imm18). -/
def execAddi (z : Zx) (d a : Reg) (imm : BitVec 18) (s : State) : Out :=
  s.aluImm z d a fun x => x + sx18 imm

/-- ANDI (R53): d <- a and sext(imm18). -/
def execAndi (z : Zx) (d a : Reg) (imm : BitVec 18) (s : State) : Out :=
  s.aluImm z d a fun x => x &&& sx18 imm

/-- ORI (R53): d <- a or sext(imm18). -/
def execOri (z : Zx) (d a : Reg) (imm : BitVec 18) (s : State) : Out :=
  s.aluImm z d a fun x => x ||| sx18 imm

/-- XORI (R53): d <- a xor sext(imm18). -/
def execXori (z : Zx) (d a : Reg) (imm : BitVec 18) (s : State) : Out :=
  s.aluImm z d a fun x => x ^^^ sx18 imm

/-- SHLI (R53): d <- a shifted by imm18[5:0], with the rules of R52. -/
def execShli (z : Zx) (d a : Reg) (sh : BitVec 6) (s : State) : Out :=
  s.aluImm z d a fun x => shiftBy .shl x sh.toNat

/-- SHRI (R53): d <- a shifted by imm18[5:0], with the rules of R52. -/
def execShri (z : Zx) (d a : Reg) (sh : BitVec 6) (s : State) : Out :=
  s.aluImm z d a fun x => shiftBy .shr x sh.toNat

/-- SRAI (R53): d <- a shifted by imm18[5:0], with the rules of R52. -/
def execSrai (z : Zx) (d a : Reg) (sh : BitVec 6) (s : State) : Out :=
  s.aluImm z d a fun x => shiftBy .sra x sh.toNat

/-- LUI (R53): d <- imm18 << 14. -/
def execLui (z : Zx) (d : Reg) (imm : BitVec 18) (s : State) : Out :=
  s.aluImm z d 0 fun _ => wn (imm.toNat * 2 ^ 14)

/-- CMPI (R53): flags <- a − sext(imm18). -/
def execCmpi (z : Zx) (a : Reg) (imm : BitVec 18) (s : State) : Out :=
  s.zx z true fun c s => s.done z.agent (c.flagsSub (c.get a) (sx18 imm))

end Sys2Proof.Machine
end

