-- ==== Sys2Proof/Machine/ZxMem.lean ====
section
/-! DEFINITION. Loads and stores (R54). -/
namespace Sys2Proof.Machine

/-- A load of `n` bytes at a + sext(imm18); `r` makes the register's value of the number read (R54). -/
def State.load (s : State) (z : Zx) (d a : Reg) (imm : BitVec 18) (n : Nat) (r : Nat → W) : Out :=
  s.zx z true fun c s =>
    s.access z.agent c (c.get a + sx18 imm) n false fun pl s =>
      s.done z.agent ((s.ctxOf z.agent).put d (r (s.loadAt z.agent pl n)))

/-- A store of the `n` low bytes of d at a + sext(imm18) (R54). A store of w0 of the thermal settings table by the ME makes the
thermal unit look at the table (R385). -/
def State.storeReg (s : State) (z : Zx) (d a : Reg) (imm : BitVec 18) (n : Nat) : Out :=
  s.zx z true fun c s =>
    s.access z.agent c (c.get a + sx18 imm) n (n == 4) fun pl s =>
      let s := (s.storeAt z.agent pl ((wordBytes (c.get d)).take n)).done z.agent (s.ctxOf z.agent)
      if z.agent = .eng engME ∧ pl.off / 4 = 0x7F00 / 4 then s.thermalTake else s

/-- Sign extension of a number of `n` bits. -/
def sxN (n x : Nat) : W := if x < 2 ^ (n - 1) then wn x else wi ((x : Int) - 2 ^ n)

/-- LD.W (R54). -/
def execLdW (z : Zx) (d a : Reg) (imm : BitVec 18) (s : State) : Out := s.load z d a imm 4 wn
/-- LD.H (R54): zero-extended halfword. -/
def execLdH (z : Zx) (d a : Reg) (imm : BitVec 18) (s : State) : Out := s.load z d a imm 2 wn
/-- LD.HS (R54): sign-extended halfword. -/
def execLdHs (z : Zx) (d a : Reg) (imm : BitVec 18) (s : State) : Out := s.load z d a imm 2 (sxN 16)
/-- LD.B (R54): zero-extended byte. -/
def execLdB (z : Zx) (d a : Reg) (imm : BitVec 18) (s : State) : Out := s.load z d a imm 1 wn
/-- LD.BS (R54): sign-extended byte. -/
def execLdBs (z : Zx) (d a : Reg) (imm : BitVec 18) (s : State) : Out := s.load z d a imm 1 (sxN 8)
/-- ST.W (R54, R385). -/
def execStW (z : Zx) (d a : Reg) (imm : BitVec 18) (s : State) : Out := s.storeReg z d a imm 4
/-- ST.H (R54). -/
def execStH (z : Zx) (d a : Reg) (imm : BitVec 18) (s : State) : Out := s.storeReg z d a imm 2
/-- ST.B (R54). -/
def execStB (z : Zx) (d a : Reg) (imm : BitVec 18) (s : State) : Out := s.storeReg z d a imm 1

end Sys2Proof.Machine
end

