-- ==== Sys2Proof/Machine/ZxBranch.lean ====
section
/-! DEFINITION. Branches, calls, returns and hardware loops (R59–R61), POST (R71). -/
namespace Sys2Proof.Machine

/-- The target pc + 4 × sext(off22) (R59). -/
def branchTo (pc : W) (off : BitVec 22) : W := pc + (off.signExtend 32 <<< 2)

/-- The levels that stay open at a taken bcc (R61): a level whose body excludes the target closes. -/
def keepLoops : List LoopLv → W → List LoopLv
  | [], _ => []
  | l :: r, t => if l.first.toNat ≤ t.toNat ∧ t.toNat ≤ l.last.toNat then l :: r else keepLoops r t

/-- A flow packet of a traced engine for a transfer by its running context (R480). -/
def State.flow (s : State) (ag : Agent) (reason : Nat) (target : W) : State :=
  match ag with
  | .eng e => s.traceFlow e (s.eng e).run reason target []
  | .lane _ => s

/-- BCC (R59, R61): a taken branch closes the loop levels whose bodies exclude the target. -/
def execBcc (z : Zx) (cond : BitVec 4) (off : BitVec 22) (s : State) : Out :=
  s.zx z true fun c s =>
    if cond = 15 then s.raise z.agent 2 0
    else if c.cond cond then
      let t := branchTo c.pc off
      (s.putCtx z.agent { c with pc := t, loops := keepLoops c.loops t }).flow z.agent 0 t
    else s.done z.agent c

/-- CALL (R59): a taken call links g15 and closes no level. -/
def execCall (z : Zx) (cond : BitVec 4) (off : BitVec 22) (s : State) : Out :=
  s.zx z true fun c s =>
    if cond = 15 then s.raise z.agent 2 0
    else if c.cond cond then
      let t := branchTo c.pc off
      (s.putCtx z.agent { (c.put 15 (c.pc + 4)) with pc := t }).flow z.agent 1 t
    else s.done z.agent c

/-- RET (R59): pc <- a; a target that is no multiple of 4 raises a misaligned exception, whose data address is the target (DESIGN CHOICE:
R78 does not say whether it is; log entry 190). -/
def execRet (z : Zx) (a : Reg) (s : State) : Out :=
  s.zx z true fun c s =>
    let t := c.get a
    if t.toNat % 4 ≠ 0 then s.raise z.agent 3 t
    else (s.putCtx z.agent { c with pc := t }).flow z.agent 2 t

/-- LOOP (R60): opens a level over the next imm18 instructions, or skips them for a zero count; the skip counts as the completion
of the skipped body's last instruction for the enclosing level. -/
def execLoop (z : Zx) (a : Reg) (imm : BitVec 18) (s : State) : Out :=
  s.zx z true fun c s =>
    if imm = 0 ∨ 2 ≤ c.loops.length then s.raise z.agent 2 0
    else
      let last := c.pc + wn (4 * imm.toNat)
      if c.get a = 0 then
        let p := loopEnd c.loops last
        s.putCtx z.agent { c with pc := p.1, loops := p.2 }
      else
        s.putCtx z.agent { c with pc := c.pc + 4, loops := { first := c.pc + 4, last := last, count := c.get a } :: c.loops }

/-- POST (R71): raises program event imm18, 0–11 of an engine, 0–3 of a lane; a larger number is an illegal operand. -/
def execPost (z : Zx) (imm : BitVec 18) (s : State) : Out :=
  s.zx z true fun c s =>
    match z.agent with
    | .eng e => if 11 < imm.toNat then s.raise z.agent 2 0 else (s.done z.agent c).occur (srcEng e (4 + imm.toNat))
    | .lane l => if 3 < imm.toNat then s.raise z.agent 2 0 else (s.done z.agent c).occur (srcLane l (4 + imm.toNat))

end Sys2Proof.Machine
end

