-- ==== Sys2Proof/Machine/ZxSync.lean ====
section
/-! DEFINITION. WAIT, MER, SEND, RECV and the moments at which what they wait for comes (R46, R62–R67, R98, R107, R108). -/
namespace Sys2Proof.Machine

/-- Makes a blocked context ready and lets the engine take it up (R46). -/
def State.ready (s : State) (e : Eng) (c : Fin 4) (f : Ctx → Ctx) : State :=
  (s.modEng e fun en => { en with ctxs := upd en.ctxs c fun x => { f x with block := .ready } }).wake e

/-- Whether every tag that `mask` names is complete: none of them has a transfer outstanding (R63). -/
def tagsDone (c : Ctx) (mask : W) : Bool := (allFin 4).all fun t => !bitOf mask (28 + t.val) || (c.tags.get t).isNone

/-- A completed WAIT on an engine (R63): the latches returned are cleared. -/
def Ctx.waitDone (c : Ctx) (d : Reg) (mask : W) : Ctx :=
  ({ c with latches := c.latches &&& ~~~mask }.put d (c.latches &&& mask)).advance

/-- WAIT (R63). -/
def execWait (z : Zx) (d a : Reg) (s : State) : Out :=
  s.zx z true fun c s =>
    let mask := c.get a
    match z.agent with
    | .eng _ =>
      if mask = 0 ∨ c.latches &&& mask ≠ 0 then s.putCtx z.agent (c.waitDone d mask)
      else s.blockOn z.agent c (.wait mask d)
    | .lane _ =>
      if fld mask 27 0 ≠ 0 then s.raise z.agent 2 0
      else if tagsDone c mask then s.done z.agent (c.put d mask)
      else s.blockOn z.agent c (.wait mask d)

/-- A blocked WAIT completes: an input of its mask is pending, or in a lane every tag is complete (R63). No context of a stopped engine
does anything (R78, R83). -/
def execWaitResume (ag : Agent) (c : Fin 4) (s : State) : Out :=
  if !s.live ag then .next s
  else match ag with
    | .eng e =>
      let x := (s.eng e).ctxs.get c
      (match x.block with
       | .wait mask d => if x.latches &&& mask ≠ 0 then .next (s.ready e c fun x => x.waitDone d mask) else .next s
       | _ => .next s)
    | .lane l =>
      let x := (s.lane l).ctx
      (match x.block with
       | .wait mask d =>
         if tagsDone x mask then .next (s.putCtx ag { (x.put d mask).advance with block := .ready }) else .next s
       | _ => .next s)

/-- The port whose meridian MER waits for: the pair's lower port on a ganged pair (R23, R65). -/
def State.merPort (s : State) (p : Port) : Port := if s.params.force.upperOfGang p then ⟨p.val - 1, by omega⟩ else p

/-- MER (R65). -/
def execMer (z : Zx) (d : Reg) (imm : BitVec 18) (s : State) : Out :=
  s.zx z (isEng z.agent) fun c s =>
    if h : imm.toNat < 4 then
      let p := s.merPort ⟨imm.toNat, h⟩
      if (s.port p).st = .running then s.blockOn z.agent { c with merGot := none } (.mer p d)
      else s.done z.agent { (c.put d (s.agreedMer p)) with c := true }
    else s.raise z.agent 2 0

/-- A blocked MER completes with the meridian captured for it (R65). -/
def execMerResume (e : Eng) (c : Fin 4) (s : State) : Out :=
  if !s.live (.eng e) then .next s
  else
    let x := (s.eng e).ctxs.get c
    match x.block, x.merGot with
    | .mer _ d, some m => .next (s.ready e c fun x => { (x.put d m) with c := false, merGot := none }.advance)
    | _, _ => .next s

/-! ### SEND (R20, R66, R98, R108) -/

/-- Whether a channel of a destination is served by fixed logic, so that a SEND by `e` to it is out of range (R98). -/
def sendReserved (e : Eng) (dst ch : Fin 16) : Bool :=
  if dst.val = 0 then ch.val == 12 || ch.val == 13 || ch.val == 15 || (ch.val == 14 && e.val != 0)
  else if dst.val ≤ 4 then ch.val == 15
  else ch.val == 13

/-- The exception of a SEND, if any: codes 7–15 (R66), another plane (R20), a channel of fixed logic (R98). -/
def sendCause (e : Eng) (dst ch : Fin 16) : Option Byte :=
  if 7 ≤ dst.val then some 2
  else if (5 ≤ dst.val) != (e.val == 5) then some 4
  else if sendReserved e dst ch then some 4
  else none

/-- Words of the ME on their way over the link (R66, R315): a MSG frame enters the partner's channel when the partner acknowledges it
(log entry 141). -/
def State.msgsInFlight (s : State) : Nat := ((s.twin.queue ++ s.twin.unacked).filter fun f => f.type == 0x0A).length

/-- Messages outstanding (R66), with the words of the CE's assembled completions that wait for the ring (R108). -/
def State.outstanding (s : State) (e : Eng) : Nat :=
  (s.eng e).out.length + (if e.val = 0 then 4 * s.queue.waiting.length else 0) + if e.val = 5 then s.msgsInFlight else 0

/-- SEND (R66). -/
def execSend (z : Zx) (a : Reg) (ch dst : Fin 16) (s : State) : Out :=
  s.zx z (isEng z.agent) fun c s =>
    match z.agent with
    | .lane _ => s
    | .eng e =>
      match sendCause e dst ch with
      | some cause => s.raise z.agent cause 0
      | none =>
        if dst.val = 6 ∧ !s.linkUp then s.done z.agent { c with c := true }
        else if 16 ≤ s.outstanding e then (s.blockOn z.agent c (.send (c.get a) ch dst)).occur (srcEng e 3)
        else
          let m : Msg := { dst := dst, ch := ch, word := c.get a, ctx := (s.eng e).run }
          (s.done z.agent { c with c := false }).modEng e fun en => { en with out := en.out ++ [m] }

/-- A SEND blocked at its bound completes once a message has drained (R66). -/
def execSendUnblock (e : Eng) (c : Fin 4) (s : State) : Out :=
  if !s.live (.eng e) then .next s
  else
    match ((s.eng e).ctxs.get c).block with
    | .send w ch dst =>
      if dst.val = 6 ∧ !s.linkUp then .next (s.ready e c fun x => { x with c := true }.advance)
      else if 16 ≤ s.outstanding e then .next s
      else
        let m : Msg := { dst := dst, ch := ch, word := w, ctx := c }
        .next ((s.modEng e fun en => { en with out := en.out ++ [m] }).ready e c fun x => { x with c := false }.advance)
    | _ => .next s

/-! ### Channels (R62, R67) -/

/-- A word enters a receive channel; W24 of every context of the engine is set (R62). -/
def State.chanPut (s : State) (e : Eng) (ch : Fin 16) (w : W) : State :=
  (s.modEng e fun en => { en with chans := upd en.chans ch (· ++ [w]) }) |>
    forEach ((allFin 4).filter fun c => c.val < nCtx e) fun c t => t.latch e c 24

def State.chanRoom (s : State) (e : Eng) (ch : Fin 16) : Bool := ((s.eng e).chans.get ch).length < 4

/-- A completion word of the CE's context `c` enters the completion port; the fourth assembles the entry (R108). -/
def State.completionWord (s : State) (c : Fin 4) (w : W) : State :=
  let ws := (s.eng engCE).partials.get c ++ [w]
  if ws.length < 4 then s.modEng engCE fun en => { en with partials := upd en.partials c fun _ => ws }
  else
    (s.modEng engCE fun en => { en with partials := upd en.partials c fun _ => [] }).modQueue fun q =>
      { q with waiting := q.waiting ++ [ws] }

/-- Removes the `k`-th message of an engine's outbound buffer. -/
def State.outDrop (s : State) (e : Eng) (k : Nat) : State := s.modEng e fun en => { en with out := en.out.eraseIdx k }

/-- The `k`-th message of an engine's outbound buffer enters its destination channel, if it is the oldest for that channel and the
channel has room (R66, R67); a stop that waits for it may complete (R83). -/
def execMessageDelivery (e : Eng) (k : Nat) (s : State) : Out :=
  if s.thermal.held then .next s
  else
    match (s.eng e).out[k]? with
    | none => .next s
    | some m =>
      if ((s.eng e).out.take k).any fun x => x.dst == m.dst && x.ch == m.ch then .next s
      else if m.dst.val = 0 ∧ m.ch.val = 14 then .next (((s.outDrop e k).completionWord m.ctx m.word).stopSettle e)
      else if m.dst.val = 6 then
        (if s.linkUp then
           .next (((s.outDrop e k).linkSend 0x0A 3 0 [wn m.ch.val, m.word]).stopSettle e)
         else .next s)
      else if h : m.dst.val < 6 then
        (if s.chanRoom ⟨m.dst.val, h⟩ m.ch then
           .next (((s.outDrop e k).chanPut ⟨m.dst.val, h⟩ m.ch m.word).stopSettle e)
         else .next s)
      else .next s

/-! ### RECV (R67) -/

/-- Takes the oldest word of a channel. A word of CE channel 15 counts toward its command entry, which is freed with its fourth
word (R107); channel 13 takes further outcomes (R302). -/
def State.chanTake (s : State) (e : Eng) (ch : Fin 16) : State :=
  let s := s.modEng e fun en => { en with chans := upd en.chans ch (·.drop 1) }
  let s := if e.val = 0 ∧ ch.val = 15 then
      s.modQueue fun q =>
        if 3 ≤ q.taken then { q with taken := 0, given := 0, entries := q.entries.drop 1 } else { q with taken := q.taken + 1 }
    else s
  if ch.val = 13 then s.fmDeliver else s

/-- RECV (R67). -/
def execRecv (z : Zx) (d : Reg) (ch : Fin 16) (nb : Bool) (s : State) : Out :=
  s.zx z (isEng z.agent) fun c s =>
    match z.agent with
    | .lane _ => s
    | .eng e =>
      match (s.eng e).chans.get ch with
      | w :: _ => (s.done z.agent (if nb then { (c.put d w) with z := false } else c.put d w)).chanTake e ch
      | [] => if nb then s.done z.agent { c with z := true } else s.blockOn z.agent c (.recv ch d)

/-- A RECV that waits for its channel takes the word that has arrived (R67). -/
def execRecvResume (e : Eng) (c : Fin 4) (s : State) : Out :=
  if !s.live (.eng e) then .next s
  else
    match ((s.eng e).ctxs.get c).block with
    | .recv ch d =>
      (match (s.eng e).chans.get ch with
       | w :: _ => .next ((s.ready e c fun x => (x.put d w).advance).chanTake e ch)
       | [] => .next s)
    | _ => .next s

end Sys2Proof.Machine
end

