-- ==== Sys2Proof/Machine/ZxTile.lean ====
section
/-! DEFINITION. TILE.LD and TILE.ST, the completion of their transfers, interlock stalls (R68, R69, R239, R247). -/
namespace Sys2Proof.Machine

/-- The store windows an agent may name in TILE (R68, R87). -/
def State.windowsOf (s : State) (ag : Agent) : List (Nat × Nat) :=
  match ag with
  | .eng e => (s.eng e).windows
  | .lane l => (s.cluster (clusterOf l)).windows

/-- Whether a store range lies inside one window. -/
def inWindows (ws : List (Nat × Nat)) (a n : Nat) : Bool := ws.any fun w => decide (w.1 ≤ a) && decide (a + n ≤ w.1 + w.2)

/-- Bytes of an agent's local memory for TILE: data memory or tile memory (R68). -/
def tileSpan : Agent → Nat
  | .eng e => dataSize e
  | .lane _ => 0x40000

/-- The place of a local offset of TILE. -/
def tilePlace : Agent → Nat → Place
  | .eng _, o => .data o
  | .lane _, o => .tile o

/-- The transfer that registers a and b describe (R68). -/
def xferOf (load : Bool) (a b : W) : Xfer :=
  { load := load, store := a.toNat, loc := fld b 17 0, units := fld b 31 18 }

/-- The exception of a TILE instruction, if any, with its data address (R68, R239). Where several conditions hold, the first in this order is
raised, misalignment of the store address before the others (DESIGN CHOICE: the manual gives no order; log entry 188). -/
def State.tileCause (s : State) (ag : Agent) (x : Xfer) : Option (Byte × W) :=
  let n := 64 * x.units
  if x.store % 64 ≠ 0 then some (3, wn x.store)
  else if x.loc % 64 ≠ 0 then some (3, wn x.loc)
  else if x.units = 0 ∨ 4095 < x.units then some (4, wn x.store)
  else if tileSpan ag < x.loc + n then some (4, wn x.loc)
  else if 2 ^ 32 < x.store + n ∨ !inWindows (s.windowsOf ag) x.store n ∨ s.unbacked x.store n then some (4, wn x.store)
  else none

/-- The lowest free tag of a context (R68). -/
def freeTag (c : Ctx) : Option (Fin 4) := (allFin 4).find? fun t => (c.tags.get t).isNone

/-- A word of the local range of a TILE.ST that is uncorrectable (R43). -/
def State.tileBadWord (s : State) (ag : Agent) (x : Xfer) : Option Nat :=
  if x.load then none
  else (s.memOf ag (tilePlace ag x.loc)).2.1.find? fun w => x.loc / 4 ≤ w && w < x.loc / 4 + 16 * x.units

/-- A TILE instruction (R68, R69): its exceptions, the interlock, the bound of four transfers, else its issue under the lowest free
tag, which d receives. -/
def State.tileIssue (s : State) (z : Zx) (load : Bool) (d a b : Reg) : Out :=
  s.zx z true fun c s =>
    let x := xferOf load (c.get a) (c.get b)
    match s.tileCause z.agent x with
    | some e => s.raise z.agent e.1 e.2
    | none =>
      if (s.xfers z.agent).any fun y => y.meets x.loc (64 * x.units) then s.blockOn z.agent c (.interlock x.loc (64 * x.units))
      else match s.tileBadWord z.agent x with
        | some w => s.raiseAt z.agent 5 (wn (4 * w)) (tilePlace z.agent x.loc)
        | none =>
          match freeTag c with
          | some t => s.done z.agent ({ c with tags := c.tags.set t (some x) }.put d (wn t.val))
          | none =>
            let s := s.blockOn z.agent c (.tile x d)
            match z.agent with
            | .eng e => s.occur (srcEng e 3)
            | .lane _ => s

/-- TILE.LD (R68). -/
def execTileLd (z : Zx) (d a b : Reg) (s : State) : Out := s.tileIssue z true d a b
/-- TILE.ST (R68). -/
def execTileSt (z : Zx) (d a b : Reg) (s : State) : Out := s.tileIssue z false d a b

/-- The words of a range of store words that a poisoned 64-bit word covers, as local word indices. -/
def poisonedLocal (poison : List Nat) (x : Xfer) : List Nat :=
  (poison.filter fun w => x.store ≤ 8 * w && 8 * w < x.store + 64 * x.units).flatMap fun w =>
    let o := (x.loc + (8 * w - x.store)) / 4
    [o, o + 1]

/-- The data of a completed transfer move (R68): a TILE.LD writes whole words, uncorrectable where the store word was poisoned
(R247); a TILE.ST reads local words, corrected where a single bit is wrong (R43), and writes the store. -/
def State.xferMove (s : State) (ag : Agent) (x : Xfer) : State :=
  let n := 64 * x.units
  let pl := tilePlace ag x.loc
  if x.load then
    let r := s.storeRead x.store n
    let bad := poisonedLocal r.2.store.poison x
    let inside (w : Nat) : Bool := x.loc / 4 ≤ w && w < x.loc / 4 + 16 * x.units
    r.2.modMemOf ag pl fun m =>
      (Mem.write m.1 x.loc r.1, m.2.1.filter (fun w => !inside w) ++ bad, m.2.2.filter fun w => !inside w)
  else
    let soft := (s.memOf ag pl).2.2.filter fun w => x.loc / 4 ≤ w && w < x.loc / 4 + 16 * x.units
    let s := forEach soft (fun w t => t.softFix ag (tilePlace ag (4 * w))) s
    s.storeWrite x.store (Mem.read (s.memOf ag pl).1 x.loc n)

/-- What a completed transfer does for one context, given those still outstanding: a context interlocked on that transfer is ready again;
one blocked at the bound of four issues its transfer under the lowest free tag, or is interlocked (R46, R68, R69). -/
def Ctx.afterTile (c : Ctx) (others : List Xfer) : Ctx :=
  match c.block with
  | .interlock loc n => if others.any fun y => y.meets loc n then c else { c with block := .ready }
  | .tile x d =>
    (match freeTag c with
     | some t =>
       if others.any fun y => y.meets x.loc (64 * x.units) then { c with block := .interlock x.loc (64 * x.units) }
       else { ({ c with tags := c.tags.set t (some x) }.put d (wn t.val)).advance with block := .ready }
     | none => c)
  | _ => c

/-- A TILE transfer completes (R69): its data move, its tag is free and W28 + tag is set (R62), the contexts stalled on it become ready
unless their engine has stopped (R78), a stop that waits for it may complete (R83). A transfer of an abandoned invocation completes
without being used (R78). -/
def execTileTransferComplete (ag : Agent) (c : Fin 4) (tag : Fin 4) (s : State) : Out :=
  if s.thermal.held then .next s
  else match ag with
    | .eng e =>
      (match ((s.eng e).ctxs.get c).tags.get tag with
       | none => .next s
       | some x =>
         let s := s.xferMove ag x
         let s := s.modEng e fun en =>
           { en with ctxs := upd en.ctxs c fun y =>
               { y with tags := y.tags.set tag none, latches := y.latches ||| (1 <<< (28 + tag.val) : W) } }
         if !s.live ag then .next (s.stopSettle e)
         else
         let s := forEach (allFin 4) (fun k t =>
           let ys := t.xfers ag
           t.modEng e fun en => { en with ctxs := upd en.ctxs k fun y => y.afterTile ys }) s
         .next (s.wake e))
    | .lane l =>
      (match (s.lane l).ctx.tags.get tag with
       | none => .next s
       | some x =>
         let s := s.xferMove ag x
         let s := s.modLane l fun y =>
           { y with ctx := { y.ctx with tags := y.ctx.tags.set tag none,
                                        latches := y.ctx.latches ||| (1 <<< (28 + tag.val) : W) } }
         .next (s.modLane l fun y => { y with ctx := y.ctx.afterTile (s.xfers ag) }))

/-- A lane's interlock stall has passed 1,024 cycles: source 3 of the lane (R71), and its counter has counted them (R478). -/
def execTileInterlockStall (l : LaneNo) (s : State) : Out :=
  match (s.lane l).ctx.block with
  | .interlock _ _ => if s.thermal.held then .next s else .next ((s.count l.val 1024).occur (srcLane l 3))
  | _ => .next s

end Sys2Proof.Machine
end

