-- ==== Sys2Proof/Machine/ZxParam.lean ====
section
/-! DEFINITION. ld.pb, PARAM and the copy that COMMIT makes (R55–R58). -/
namespace Sys2Proof.Machine

/-- The 18-bit index imm18 + a (R55). -/
def paramIndex (imm : BitVec 18) (a : W) : Nat := (imm.toNat + a.toNat) % 2 ^ 18

/-- The value an agent's ld.pb returns (R58): a lane sees what was in force after the meridian that opened the frame of its invocation. -/
def State.pbRead (s : State) (ag : Agent) (blk f : Nat) : W :=
  match ag with
  | .eng _ => s.force blk f
  | .lane l =>
    (match (s.lane l).invoc with
     | some i =>
       let x := s.port i.port
       (match if i.tail then x.tail else x.frame with
        | some fr => if (fieldInfo blk f).isSome then fr.pb.fld blk f else getN fr.ro (blk * 256 + f) 0
        | none => s.force blk f)
     | none => s.force blk f)

/-- LD.PB (R55, R58). -/
def execLdPb (z : Zx) (d a : Reg) (imm : BitVec 18) (s : State) : Out :=
  s.zx z true fun c s =>
    let i := paramIndex imm (c.get a)
    if fieldExists (i / 256) (i % 256) then s.done z.agent (c.put d (s.pbRead z.agent (i / 256) (i % 256)))
    else s.raise z.agent 4 0

/-- PARAM (R55): writes the staging copy; reserved bits read as zero (R8). -/
def execParam (z : Zx) (d a : Reg) (imm : BitVec 18) (s : State) : Out :=
  s.zx z (isControl z.agent) fun c s =>
    match z.agent with
    | .lane _ => s
    | .eng e =>
      let i := paramIndex imm (c.get a)
      match fieldInfo (i / 256) (i % 256) with
      | some v =>
        if fieldWritable (i / 256) (i % 256) e then
          s.done z.agent c |>.modParams fun q => { q with staging := insertN q.staging i (c.get d &&& v.2) }
        else s.raise z.agent 4 0
      | none => s.raise z.agent 4 0

/-- The pending copy of a block is filled from its whole staging copy; one filled before is replaced (R56). In twin operation a class D
copy waits for its AGREE while an agreed one is being adopted (R322, R519). -/
def State.commitCopy (s : State) (blk : Nat) : State :=
  if blk = 0 ∧ s.twinning ∧ s.params.devChecked then
    s.modTwin fun t => { t with laterD := some (s.params.staging.block 0) }
  else s.modParams fun q =>
    let q := { q with pending := insertN q.pending blk (q.staging.block blk) }
    if blk = 0 then { q with devChecked := false, devAdopters := [] } else q

end Sys2Proof.Machine
end

