-- ==== Sys2Proof/Machine/IdleApply.lean ====
section
/-! DEFINITION. Class I blocks at their units' idle points, and COMMIT (R55, R56, R100, R200, R201, R230, R338, R347, R364, R414). -/
namespace Sys2Proof.Machine

/-- The trim record is restored, or ignored for its CRC (R230); the running clusters' codes follow. -/
def State.trimRestore (s : State) : State :=
  let r := s.storeRead 0x98050000 144
  let s := r.2
  let ws := bytesWords r.1
  if crcWords (ws.take 35) ≠ nthW ws 35 then s.note 0x301 0 suTransit [1]
  else
    let s := s.modTransit fun t => { t with trims := (ws.drop 4).take 31 }
    let s := forEach (allFin 12) (fun k t => if (t.cluster k).stopped then t else t.dcoSet k) s
    s.note 0x301 0 suTransit [0]

/-- Block 0x001 takes effect (R201): a new PROD_SEQ starts a production load, a new RST_SEQ a restore, a new TRIM_SEQ with TRIM_RESTORE
a restore of the trims; one without asks for a self-trim pass, which SELF_TRIM_PASS runs. -/
def State.transitBlock (s : State) : State :=
  let f (i : Nat) := s.t1 i
  let pq := BitVec.ofNat 8 (fld (f 10) 15 8)
  let rq := BitVec.ofNat 8 (fld (f 11) 15 8)
  let tq := BitVec.ofNat 8 (fld (f 12) 15 8)
  let s := if pq = s.transit.prodSeq then s else s.prodStart pq (fld (f 10) 3 0)
  let s := if rq = s.transit.rstSeq then s
    else
      let p : Port := ⟨fld (f 11) 1 0 % 4, by omega⟩
      let s := s.modTransit fun t => { t with rstSeq := rq, rstPend := some p }
      if (s.port p).st = .running then s else s.restoreBegin p
  if tq = s.transit.trimSeq then s
  else
    let s := s.modTransit fun t => { t with trimSeq := tq }
    if bitOf (f 12) 0 then s.trimRestore else s.modTransit fun t => { t with trimAsk := true }

/-- Whether the transit unit is between transits, loads and restores (R200). -/
def State.transitIdle (s : State) : Bool := !s.inTransit && !s.transit.prodBusy && s.transit.rstPend.isNone

/-- Block 0x001 at its idle point. -/
def State.applyTransit (s : State) : State :=
  if s.transitIdle then s.applyI 1 fun _ s => s.transitBlock else s

/-- Block 0x002 at its idle point. -/
def State.applyTwin (s : State) : State := s.applyI 2 fun o s => s.twinBlock o

/-- Whether block 0x002 takes effect at once (R338). -/
def State.twinAtOnce (s : State) : Bool :=
  let n := s.twin.st.val
  n == 0 || n == 1 || n == 5 || n == 6 || !s.anyRunning

/-- A class I block at an idle point or with its unit disabled (R100); `period` tells that a bellows loop period has ended. -/
def State.applyIdle (s : State) (blk : Nat) (period : Bool) : State :=
  if blk = 1 then (if s.anyRunning then s else s.applyTransit)
  else if blk = 2 then (if s.twinAtOnce then s.applyTwin else s)
  else if h : 0x1C0 ≤ blk ∧ blk < 0x1C8 then
    let k : Fin 8 := ⟨blk - 0x1C0, by omega⟩
    if bitOf (sxCtl s.params.force k) 0 then s else s.applyI blk fun o s => s.sxBlock k o
  else if blk = 0x1C8 ∨ blk = 0x1C9 then s.applyI blk fun _ s => s
  else if h : 0x1D0 ≤ blk ∧ blk < 0x1D8 then
    let c : Fin 8 := ⟨blk - 0x1D0, by omega⟩
    if period || !blwEn s.params.force c then s.applyI blk fun o s => s.blwBlock c o else s
  else if blk = 0x1E0 then (if s.serial.mp1.isNone then s.applyI blk fun _ s => s else s)
  else s

/-- PARAM_BLOCK_IDLE_APPLY (R100): the unit of a class I block reaches its idle point. -/
def execParamBlockIdleApply (blk : BitVec 10) (s : State) : Out :=
  if s.thermal.held then .next s else .next (s.applyIdle blk.toNat true)

/-- A committed copy whose port is not running takes effect at once, in twin operation only when no port runs, and then on both devices if
the prime has committed it (R100, R320, R322); a class P block of a stream is tied to the port its copies in force name; a class D copy
waits for every running port, or for none (R519); a class I copy takes effect at once if its unit is disabled. -/
def State.commitSettle (s : State) (blk : Nat) : State :=
  let wait (p : Port) : Bool := (s.port p).st == .running || (s.twinning && (s.anyRunning || !s.twin.prime))
  let s := if s.anyRunning then s else match lookupN s.params.pending blk with
    | some c => s.agreeNow [(blk, c)]
    | none => s
  match blkClass blk, blkPort blk, blkStream blk with
  | .p, some p, _ => if wait p then s else s.applyIdleP p blk
  | .p, none, some st =>
    let p := s.params.force.streamPort st
    let s := s.modParams fun q => { q with streamTie := insertN q.streamTie blk p }
    if wait p then s else s.applyIdleP p blk
  | .d, _, _ => if s.anyRunning then s else s.devIdle
  | .i, _, _ => s.applyIdle blk false
  | _, _, _ => s

/-- COMMIT (R55, R56, R100). -/
def execCommit (z : Zx) (blk : BitVec 10) (s : State) : Out :=
  s.zx z (isControl z.agent) fun c s =>
    match z.agent with
    | .lane _ => s
    | .eng e =>
      if blkWritable blk.toNat e then ((s.done z.agent c).commitCopy blk.toNat).commitSettle blk.toNat
      else s.raise z.agent 4 0

end Sys2Proof.Machine
end

