-- ==== Sys2Proof/Machine/PortRows.lean ====
section
/-! DEFINITION. Rows as a port receives them: samples, the sample accumulator, damaged packets, the destripe unit (R115, R121–R124,
R127, R128, R164, R165). -/
namespace Sys2Proof.Machine

/-! ### Samples (R114, R121) -/

/-- RAW14: four samples in seven bytes, their high bytes first (CSI-2; log entry 25); of a last group cut short, the samples all of whose bits
have come (R128). -/
def raw14 : List Byte → List Nat
  | a :: b :: c :: d :: x :: y :: z :: r =>
    let low := x.toNat + 2 ^ 8 * y.toNat + 2 ^ 16 * z.toNat
    let s (h : Byte) (i : Nat) : Nat := h.toNat * 64 + low / 2 ^ (6 * i) % 64
    s a 0 :: s b 1 :: s c 2 :: s d 3 :: raw14 r
  | [a, b, _, _, x, y] => [a.toNat * 64 + x.toNat % 64, b.toNat * 64 + (x.toNat + 2 ^ 8 * y.toNat) / 64 % 64]
  | [a, _, _, _, x] => [a.toNat * 64 + x.toNat % 64]
  | _ => []

/-- 16-bit samples; `high` tells that the high byte comes first. -/
def raw16 (high : Bool) : List Byte → List Nat
  | a :: b :: r => (if high then a.toNat * 256 + b.toNat else a.toNat + 256 * b.toNat) :: raw16 high r
  | _ => []

/-- The samples of a row packet. -/
def packetSamples (dt : Nat) (bs : List Byte) : List Nat :=
  if dt = 0x2D then raw14 bs else if dt = 0x2E then raw16 Config.raw16HighFirst bs else raw16 false bs

/-- Samples of a pixel in one packet, and the expected word count (R121). -/
def perPacket (pb : PMap) (p : Port) : Nat := if pb.orderB p then 1 else pb.nSamp p
def wordCount (pb : PMap) (p : Port) : Nat :=
  if !pb.orderB p && pb.dt p == 0x2D then pb.linePixels p * pb.nSamp p * 7 / 4 else pb.linePixels p * perPacket pb p * 2

/-- The sub-frame of a long packet by its data type; none for an unsupported one (R115, R121). -/
def subOf (pb : PMap) (p : Port) (dt : Nat) : Option Nat :=
  if pb.orderB p then (if 0x30 ≤ dt ∧ dt - 0x30 < pb.nSamp p then some (dt - 0x30) else none)
  else if dt = pb.dt p then some 0 else none

/-! ### Positions that the lanes have not taken (R124) -/

/-- The bytes of a row of a sub-frame in the accumulator (R122). -/
def rowSpan (pb : PMap) (p : Port) (f r k : Nat) : Nat × Nat :=
  (sampleAddr pb p f r 0 k, pb.linePixels p * perPacket pb p * 2)

def spansMeet (a b : Nat × Nat) : Bool := decide (a.1 < b.1 + b.2) && decide (b.1 < a.1 + a.2)

/-- Whether the lanes have still to take row position `r` of a frame: its hearth groups, until the deadline releases them, or its transit
groups (R124). -/
def State.rowUntaken (s : State) (p : Port) (fr : Frame) (r : Nat) : Bool :=
  let pb := fr.pb
  let a := r - pb.blindRows p
  let groups := List.range (pb.cols p / 8)
  decide (pb.blindRows p ≤ r) &&
    (if fr.processed then !fr.deadlinePassed && groups.any fun g => !(fr.px p a (8 * g)).doneA
     else s.transit.cur.any fun c => c.port == p &&
       (s.flatFrames c).any fun e => e.1.m == fr.m && groups.any fun g => !c.accDone.contains (e.2, a, 8 * g))

/-- Whether a row that arrives would overwrite samples not yet taken. -/
def State.rowConflict (s : State) (p : Port) (span : Nat × Nat) : Bool :=
  [false, true].any fun tail =>
    match (s.port p).fr tail with
    | none => false
    | some fr => fr.rows.any fun x => !x.bad && spansMeet span (rowSpan fr.pb p fr.f x.row x.sub) && s.rowUntaken p fr x.row

/-! ### The destripe unit (R163–R165) -/

/-- b of a pixel: the mean of its samples, Q.8. -/
def State.meanOf (s : State) (p : Port) (fr : Frame) (r c : Nat) : Int :=
  let xs := s.samplesOf fr.pb p fr.f r c
  rndDiv (256 * (xs.foldl (· + ·) 0 : Nat)) (fr.pb.nSamp p)

/-- Whether every pixel of a row position was wholly received. -/
def Frame.whole (fr : Frame) (p : Port) (r : Nat) : Bool := fr.got p r (fr.pb.linePixels p - 1)

/-- Whether a frame shows a fault already: a settled row that is not whole, or a pixel filled (R128, R129). -/
def Frame.flawedNow (fr : Frame) (p : Port) : Bool :=
  fr.processed && (fr.patched || (List.range (fr.pb.lines p)).any fun r => fr.rowSettled p r && !fr.whole p r)

/-- The destripe unit's reads of a row position (R164, R165, R245); it takes a pixel whose samples are poisoned as not received (log entry
155). -/
def State.rowRead (s : State) (p : Port) (fr : Frame) (r : Nat) : State :=
  if fr.gotRow p r then s.samplesCheck fr.pb p fr.f r 0 (fr.pb.linePixels p) else s

/-- The column estimate (R164). -/
def State.colEstimate (s : State) (p : Port) : State :=
  match (s.port p).frame with
  | none => s
  | some fr =>
    let pb := fr.pb
    let blind := List.range (pb.blindRows p)
    let s := forEach blind (fun r t => t.rowRead p fr r) s
    let go := !blind.isEmpty && blind.all fun r =>
      fr.whole p r && (List.range (pb.cols p)).all fun a => !s.sampleBad p fr r (pb.left p + a)
    let cols := List.range (pb.cols p)
    let mc (a : Nat) : Int := lowerMedian (blind.map fun r => s.meanOf p fr r (pb.left p + a))
    let bf := lowerMedian (cols.map mc)
    let cw := fld (pb.portF p 6 0) 3 0
    let next' : List (Nat × Int) :=
      if go then cols.map fun a => let old := getN (s.port p).col a 0; (a, old + rnd (mc a - bf - old) cw) else (s.port p).col
    s.modPort p fun x => { x with col := next', frame := x.frame.map fun fr => { fr with colDone := true, col := next' } }

/-- The row estimate of active row `r` (R165). -/
def State.rowEstimate (s : State) (p : Port) (r : Nat) : State :=
  match (s.port p).frame with
  | none => s
  | some fr =>
    let pb := fr.pb
    let q := pb.blindRows p + r
    let blindCols := List.range (pb.left p) ++ (List.range (pb.right p)).map (pb.left p + pb.cols p + ·)
    let s := s.rowRead p fr q
    let act := (List.range (pb.cols p)).filter fun a => fr.got p q (pb.left p + a) && !s.sampleBad p fr q (pb.left p + a)
    if !(blindCols.all fun c => fr.got p q c && !s.sampleBad p fr q c) ∨ act.isEmpty then s
    else
      let w := pb.portF p 6 0
      let lim : Int := fld (pb.portF p 6 1) 23 0
      let rs := fld w 15 12
      let bl := if blindCols.isEmpty then 0 else lowerMedian (blindCols.map fun c => s.meanOf p fr q c)
      let md := lowerMedian (act.map fun a => s.meanOf p fr q (pb.left p + a) - getN fr.col a 0)
      let lb := fr.lb.getD bl
      let la := if fr.lb.isSome then fr.la else md
      let t1 := if blindCols.isEmpty then 0 else bl - lb
      let t2 := clampI (md - la) (-lim) lim
      let v := satS 32 (rnd (fld w 20 16 * t1 + fld w 28 24 * t2) 4)
      s.modPort p fun x =>
        { x with
          rowOff := insertN x.rowOff r v
          frame := x.frame.map fun fr =>
            { fr with lb := some (lb + rnd (bl - lb) rs), la := la + rnd (md - la) rs, rowOff := insertN fr.rowOff r v } }

/-- What the destripe unit does when the packet of row position `r` has ended with all its samples (R123, R164, R165). -/
def State.rowArrived (s : State) (p : Port) (r : Nat) : State :=
  match (s.port p).frame with
  | none => s
  | some fr =>
    if r < fr.pb.blindRows p ∨ !fr.gotRow p r then s
    else
      let s := if fr.colDone then s else s.colEstimate p
      s.rowEstimate p (r - fr.pb.blindRows p)

/-! ### Positions and damaged packets (R128) -/

/-- An event of a port; sources 7, 8, 18, 19 and 20 are detected errors (R137). -/
def State.portEvent (s : State) (p : Port) (k : Nat) : State :=
  let s := s.occur (srcPort p k)
  if k = 7 ∨ k = 8 ∨ k = 18 ∨ k = 19 ∨ k = 20 then s.detect (uPort p) (BitVec.ofNat 8 k) else s

/-- Counts of the frame in progress; a packet outside a frame has no effect on any. -/
def State.modArr (s : State) (p : Port) (f : ArrCounts → ArrCounts) : State :=
  s.modFrame p false fun fr => if fr.started then { fr with arr := f fr.arr } else fr

/-- A row discarded as an extra row. -/
def State.extraRow (s : State) (p : Port) : State :=
  (s.modArr p fun a => { a with extra := a.extra + 1 }).occur (srcPort p 11)

/-- The position that the next long packet of a sub-frame takes, if any. -/
def Frame.position (fr : Frame) (p : Port) (k : Nat) : Option Nat :=
  if fr.pb.lineNum p then
    (match fr.waitNum with
     | some n =>
       let r := n.toNat - fr.pb.lineFirst p
       if fr.pb.lineFirst p ≤ n.toNat ∧ r < fr.pb.lines p ∧ !(fr.rows.any fun x => x.sub == k && x.row == r) then some r else none
     | none => none)
  else
    let r := getN fr.nextRow k 0
    if r < fr.pb.lines p then some r else none

/-- Takes the position: `rec'` is what is known of the row. -/
def Frame.take (fr : Frame) (p : Port) (k r pixels : Nat) (bad : Bool) : Frame :=
  { fr with rows := fr.rows ++ [⟨k, r, pixels, bad⟩], waitNum := none,
            nextRow := if fr.pb.lineNum p then fr.nextRow else insertN fr.nextRow k (r + 1) }

/-- A long packet of sub-frame `k` that gives no row: its position, if it has one, is missing. -/
def State.rowLost (s : State) (p : Port) (k : Nat) : State :=
  match (s.port p).frame with
  | none => s
  | some fr =>
    match fr.position p k with
    | some r => s.modFrame p false fun fr => fr.take p k r 0 true
    | none => (s.modFrame p false fun fr => { fr with waitNum := none }).extraRow p

/-- A row packet of sub-frame `k` at position `r`: the samples of the bytes that entered the FIFO enter the accumulator (R122, R127, R128); the
row is missing where bytes were lost or the payload's CRC fails (R127, R128; log entry 148). -/
def State.rowEnter (s : State) (p : Port) (k r : Nat) (fr : Frame) (pk : RowPkt) : State :=
  let pb := fr.pb
  let bs := match pk.fifo with
    | some n => pk.payload.take n
    | none => pk.payload
  let xs := packetSamples pk.dt.toNat (bs.take (wordCount pb p))
  let pixels := min (pb.linePixels p) (xs.length / perPacket pb p)
  let bytes := (xs.take (pixels * perPacket pb p)).flatMap fun x => (wordBytes (wn x)).take 2
  let s := s.storeWrite (sampleAddr pb p fr.f r 0 k) bytes
  if pk.crcOk ∧ pk.fifo.isNone then (s.modFrame p false fun fr => fr.take p k r pixels false).rowArrived p r
  else s.modFrame p false fun fr => fr.take p k r 0 true

/-- What is found of a row packet whatever becomes of its row (R127, R128): an overflow of the FIFO, a payload CRC error, a short or a long
line. -/
def State.rowMeasure (s : State) (p : Port) (fr : Frame) (pk : RowPkt) : State :=
  let want := wordCount fr.pb p
  let wc := pk.payload.length
  let s := if pk.fifo.isSome then s.portEvent p 18 else s
  let s := if pk.crcOk then s else (s.modArr p fun a => { a with crcErr := a.crcErr + 1 }).portEvent p 8
  if wc < want then (s.modArr p fun a => { a with short := a.short + 1 }).occur (srcPort p 12)
  else if want < wc then (s.modArr p fun a => { a with long := a.long + 1 }).occur (srcPort p 13)
  else s

/-- A long packet of a supported type inside a frame (R124, R127, R128). -/
def State.rowPacket (s : State) (p : Port) (k : Nat) (pk : RowPkt) : State :=
  match (s.port p).frame with
  | none => s
  | some fr =>
    let s := (s.modFrame p false fun fr => { fr with lastSub := k }).rowMeasure p fr pk
    match fr.position p k with
    | none => s.rowLost p k
    | some r =>
      if s.rowConflict p (rowSpan fr.pb p fr.f r k) then (s.occur (srcPort p 17)).rowLost p k
      else s.rowEnter p k r fr pk

/-- A packet whose header is uncorrectable (R128). -/
def State.headerBad (s : State) (p : Port) : State :=
  let s := (s.modArr p fun a => { a with eccBad := a.eccBad + 1 }).portEvent p 7
  match (s.port p).frame with
  | some fr =>
    if !fr.started then s
    else if fr.pb.lineNum p then s.modFrame p false fun fr => { fr with waitNum := none }
    else s.rowLost p (if fr.pb.orderB p then fr.lastSub else 0)
  | none => s

/-- Receives a packet's header (R114, R115, R128): nothing on a port that is off, the damage of a bad header, another virtual channel, or
`body`. -/
def State.receive (s : State) (p : Port) (vc : BitVec 2) (ecc : Ecc) (body : State → State) : State :=
  if s.thermal.held || (s.port p).st == .off then s
  else match ecc with
    | .bad => s.headerBad p
    | e =>
      let s := if e = .corrected then (s.modArr p fun a => { a with eccFixed := a.eccFixed + 1 }).occur (srcPort p 6) else s
      if vc.toNat ≠ s.params.force.vc p then s.occur (srcPort p 15) else body s

/-- A packet that belongs inside a frame: outside one it is discarded (R128 source 16). -/
def State.inFrame (s : State) (p : Port) (body : Frame → State → State) : State :=
  match (s.port p).frame with
  | some fr => if fr.started then body fr s else s.occur (srcPort p 16)
  | none => s.occur (srcPort p 16)

end Sys2Proof.Machine
end

