-- ==== Sys2Proof/Machine/Meridian.lean ====
section
/-! DEFINITION. The meridian: how a frame ends and is settled, what takes effect in which order, the frame that opens, and the twin's
application of AGREE (R23–R28, R39, R65, R83, R100, R125–R136, R164, R173, R174, R218, R265, R298–R305, R321–R326, R331, R516, R519). -/
namespace Sys2Proof.Machine

/-! ### Opening a frame (R24, R173, R174) -/

/-- The slot a processed frame writes: the lowest-numbered not among the three most recently written (R173). -/
def PortS.nextSlot (x : PortS) : Option (Fin 4) := (allFin 4).find? fun j => !(x.slotOrder.take 3).contains j

/-- YSH of a port's copies. -/
def yshOf (pb : PMap) (p : Port) : Nat := fld (pb.portF p 7 0) 7 4

/-- Reference `k` for a frame ending at agreed count `f`: usable or not (R174). -/
def PortS.refAt (x : PortS) (pb : PMap) (p : Port) (f entry : W) (k : Nat) : Option (Fin 4) :=
  match x.slotOrder[k]? with
  | none => none
  | some j =>
    let d := x.slots.get j
    let age := (f - d.m).toNat
    if d.valid && (1 ≤ age && age ≤ 6) && age < (f - entry).toNat && d.ysh == yshOf pb p then some j else none

/-- Whether a plan leaves a port out: FRUGAL, damper stage 4 or a forced level stops it (R37, R300). -/
def portStopped (pb : PMap) (stage level : Nat) (p : Port) : Bool :=
  decide (level ≤ 2) && (homeLanes pb (planOf pb stage level) p).isEmpty

/-- The frame that follows the meridian opens under the state in force after it (R24, R39, R125, R209, R300). -/
def State.openFrame (s : State) (p : Port) : State :=
  let x := s.port p
  let pb := s.portView p
  let m := x.mer + 1
  let disc := x.discardLeft != 0
  let skip := decide (3 ≤ x.stage) && !x.altProcess && !x.halfRate
  let stop := portStopped pb x.stage x.level p
  let hold := x.transitHold || x.level == 3
  let runs := !(disc || skip || stop || hold)
  let fr : Frame :=
    { m := m, pb := pb, taps := [], ro := s.roCopy, profile := x.profile, level := x.level, stage := x.stage, egen := x.egen, sgen := x.sgenNow, bands := x.bands,
      bandGen := x.bandGen, scene := (s.tport p).sceneOn, startDisc := disc, skipped := skip, stopped := stop, heldStart := hold,
      held := false, patched := false, started := false, fsNum := 0, feNum := none, byTimeout := false, byEarly := false,
      ended := false, deadlinePassed := false, f := x.fCount, rows := [], nextRow := [], lastSub := 0, waitNum := none,
      arr := ⟨0, 0, 0, 0, 0, 0, 0⟩, emb := [], colDone := false, lb := none, la := 0, col := x.col, rowOff := x.rowOff, pix := [],
      hearth := ⟨0, 0, 0, 0, 0, 0, 0, 0, 0, 0⟩, stat := StatAcc.zero, statDone := false,
      slot := if runs then x.nextSlot else none
      refs := (List.range 3).map fun k => x.refAt pb p (s.agreedOf p m) (s.agreedOf p x.entryMer) k
      tilesPatched := [], curveNew := x.curveChanged, past := false }
  s.modPort p fun x => { x with frame := some fr, discardLeft := x.discardLeft - 1, curveChanged := false }

/-! ### Settling the frame that ends (R126, R128, R129) -/

/-- Missing active rows. -/
def Frame.missing (fr : Frame) (p : Port) : Nat :=
  ((List.range (fr.pb.rows p)).filter fun r => !fr.gotRow p (fr.pb.blindRows p + r)).length

/-- Missing blind rows. -/
def Frame.missingBlind (fr : Frame) (p : Port) : Nat := ((List.range (fr.pb.blindRows p)).filter fun r => !fr.gotRow p r).length

/-- Whether every row arrived whole. -/
def Frame.complete (fr : Frame) (p : Port) : Bool := (List.range (fr.pb.lines p)).all fun r => fr.whole p r

/-- The frame as its meridian finds it: held, patched or neither (R129). `prev` tells that a previous corrected frame exists. -/
def Frame.settle (fr : Frame) (p : Port) (prev : Bool) : Frame :=
  if !fr.processed then fr
  else
    let flawed := !fr.complete p
    let held := decide (fr.pb.rows p < 8 * fr.missing p) || (flawed && !prev)
    { fr with held := held, patched := !held && (fr.patched || flawed) }

/-- The arrival record (R136). -/
def State.arrivalBytes (s : State) (p : Port) (fr : Frame) : List Byte :=
  let c := fr.arr
  let miss := fr.missing p
  let mism := match fr.feNum with
    | some n => n != fr.fsNum
    | none => false
  let fe := match fr.feNum with
    | some n => n.toNat
    | none => 0xFFFF
  wordsBytes
    [s.agreedOf p fr.m,
     wn (fr.sgen.toNat + fr.flags4 + 2 ^ 20 * b2n fr.byTimeout + 2 ^ 21 * b2n fr.byEarly + 2 ^ 22 * b2n mism),
     wn (fr.pb.rows p - miss + 2 ^ 12 * miss + 2 ^ 24 * fr.missingBlind p),
     wn (sat16n c.extra + 2 ^ 16 * sat16n c.short), wn (sat16n c.long + 2 ^ 16 * sat16n c.crcErr),
     wn (sat16n c.eccFixed + 2 ^ 16 * sat16n c.eccBad), wn (fr.fsNum.toNat + 2 ^ 16 * fe), wn (sat16n c.embBytes)]

/-- The lanes that work on the port's arriving frame now work on its tail; work left from the frame before is over (R24). -/
def State.lanesTail (s : State) (p : Port) : State :=
  let f (o : Option Invoc) : Option Invoc :=
    o.bind fun v => if v.port = p then (if v.tail then none else some { v with tail := true }) else some v
  { s with lanes := updAll s.lanes fun _ l => { l with invoc := f l.invoc, abandoned := f l.abandoned } }

/-- The closing of a settings window (R133): a batch moves the count; frame N + 2 carries it. -/
def State.windowClose (s : State) (p : Port) : State :=
  let x := s.port p
  if !x.windowOpen then s
  else
    let n := if x.batch = 0 then x.sgenCount else x.sgenCount + 1
    let s := s.modPort p fun x =>
      { x with sgenCount := n, sgenNext := n.zeroExtend 16 ||| (if x.unsettled then 0x8000 else 0), windowOpen := false, batch := 0,
               unsettled := false }
    if x.batch = 0 then s else s.occur (srcPort p 25)

/-- A MER that waits for the port takes the meridian's count (R65). -/
def State.merWake (s : State) (p : Port) : State :=
  let m := s.agreedMer p
  { s with engines := updAll s.engines fun _ en =>
      { en with ctxs := updAll en.ctxs fun _ c =>
          match c.block, c.merGot with
          | .mer q _, none => if q = p then { c with merGot := some m } else c
          | _, _ => c } }

/-- What a processed frame leaves in the rotation (R173) and in SBFRAMES (R199). -/
def State.slotWritten (s : State) (p : Port) (fr : Frame) : State :=
  let s := if fr.scene then s.modTPort p fun t => { t with sbframes := satAdd t.sbframes 1 } else s
  match fr.slot with
  | none => s
  | some j =>
    s.modPort p fun x =>
      { x with slots := upd x.slots j fun _ => ⟨s.agreedOf p fr.m, yshOf fr.pb p, true⟩, slotOrder := j :: x.slotOrder.erase j }

/-- The end of the frame at its meridian: the deadline of the frame before has passed, the column estimate is made if no active row
arrived, the frame is settled, its arrival record is written, its events are raised, its record completes as far as it can. `why` is
0 for a Frame End, 1 for the timeout, 2 for an early Frame Start. -/
def State.frameOver (s : State) (p : Port) (why : Nat) (fe : Option (BitVec 16)) : State :=
  let s := s.deadline p
  let s := match (s.port p).frame with
    | some fr => if fr.colDone then s else s.colEstimate p
    | none => s
  match (s.port p).frame with
  | none => s
  | some fr =>
    let prev := (s.port p).prevFor fr
    let fr := { fr with ended := true, feNum := fe, byTimeout := why == 1, byEarly := why == 2 }.settle p prev.isSome
    let s := (s.lanesTail p).modPort p fun x =>
      { x with mer := fr.m, frame := none, tail := some fr, fCount := x.fCount + 1, merTicks := s.nv.optime, merPcc := s.nv.pcc }
    let odd := bitOf (s.agreedOf p fr.m) 0
    let s := s.storeWrite (recordBase p + (if odd then 0x20 else 0)) (s.arrivalBytes p fr)
    let s := s.storeWrite (recordBase p + (if odd then 0x4000 else 0x2000)) fr.emb
    let s := if fr.emb.isEmpty then s else s.occur (srcPort p 23)
    let s := s.occur (srcPort p 1)
    let s := if why = 1 then s.occur (srcPort p 2) else if why = 2 then s.occur (srcPort p 3) else s
    let s := match fe with
      | some n => if n = fr.fsNum then s else s.occur (srcPort p 28)
      | none => s
    let held := fr.flags4 / 2 ^ 17 % 2 = 1
    let s := if fr.patched ∧ fr.processed then s.occur (srcPort p 9) else s
    let s := if held then s.occur (srcPort p 10) else s
    let s := if bitOf (fr.sgen.zeroExtend 32) 15 then s.occur (srcPort p 27) else s
    let s := s.markStreams p fr.m (fr.patched && fr.processed) held prev
    let s := if fr.processed then ((s.slotWritten p fr).maximaEnter p true).tryComplete p true else
          (s.modPort p fun x => { x with prevCurve := x.curve, prevCurveMer := x.curveMer }).statWrite p fr false
    s.transitFrame p fr

/-! ### What takes effect (R25) -/

/-- What takes effect at a meridian, in ascending block number (R101, R103, R519): the class D copy's adoption; `mid`, the blocks 0x001 and
0x002 if their units are idle at the meridian (R200, R338); the class P copies. They are checked together. -/
def State.applyParams (s : State) (p : Port) (l : List (Nat × PMap)) (dev : Bool) (mid : State → State) : State :=
  let o := s.committed
  let s := mid (if dev || s.params.devChecked then s.devAdopt p l else s)
  let v := l.foldl (fun m e => m.setBlock e.1 e.2) s.committed
  forEach l (fun e t => t.applyOneP v o e.1 e.2) s

/-- The port's state after its blocks: ENABLE = 0, or its retirement, switches it off (R125, R298). -/
def State.portEnds (s : State) (p : Port) : State :=
  if (s.port p).st = .running ∧ !s.portEnabled p then s.portOff p else s

/-- The damper stage adopted (R25): where it rises to 3 or more, alternation begins, and the settings count of that meridian tells from
then on whether the half-rate setting has been made (R39, log entry 139). -/
def State.stageTake (s : State) (p : Port) : State :=
  let n := s.deviceStage
  s.modPort p fun x =>
    if 3 ≤ n ∧ x.stage < 3 then
      { x with stage := n, altProcess := false, halfRate := false,
               altSgen := if x.windowOpen && x.batch != 0 then x.sgenCount + 1 else x.sgenCount }
    else { x with stage := n }

/-- The alternation of stage 3 at a meridian (R39): the frame after the stage's meridian is processed, the next discarded, and so on,
until a frame carries a settings count moved since (log entry 139). -/
def PortS.alternate (x : PortS) : PortS :=
  let moved := (x.sgenNow.extractLsb' 0 15 - x.altSgen).toNat
  { x with altProcess := decide (x.stage < 3) || !x.altProcess,
           halfRate := decide (3 ≤ x.stage) && (x.halfRate || (decide (1 ≤ moved) && decide (moved < 0x4000))) }

/-- A cluster whose test passed serves again from the next meridian (R289). -/
def State.clustersBack (s : State) : State :=
  forEach (allFin 12) (fun k t => if (t.unit (uCluster k)).st = 3 then t.inService (uCluster k) else t) s

/-- A port that FRUGAL, stage 4 or a forced level stops ends its transit (R211). -/
def State.stopTransit (s : State) (p : Port) : State :=
  let x := s.port p
  if portStopped (s.portView p) x.stage x.level p then s.transitAbandonPort p 5 else s

/-- A restore that waits for its port (R229). -/
def State.restoreTake (s : State) (p : Port) : State :=
  if s.transit.rstPend = some p ∧ !s.inTransit then s.restoreBegin p else s

/-- The commit of a transit on a device alone, and a restore: part of step 1 of R25. -/
def State.ephemerisTake (s : State) (p : Port) : State :=
  (if s.transitDecision p = 4 then s.transitCommit p else s).restoreTake p

/-- What else the transit unit decides at a meridian of a device alone: the end of step 4 or an abandonment left from twin operation, a
report, a start. -/
def State.decideAlone (s : State) (p : Port) : State :=
  let s := match s.transit.cur with
    | some c => if c.port = p ∧ c.step = 4 ∧ c.flatMer.isSome ∧ c.abPend = 0 then s.flatEnd c none else s
    | none => s
  match s.transitDecision p with
  | 4 => s
  | 5 => s.transitAbandonNow ((s.transit.cur.map (·.abPend)).getD 0) false
  | d => s.transitCarry p d

/-- Whether a unit is a lane in the bands of a running port other than `p`. -/
def State.servesOther (s : State) (p : Port) (u : Fin 182) : Bool :=
  (allFin 4).any fun q => q != p && (s.port q).st == .running && (s.port q).bands.any fun b => uLane b.lane == u

/-- Retirements and rotations of a device alone at a meridian of port `p` (R287, R298); a serving lane is rotated out at its own
port's (R304). -/
def State.unitsAlone (s : State) (p : Port) : State :=
  ((s.rotateBack.retirePending (fun _ => true) true).rotateOut fun u => !s.servesOther p u)

/-! ### The twin's meridian (R321–R326, R331) -/

/-- A newer copy that the prime committed after the capture stays pending (R26, R322). -/
def State.newerPending (s : State) (a : Agreement) : List (Nat × PMap) :=
  s.params.pending.filter fun e => match lookupN a.blocks e.1 with
    | some c => blkClass e.1 == .p && !sameCopy e.1 c e.2
    | none => false

/-- The class D copy of an AGREE becomes the one under adoption; a newer one goes with a later AGREE (R322, R519). -/
def State.agreeDev (s : State) (a : Agreement) : State :=
  match lookupN a.blocks 0 with
  | none => s
  | some c =>
    let newer := match lookupN s.params.pending 0 with
      | some d => if s.twin.prime && !s.params.devChecked && !sameCopy 0 c d then some d else none
      | none => none
    let later := match s.twin.laterD with
      | some d => if sameCopy 0 c d then newer else some d
      | none => newer
    (s.modParams fun q => { q with pending := insertN q.pending 0 c, devChecked := false, devAdopters := [] }).modTwin fun t =>
      { t with laterD := later }

/-- The blocks of an AGREE that its own device applies: the prime's copies in force that it carried for a resync are in force already. -/
def State.agreedBlocks (s : State) (a : Agreement) : List (Nat × PMap) :=
  if s.twin.prime then a.blocks.filter fun e => (lookupN s.params.pending e.1).isSome || (e.1 == 0 && s.twin.laterD.isSome) else a.blocks

/-- Applies an AGREE at its meridian of port `p` (R322–R326, R333). -/
def State.applyAgree (s : State) (p : Port) (a : Agreement) : State :=
  let low := s.isLow p
  let a := { a with blocks := s.agreedBlocks a }
  let s := if s.twin.prime then s
    else s.modParams fun q => { q with gens := a.gens.foldl (fun m e => insertN m e.1 e.2) q.gens }
  let newer := if s.twin.prime then s.newerPending a else []
  let s := ((s.agreePending a).agreeDev a).modTwin fun t => { t with held := t.held.filter fun x => x.port ≠ p }
  let s := s.modPort p fun x => 
    { x with merTicks := a.ticks, merPcc := a.pcc, sgenNext := if s.twin.prime then x.sgenNext else a.sgen,
             sgenCount := if s.twin.prime then x.sgenCount else a.sgen.extractLsb' 0 15 }
  let s := s.applyParams p (a.blocks.filter fun e => blkClass e.1 == .p) (lookupN a.blocks 0).isSome fun t =>
    let t := t.agreeTransit a
    if low then ((t.agreeClassI a).applyTransit).applyTwin else t
  let s := s.modParams fun q => { q with pending := newer.foldl (fun m e => insertN m e.1 e.2) q.pending }
  let s := forEach (allFin 4) (fun q t => if (t.port q).st = .running then t else t.portFollow q) s
  if low then
    let s := (s.stageCarry a.stage).modTwin fun t => { t with agreedTicks := a.ticks }
    let s := s.agreeUnits a
    if a.swap then s.swapOwner else s
  else s

/-- The AGREE held for this meridian of the port, if any. -/
def State.heldAgree (s : State) (p : Port) : Option Agreement :=
  s.twin.held.find? fun a => a.port == p && a.m + 1 == s.agreedMer p

/-- Steps 1 to 3 of R25 on a device alone, but for a takeover: until it holds OWNER its own copies wait, and at that meridian the last
AGREE received is applied in their place (R331). -/
def State.takeAlone (s : State) (p : Port) : State :=
  let last := if s.twin.st = 5 then s.twin.held.find? fun a => a.port == p else none
  let takes := s.isLow p && s.mayOwn
  if s.twin.st = 5 ∧ s.twin.takeover ∧ !s.twin.owner ∧ !takes then (s.stageTake p).unitsAlone p
  else match last with
    | some a => ((s.applyAgree p a).stageTake p).unitsAlone p
    | none => ((s.applyParams p (s.pendingOf p) true fun t => (t.ephemerisTake p).applyTransit).stageTake p).unitsAlone p

/-- Steps 1 to 3 of R25 in twin operation: what AGREE carried. A shadow that does not hold it applies nothing and is out of step
(R322, R325). -/
def State.takeTwin (s : State) (p : Port) : State :=
  match s.heldAgree p with
  | some a => ((s.applyAgree p a).restoreTake p).stageTake p
  | none =>
    if s.twin.prime then s
    else (s.stepMissed p).occur (srcLink 27)

/-! ### The rest of the meridian -/

/-- The settings window of the meridian opens (R132, R133), one still open having closed; the frame that follows takes its count. -/
def State.windowTurn (s : State) (p : Port) : State :=
  (s.windowClose p).modPort p fun x =>
    { x with sgenNow := x.sgenNext, sgenNext := x.sgenCount.zeroExtend 16, fsInWindow := false,
             windowOpen := fld ((s.portView p).portF p 3 0) 15 0 != 0 }

/-- The port runs on: its bands, its transit under the profile now in force (R203, R206), the settings window, the frame that opens. `twin`
tells that an AGREE has decided. -/
def State.portOn (s : State) (p : Port) (twin : Bool) : State :=
  let s := ((s.holdSettle p).bandsSet p (s.port p).stage).deferMark p
  let s := (if twin then s else s.decideAlone p).stopTransit p
  let s := (s.transitTriggers p).sceneSwitch p
  ((s.windowTurn p).modPort p PortS.alternate).openFrame p

/-- A restore whose port has left running is merged at once (R229). -/
def State.restoreIdle (s : State) : State :=
  match s.transit.rstPend with
  | some p => if (s.port p).st = .running ∨ s.inTransit then s else s.restoreBegin p
  | none => s

/-- When no port runs, what waited for a meridian takes effect at once (R83, R100, R200, R287, R311, R517). -/
def State.afterStop (s : State) : State :=
  let s := s.restoreIdle
  if s.anyRunning then s
  else
    let s := s.settleIdle.applyTransit
    let s := if s.twin.lowerAtMer then s.dropOwner else s
    if s.twin.raiseAtMer && s.mayOwn then s.gainOwner else s

/-- The meridian of a port (R23, R25, R126): `why` and `fe` as for `frameOver`. -/
def State.meridian (s : State) (p : Port) (why : Nat) (fe : Option (BitVec 16)) : State :=
  let s := s.frameOver p why fe
  let fr := (s.port p).tail
  let done := s.boot.complete
  let s := s.modBoot fun b => { b with complete := b.complete || b.boot }
  let twin := s.twinning
  let low := s.isLow p
  let booted := s.boot.complete && !done
  let s := if twin then s.takeTwin p else s.takeAlone p
  let s := s.stopsTake.clustersBack.failedBack
  let s := if low then s.ownerAtMer else if booted then s.ownerRise else s
  let s := (s.merWake p).portEnds p
  let s := match s.twin.psIn.find? fun e => e.1 = p with
    | some e => (s.installState p e.2).modTwin fun t => { t with psIn := t.psIn.filter fun e => e.1 ≠ p }
    | none => s
  let runs := (s.port p).st == .running
  let s := if runs then s.portOn p twin else s.windowTurn p
  let s :=
    if !twin || !runs then s
    else
      let s := if s.twin.prime then s.capture p
        else (s.sendPropose p fr).modTwin fun t => { t with ownStart := upd t.ownStart p fun _ => s.transitDecision p == 1 }
      ((s.digestSettle).testSettle).resyncNext
  s.afterStop

end Sys2Proof.Machine
end

