-- ==== Sys2Proof/Machine/Port.lean ====
section
/-! DEFINITION. The commands of the sensor ports: packets, timeouts, windows, self-tests (R114–R138). -/
namespace Sys2Proof.Machine

/-! ### Frame Start (R125, R126, R133, R265) -/

/-- Entry to running (R125, R519): bands are computed as at a meridian, and the frame that the Frame Start opens. The zones' maxima and the
tone curve start anew (R193, R197). -/
def State.portRun (s : State) (p : Port) : State :=
  let s := (s.deadline p).devEnter p
  let n := s.deviceStage
  let s := s.modPort p fun x =>
    { x with st := .running, discardLeft := fld (s.params.force.portF p 2 2) 3 0, entryMer := x.mer, stage := n, altProcess := true,
             altSgen := if x.stage < 3 then x.sgenCount else x.altSgen, halfRate := x.halfRate && decide (3 ≤ n),
             merTicks := s.agreed, merPcc := s.nv.pcc, curveFresh := true, zones := updAll x.zones fun _ z => { z with maxima := [] },
             tail := x.tail.map fun fr => { fr with past := true } }
  let s := s.modTPort p fun t => { t with startNow := t.startNow || t.startDue, startDue := false }
  ((s.occur (srcPort p 5)).bandsSet p n).openFrame p

/-- w0 to w14 of a header's line 0, but for the stream count (w1), the flags (w3) and the curve's count (w7) (R269). -/
def State.headWords (s : State) (st : Fin 8) (p : Port) (fr : Frame) (tile : Nat) : List W :=
  let pb := fr.pb
  let x := s.port p
  let c := pb.streamCtl st
  let fmt := fld c 7 6
  let w (f : Nat) : W := pb.fld (0x181 + 4 * st.val) f
  let e := pb.fld (0x182 + 4 * st.val) 0
  [wn (1 + 2 ^ 8 * st.val + 2 ^ 12 * p.val + 2 ^ 14 * fld c 5 4 + 2 ^ 16 * fmt + 2 ^ 18 * fr.profile.toNat + 2 ^ 20 * fr.stage +
      2 ^ 23 * fld c 21 21), 0, s.agreedOf p fr.m, wn fr.sgen.toNat, fr.egen, wn x.merTicks, pccWord x.merPcc x.merTicks, 0,
    if fmt = 3 then wn (tile + 2 ^ 16 * fld e 15 8) else w 0 &&& 0x0FFF0FFF,
    if fmt = 3 then wn (fld e 31 16) else w 1 &&& 0x0FFF0FFF,
    if fmt = 3 then wn (pb.cols p + 2 ^ 16 * pb.rows p) else w 2 &&& 0x1FFF1FFF,
    wn (fld (getN s.params.gens (0x180 + 4 * st.val) 0) 15 0 +
      2 ^ 16 * fld (getN s.params.gens (0x1A0 + st.val) 0) 15 0), 0, 0, 0]

/-- Whether a stream's window lies inside the active area; an export uses none (R260). -/
def windowFits (pb : PMap) (st : Fin 8) : Bool :=
  let p := pb.streamPort st
  let w (f : Nat) : W := pb.fld (0x181 + 4 * st.val) f
  fld (pb.streamCtl st) 7 6 == 3 ||
    (decide (fld (w 0) 27 16 + fld (w 1) 27 16 ≤ pb.rows p) && decide (fld (w 0) 11 0 + fld (w 1) 11 0 ≤ pb.cols p))

/-- The blocks a stream's frame is built under (R265): those in force for its source frame (R24); after EN or PORT has named the port while the
frame was open, the stream's own blocks in force now (R276). -/
def State.streamPb (s : State) (p : Port) (fr : Frame) (st : Fin 8) : PMap :=
  if fr.pb.streamOn st && fr.pb.streamPort st == p then fr.pb
  else [0x180 + 4 * st.val, 0x181 + 4 * st.val, 0x182 + 4 * st.val, 0x1A0 + st.val].foldl
    (fun m b => m.setBlock b (s.params.force.block b)) fr.pb

/-- A stream takes up a source frame at its Frame Start (R265): every DECIM + 1st eligible frame. One that its window or its transmitter
keeps from sending counts the frame and raises source 3 (R260, R273, R280). -/
def State.streamTake (s : State) (p : Port) (fr : Frame) (st : Fin 8) : State :=
  let x := s.stream st
  if !x.on || x.srcPort != p then s
  else
    let pb := s.streamPb p fr st
    let fr := { fr with pb := pb }
    let n := fld (pb.streamCtl st) 27 24 + 1
    let turn := x.eligible % n == 0
    let hold := fr.heldStart
    let f : OutFrame :=
      { port := p, src := fr.m, pb := fr.pb, slot := if hold then (s.port p).prevFor fr else fr.slot, nextLine := 0, sentLines := 0,
        flags := (if hold then 0x00020000 else 0) ||| (if fr.scene then 0x00040000 else 0), head := s.headWords st p fr x.cursor,
        tile := x.cursor, placed := false, egen := fr.egen, genRead := none, curve := [], curveMer := 0 }
    let s := s.modStream st fun x => { x with eligible := x.eligible + 1 }
    if !turn then s
    else if windowFits fr.pb st && (s.txs.get (fr.pb.streamTx st)).on then s.modStream st fun x => { x with due := x.due ++ [f] }
    else (s.modStream st fun x => { x with srec := recAdd x.srec 7 1 }).occur (srcStream st 3)

/-- The streams that tap stage 1 or stage 3 of a port's frame as it starts (R261). -/
def State.tapsOf (s : State) (p : Port) (fr : Frame) : List (Fin 8 × Nat) :=
  (allFin 8).filterMap fun st =>
    let tap := fld ((s.streamPb p fr st).streamCtl st) 5 4
    if (s.stream st).on && (s.stream st).srcPort == p && (tap == 1 || tap == 2) then some (st, tap) else none

/-- The streams of a port at its Frame Start: a skipped, start-discarded or stopped frame is not eligible. -/
def State.streamsTake (s : State) (p : Port) (fr : Frame) : State :=
  if fr.startDisc || fr.skipped || fr.stopped then s else forEach (allFin 8) (fun st t => t.streamTake p fr st) s

/-- The Frame Start of the frame that is open (R126, R133, R208). -/
def State.frameBegin (s : State) (p : Port) (fno : BitVec 16) : State :=
  let s := s.modPort p fun x =>
    { x with fsInWindow := x.windowOpen, frame := x.frame.map fun fr => { fr with started := true, fsNum := fno, taps := s.tapsOf p fr } }
  let s := s.occur (srcPort p 0)
  let s := match (s.port p).frame with
    | some fr => s.streamsTake p fr
    | none => s
  s.modCur fun c => if c.port = p ∧ (c.step = 3 ∨ c.step = 4) then { c with firstAfter := true } else c

/-- FRAME_START (R125, R126): from sync only after the skew calibration that a rate above 1.5 Gbit/s requires. -/
def execFrameStart (p : Port) (vc : BitVec 2) (ecc : Ecc) (fno : BitVec 16) (s : State) : Out :=
  .next (s.receive p vc ecc fun s =>
    let x := s.port p
    match x.st with
    | .off => s
    | .sync =>
      if 150 < s.params.force.rate p ∧ !x.skewSeen then s.occur (srcPort p 22)
      else (s.portRun p).frameBegin p fno
    | .stalled => (s.portRun p).frameBegin p fno
    | .running =>
      let s := if x.frame.any (·.started) then s.meridian p 2 none else s
      if (s.port p).st = .running then s.frameBegin p fno else s)

/-- FRAME_END (R23). -/
def execFrameEnd (p : Port) (vc : BitVec 2) (ecc : Ecc) (fno : BitVec 16) (s : State) : Out :=
  .next (s.receive p vc ecc fun s => s.inFrame p fun _ s => s.meridian p 0 (some fno))

/-- FRAME_TIMEOUT (R126, R127): none while TIMEOUT is 0. -/
def execFrameTimeout (p : Port) (s : State) : Out :=
  if s.thermal.held then .next s
  else match (s.port p).frame with
    | some fr => if fr.started ∧ fld (fr.pb.portF p 2 0) 23 0 ≠ 0 then .next (s.meridian p 1 none) else .next s
    | none => .next s

/-- STALL_TIMEOUT (R125, R277): no Frame Start since the last meridian. -/
def execStallTimeout (p : Port) (s : State) : Out :=
  if s.thermal.held ∨ (s.port p).st ≠ .running ∨ (s.port p).frame.any (·.started) then .next s
  else
    let s := (s.portLeave p .stalled).occur (srcPort p 4)
    let s := forEach (allFin 8) (fun st t => if (t.stream st).on ∧ (t.stream st).srcPort = p then t.occur (srcStream st 3) else t) s
    .next ((s.portFollow p).afterStop)

/-- LINE_START (R114, R128): its number waits for the next long packet where LINE_NUM = 1. -/
def execLineStart (p : Port) (vc : BitVec 2) (ecc : Ecc) (num : BitVec 16) (s : State) : Out :=
  .next (s.receive p vc ecc fun s => s.inFrame p fun fr s =>
    if fr.pb.lineNum p then s.modFrame p false fun fr => { fr with waitNum := some num } else s)

/-- ROW_PACKET (R115, R121, R128). -/
def execRowPacket (p : Port) (k : RowPkt) (s : State) : Out :=
  .next (s.receive p k.vc k.ecc fun s => s.inFrame p fun fr s =>
    match subOf fr.pb p k.dt.toNat with
    | some sub => s.rowPacket p sub k
    | none => s.occur (srcPort p 14))

/-- EMBEDDED_DATA (R119, R136): up to 8 KiB a frame, kept until the frame's meridian (R21). It is a long packet, so a Line Start number waits no
longer (R128). A payload CRC error is counted and reported; the manual gives no other effect. -/
def execEmbeddedData (p : Port) (k : RowPkt) (s : State) : Out :=
  .next (s.receive p k.vc k.ecc fun s => s.inFrame p fun fr s =>
    let s := s.modFrame p false fun fr => { fr with waitNum := none }
    if !fr.pb.embEn p then s
    else
      let s := if k.crcOk then s else (s.modArr p fun a => { a with crcErr := a.crcErr + 1 }).portEvent p 8
      let s := if k.fifo.isSome then s.portEvent p 18 else s
      let bs := match k.fifo with
        | some n => k.payload.take n
        | none => k.payload
      let fit := bs.take (8192 - fr.arr.embBytes)
      let s := (s.modFrame p false fun fr => { fr with emb := fr.emb ++ fit }).modArr p fun a =>
        { a with embBytes := a.embBytes + fit.length }
      if fit.length < bs.length then s.occur (srcPort p 24) else s)

/-- HS_SYNC_ERROR (R128): the packet in progress is discarded; its row is missing. -/
def execHsSyncError (p : Port) (align : Bool) (dt : BitVec 6) (s : State) : Out :=
  if s.thermal.held ∨ (s.port p).st = .off then .next s
  else
    let s := s.portEvent p (if align then 20 else 19)
    match (s.port p).frame with
    | some fr =>
      if fr.started then
        (match subOf fr.pb p dt.toNat with
         | some k => .next (s.rowLost p k)
         | none => .next s)
      else .next s
    | none => .next s

/-- SKEW_CALIBRATION (R114, R125). -/
def execSkewCalibration (p : Port) (s : State) : Out :=
  if s.thermal.held ∨ (s.port p).st = .off then .next s
  else .next ((s.modPort p fun x => { x with skewSeen := true }).occur (srcPort p 21))

/-- ULPS_TRANSITION (R114, R137). -/
def execUlpsTransition (p : Port) (s : State) : Out :=
  if s.thermal.held ∨ (s.port p).st = .off then .next s else .next (s.occur (srcPort p 31))

/-- SETTINGS_WINDOW_CLOSE (R131, R133): LENGTH µs after the meridian, when no transfer of the window is on the balls. -/
def execSettingsWindowClose (p : Port) (s : State) : Out :=
  let busy := s.serial.mp1.any fun t => t.sel.val == p.val && t.eng.val == p.val + 1
  if s.thermal.held ∨ busy then .next s else .next (s.windowClose p)

/-- PORT_SELF_TEST (R138): in the first blanking after the request, or at once on a port that does not run. The scratch slot that it writes is
not in the store as the manual lays it out, and no byte of the store changes (log entry 150). -/
def execPortSelfTest (p : Port) (s : State) : Out :=
  let x := s.port p
  let u := s.unit (uPort p)
  let blank := x.st != .running || !(x.frame.any (·.started))
  if s.thermal.held ∨ s.thermal.shutdown ∨ !blank ∨ x.selfTest then .next s
  else if u.st = 2 then .next (s.modPort p fun x => { x with selfTest := true })
  else if u.st = 0 ∧ u.reqTest.isSome then
    .next ((s.modUnit (uPort p) fun u => { u with st := 2 }).modPort p fun x => { x with selfTest := true })
  else .next s

end Sys2Proof.Machine
end

