-- ==== Sys2Proof/Machine/TwinCmds.lean ====
section
/-! DEFINITION. The commands of twin operation: link frames received and sent, training, loss of the partner, OWNER (R311–R337). -/
namespace Sys2Proof.Machine

/-! ### Heartbeats (R330, R340) -/

/-- HEARTBEAT_SEND (R330): class 0, neither sequenced nor resent. -/
def execHeartbeatSend (s : State) : Out :=
  if s.thermal.held ∨ !s.linkUp then .next s
  else
    let t := s.twin
    let w0 := wn (t.st.val + 2 ^ 4 * b2n t.prime + 2 ^ 5 * b2n t.owner + 2 ^ 6 * b2n s.peerOwner + 2 ^ 7 * b2n s.fm.fault +
      2 ^ 8 * s.thermal.stage)
    let f : LinkFrame :=
      { type := 0x01, seq := 0, ack := t.ackNo, cls := 0, port := 0, payload := [w0, t.heartNo, wn s.nv.optime, wn (s.nv.optime / 2 ^ 32 % 256)] }
    .next (s.modTwin fun t => { t with heartNo := t.heartNo + 1, lastSent := some f, ackDue := false })

/-- What a heartbeat's state tells LOCKSTEP (R317, R325): the partner has gone from LOCKSTEP to RESYNC. The shadow follows, and learns the
port from the rows that come; the prime, which no frame tells the port, takes every running one (log entry 166). -/
def State.heartState (s : State) (w0 : W) : State :=
  if s.twin.st = 4 ∧ fld w0 3 0 = 3 ∧ fld (s.twin.lastHeart.get 0) 3 0 = 4 then
    (if s.twin.prime then
      forEach ((allFin 4).filter fun p => (s.port p).st = .running) (fun p t => t.outOfStep p) s
     else s.resyncAgain)
  else s

/-- HEARTBEAT received (R330, R340): a gap in the numbers is a missed one (source 16); FAULT rising (25); a stage above this device's
(26). -/
def execHeartbeat (w0 w1 w2 w3 : W) (s : State) (h : RxHdr := {}) : Out :=
  .next (s.onClass0 h fun s =>
    if !s.linkUp then s
    else
      let t := s.twin
      let first := t.lastHeart == Vector.replicate 4 0
      let stage := fld w0 10 8
      let fault := bitOf w0 7
      let s := if !first ∧ w1 ≠ t.lastHeart.get 1 + 1 then s.occur (srcLink 16) else s
      let s := if fault ∧ !t.peerFault then s.occur (srcLink 25) else s
      let s := if s.thermal.stage < stage ∧ t.peerStage ≤ s.thermal.stage then s.occur (srcLink 26) else s
      (s.heartState w0).modTwin fun t => { t with lastHeart := #v[w0, w1, w2, w3], peerStage := stage, peerFault := fault })

/-! ### Pairing (R315–R318) -/

/-- HELLO received (R317, R318): another device ID, stepping or image is refused. -/
def execHello (ws : List W) (s : State) (h : RxHdr := {}) : Out :=
  .next (s.onFrame h (fun s => s.twin.st == 2) fun s =>
    let s := s.modTwin fun t => { t with peerSn := nthW ws 1 ++ nthW ws 0 }
    if nthW ws 3 ≠ idWord ∨ nthW ws 4 ≠ s.imageDigest then (s.alone 6).occur (srcLink 3)
    else s.paired ws)

/-- A link newly trained numbers its frames from 0 (R315). -/
def Twin.fresh (t : Twin) : Twin :=
  { t with trained := true, lock := 0xF, badRun := 0, imgAsked := false, unacked := [], queue := [], txSeq := 0, rxSeq := 0,
           lastHeart := Vector.replicate 4 0 }

/-- The image, as the partner reads it again from the source it booted from, goes out in IMAGE frames, 2,048 bytes in each (R315, R316). -/
def State.serveImage (s : State) (bs : List Byte) : State :=
  let n := bs.length / 2048 + 1
  s.linkSendAll 0x0B 4 0 (((List.range n).map fun i => bytesWords ((bs.drop (2048 * i)).take 2048)).filter fun ws => !ws.isEmpty)

/-- LINK_TRAINED (R313, R315–R317). Under the mask ROM of a device that boots from its partner the training asks for the image (log entry
34). `request` is such a partner's request, with the image's bytes as this device's boot source gives them again (R316): it is answered once
EN is in force, besides. The device goes to PAIRING and sends its HELLO (R317). A link retrained while the pair works goes on where it was. -/
def execLinkTrained (s : State) (request : Option (List Byte) := none) : Out :=
  let boots := s.boot.step == 2 && s.boot.bootsel == 2
  let st := s.twin.st
  if s.thermal.held ∨ s.twin.trained ∨ !(s.twinEn || boots) then .next s
  else if boots then .next ((s.modTwin fun t => { t.fresh with imgAsked := true }).occur (srcLink 0))
  else
    let s :=
      if st = 1 || st = 2 || (st = 5 && bitOf (s.params.force.fld 2 0) 2) then
        (((s.linkDiscard.modTwin Twin.fresh).occur (srcLink 0)).twinState 2).linkSend 0x02 1 0 s.helloWords
      else (s.modTwin fun t => { t with trained := true, lock := 0xF, badRun := 0 }).occur (srcLink 0)
    match request with
    | some bs => .next (s.serveImage bs)
    | none => .next s

/-- LINK_RETRAIN (R313, R317, R465): block lock lost on a lane. Sixteen frames with CRC errors in a row do the same. -/
def execLinkRetrain (s : State) : Out := if s.thermal.held ∨ !s.twin.trained then .next s else .next s.linkRetrain

/-- PAIRING_TIMEOUT (R317): 2 s after EN took effect without pairing. -/
def execPairingTimeout (s : State) : Out :=
  if s.thermal.held ∨ s.twin.st ≠ 1 then .next s else .next (s.alone 5)

/-- PARTNER_LOST (R331): no valid HEARTBEAT for 3.25 ms. -/
def execPartnerLost (s : State) : Out :=
  if s.thermal.held ∨ !s.linkUp then .next s
  else .next ((((s.occur (srcLink 7)).noteTwin 7).modTwin fun t => { t with lastHeart := Vector.replicate 4 0 }).alone 5)

/-! ### OWNER and PEER_OWNER (R311, R331) -/

/-- PEER_OWNER_CHANGE (R311, R331, R340): GPIO15 while EN is in force. When it falls, a device that is not owner takes OWNER; when it
rises on one, the roles have followed the partner's ownership (R318). -/
def execPeerOwnerChange (level : Bool) (s : State) : Out :=
  let same := s.serial.gpio.getLsbD 15 = level
  let s := s.modSerial fun x => { x with gpio := (x.gpio &&& 0x7FFF) ||| (if level then 0x8000 else 0) }
  if !s.twinEn ∨ same then .next s
  else
    let s := s.occur (srcLink 24)
    if s.thermal.held ∨ s.twin.owner then .next s
    else if level then
      .next (if s.twinning then s.modTwin fun t => { t with prime := false, captured := [] } else s)
    else if s.twinning then
      let swap := s.twin.held.any (·.swap)
      .next ((s.modTwin fun t => { t with takeover := !swap }).wantOwner)
    else if s.twin.st = 5 ∨ s.twin.st = 6 then .next s.wantOwner
    else .next s

/-- Whether the fault manager refreshes the owner watchdog in place of the ME (R84): while the ME is in its sequence or restarts. -/
def State.fmRefreshes (s : State) : Bool :=
  !s.thermal.held && (s.boot.meRestarting || (s.eng engME).st == 5 || (1 ≤ (s.unit (uEng engME)).st.toNat && (s.unit (uEng engME)).st.toNat ≤ 3))

/-- OWNER_WATCHDOG_EXPIRE (R84, R311): no refresh by the ME, nor by the fault manager in its place, for 2 ms. -/
def execOwnerWatchdogExpire (s : State) : Out :=
  if s.fmRefreshes then .next s else .next ((s.modTwin fun t => { t with watchdog := true }).dropOwner)

/-- OWNER_WATCHDOG_REFRESH (R84, R311): a running ME refreshes the watchdog, or the fault manager in its place; a device with EN = 0 owns
again. -/
def execOwnerWatchdogRefresh (s : State) : Out :=
  if s.thermal.held ∨ ((s.eng engME).st ≠ 1 ∧ !s.fmRefreshes) then .next s
  else
    let s := s.modTwin fun t => { t with watchdog := false }
    .next (if !s.twinEn && s.mayOwn then s.gainOwner else s)

/-! ### PROPOSE and AGREE (R321–R326) -/

/-- The prime's comparison of the shadow's PROPOSE(M) with its own meridian M (R325): count, frame number, and whether the frame was
processed on one device only; the device that processed it is then the source. Each PROPOSE is compared once. A port newly found out of step
has its next AGREE withheld, so that the shadow finds it too, applies nothing, and takes its offset from the AGREE after (log entry 166). -/
def State.proposeCheck (s : State) (p : Port) : State :=
  let m := s.agreedMer p
  match s.twin.proposals.find? fun q => q.port == p && !q.used, (s.port p).tail with
  | some q, some fr =>
    let s := s.modTwin fun t => { t with proposals := t.proposals.map fun x => if x.port = p then { x with used := true } else x }
    let mine := fr.processed
    let theirs := q.fstate == 0
    let lost := s.stepMissed p
    let lost := if s.twin.outStep.get p then lost else lost.modTwin fun t => { t with agreeHold := upd t.agreeHold p fun _ => true }
    if q.m ≠ m ∨ q.fno ≠ fr.fsNum then lost
    else if mine ≠ theirs then lost.modTwin fun t => { t with fromPeer := upd t.fromPeer p fun _ => theirs }
    else s
  | _, _ => s

/-- PROPOSE received by the prime (R323): the latest of its port. One that comes after its meridian's AGREE has gone is compared at once; one
for the coming meridian waits for it. -/
def execPropose (ws : List W) (s : State) (h : RxHdr := {}) : Out :=
  .next (s.onLink h fun s =>
    if !s.twinning || !s.twin.prime then s
    else
      let w (i : Nat) : W := nthW ws i
      let n := fld (w 0) 31 16
      let q : Proposal :=
        { port := ⟨fld (w 0) 1 0 % 4, by omega⟩, m := w 1, stage := fld (w 0) 6 4, fstate := fld (w 0) 9 8,
          fno := (w 2).extractLsb' 0 16, entries := (List.range n).map fun i => (w (3 + 2 * i), w (4 + 2 * i)), used := false }
      let s := s.modTwin fun t => { t with proposals := (t.proposals.filter fun x => x.port ≠ q.port) ++ [q], propStage := q.stage }
      if !(s.twin.captured.any fun a => a.port == q.port) ∧ q.m = s.agreedMer q.port then s.proposeCheck q.port else s)

/-- AGREE_SEND (R324): the prime sends AGREE(M) of a port once its settings window has closed. -/
def execAgreeSend (p : Port) (s : State) : Out :=
  if s.thermal.held ∨ !s.twinning ∨ !s.twin.prime ∨ (s.port p).windowOpen then .next s
  else match s.twin.captured.find? fun a => a.port = p with
    | none => .next s
    | some a =>
      let low := s.isLow p
      let s := s.proposeCheck p
      let sends := !s.twin.agreeHold.get p
      let a := s.agreeLists { a with stage := max s.thermal.stage s.twin.propStage, sgen := (s.port p).sgenNext, swap := a.swap && sends }
      let heard := s.twin.proposals.any fun q => q.port == p
      let s := s.modTwin fun t =>
        { t with captured := t.captured.filter fun x => x.port ≠ p, held := (t.held.filter fun x => x.port ≠ p) ++ [a],
                 agreeHold := upd t.agreeHold p fun _ => false, allBlocks := t.allBlocks && !(sends && low && !a.gens.isEmpty),
                 swapAt := t.swapAt && !a.swap, mapNew := t.mapNew && !(sends && low && heard) }
      .next (if sends then s.linkSend 0x04 1 p (agreeWords a) else s)

/-- The copies of an AGREE that reaches a shadow with no port running take effect at once (R322). -/
def State.agreeAtOnce (s : State) (a : Agreement) : State :=
  let ps := a.blocks.filter fun e => blkClass e.1 == .p
  let s := (s.agreePending a).modParams fun q => { q with pending := ps.foldl (fun m e => insertN m e.1 e.2) q.pending }
  let s := s.applyBatch ps
  let s := forEach (allFin 4) (fun q t => t.portFollow q) s
  let s := match lookupN a.blocks 0 with
    | some c => ((s.modParams fun q =>
        { q with pending := insertN q.pending 0 c, devChecked := false, devAdopters := [] }).devCheck []).devSettle
    | none => s
  forEach (a.blocks.filter fun e => blkClass e.1 == .i) (fun e t => t.applyIdle e.1 false) (s.agreeClassI a)

/-- AGREE received by the shadow (R324, R325): held for the next meridian of its port; a port newly out of step takes its offset from it
(R321). Where no port runs what it carries takes effect at once (R322). -/
def execAgree (ws : List W) (s : State) (h : RxHdr := {}) : Out :=
  .next (s.onLink h fun s =>
    let all := s.twin.agreeIn ++ ws
    if !s.twinning || s.twin.prime then s
    else if ws.length = 512 then s.modTwin fun t => { t with agreeIn := all }
    else
      let a := readAgree all
      let s := s.modTwin fun t => { t with agreeIn := [] }
      if !s.anyRunning then s.agreeAtOnce a
      else s.modTwin fun t =>
        { t with held := (t.held.filter fun x => x.port ≠ a.port) ++ [a],
                 offsets := if t.offsetDue.get a.port then upd t.offsets a.port fun _ => a.m - (s.port a.port).mer else t.offsets,
                 offsetDue := upd t.offsetDue a.port fun _ => false })

/-! ### Digests and outcomes (R327, R328) -/

/-- DIGEST received. -/
def execDigest (p : Port) (frame : W) (es : List DigestEntry) (portCrc : Option W) (s : State) (h : RxHdr := {}) : Out :=
  .next (s.onLink h fun s =>
    if !s.twinning then s
    else
      let key (t : Nat) : Nat := p.val * 65536 + t
      let new := es.map (fun e => (key e.tile, frame.toNat, e.crc, e.flags)) ++ match portCrc with
        | some c => [(key 65535, frame.toNat, c, 0)]
        | none => []
      (s.modTwin fun t =>
        { t with peerTiles := (t.peerTiles.filter fun e => !(new.any fun n => n.1 == e.1)) ++ new }).digestSettle)

/-- OUTCOME received (R328): source 12; with both devices' results the source of the tile's resync is chosen. -/
def execOutcome (p : Port) (tile frame : W) (laneFail tileFail : Bool) (s : State) (h : RxHdr := {}) : Out :=
  .next (s.onLink h fun s =>
    let k := p.val * 65536 + tile.toNat % 65536
    ((s.modTwin fun t =>
      { t with tests := t.tests.map fun e =>
          if e.key = k ∧ e.frame = frame.toNat then { e with peer := some (laneFail || tileFail) } else e }).occur (srcLink 12)).testSettle)

/-! ### Resync (R325, R328, R329, R333, R334) -/

/-- Whether a row is the last of its tile row. -/
def tileRowEnds (pb : PMap) (p : Port) (row : Nat) : Bool := row % 64 == 63 || row + 1 == pb.rows p

/-- STATE received: a row of a bulk or tile resync, with its last frame (log entry 161), and with a port's first row its port state. In RESYNC
the first row of a port that resyncs nothing yet starts the receiver's sweep; a port state that is awaited alone starts none (R328). -/
def execState (r : Option ResyncRow) (s : State) (h : RxHdr := {}) : Out :=
  .next (s.onLink h fun s =>
    match r with
    | none => s
    | some r =>
      if !s.twinning then s
      else
        let alone := s.twin.psWait.contains r.port
        let s := s.modTwin fun t =>
          { t with rowsIn := (t.rowsIn.filter fun x => !(x.port == r.port && x.row == r.row)) ++ [r],
                   psIn := match r.portState with
                     | some x => (t.psIn.filter fun e => e.1 ≠ r.port) ++ [(r.port, x)]
                     | none => t.psIn
                   psWait := if r.portState.isSome then t.psWait.filter fun q => q ≠ r.port else t.psWait }
        if s.twin.sweep || alone || r.portState.isNone || s.twin.st ≠ 3 then s
        else
          let s := if s.twin.outStep.get r.port then s else s.outOfStep r.port
          s.sweepBegin r.port)

/-- What an installed row means to the sweep or to the tiles it completes (R333, R340 source 11). -/
def State.rowInstalled (s : State) (p : Port) (row : Nat) : State :=
  let pb := s.params.force
  if s.twin.sweep && s.twin.sweepPort == p then
    let s := s.modTwin fun t => { t with sweepRow := t.sweepRow + 1 }
    if pb.rows p ≤ s.twin.sweepRow then s.sweepOver p else s
  else if tileRowEnds pb p row then
    let done := (tilesAt pb p row).filter fun t => s.twin.diverged.contains (p.val, t)
    forEach done (fun t u =>
      (u.modTwin fun x => { x with diverged := x.diverged.erase (p.val, t), tileResync := satAdd x.tileResync 1 }).occur (srcLink 11)) s
  else s

/-- RESYNC_ROW_INSTALL (R329): after the receiver's own processing of the row in frame F and before its phase A of it in frame F + 1; a
row that comes later is not installed, and the source resends it. -/
def execResyncRowInstall (p : Port) (row : Nat) (s : State) : Out :=
  match s.twin.rowsIn.find? fun r => r.port = p ∧ r.row = row with
  | none => .next s
  | some r =>
    let m := s.agreedMer p
    let now := (s.rowPlace p row).any fun e => e.1 == r.frame
    let ahead := (r.frame - m).toNat
    let early := (decide (1 ≤ ahead) && decide (ahead < 2 ^ 31)) || (r.frame == m && !s.rowDone p row)
    if s.thermal.held ∨ !s.twinning ∨ (!now && early) then .next s
    else
      let t := s.modTwin fun t => { t with rowsIn := t.rowsIn.erase r }
      .next (if now then (t.installRow r).rowInstalled p row else t)

/-- A row of the sweep, sent in ascending order; with the last the sweep is over (R333, R334). -/
def State.sweepSend (s : State) (p : Port) (row : Nat) : State :=
  let s := (s.sendRow p row).modTwin fun t => { t with sweepRow := row + 1 }
  if s.params.force.rows p ≤ row + 1 then s.sweepOver p else s

/-- RESYNC_ROW_SEND (R329, R333, R334): the source sends a row after its own write-back of it, the rows of a sweep in order. A shadow that is the
source (R325) starts its sweep with row 0. A row that came too late is sent again for a later frame: of a sweep any earlier row, until the
port's check frame matches; of a tile any row, until its digest matches. -/
def execResyncRowSend (p : Port) (row : Nat) (s : State) : Out :=
  let pb := s.params.force
  let t := s.twin
  let tiles := (tilesAt pb p row).any fun k => t.sendTiles.contains (p.val, k)
  let sweeping := t.sweep && t.sweepPort == p && t.isSource p
  let mayBegin := !t.prime && !t.sweep && row == 0 && t.st == 3 && !t.outStep.get p && (s.port p).st == .running && !s.transitNear
  let again := t.st == 3 && t.isSource p && t.checkFrames / 2 ^ p.val % 2 == 0 && !t.outStep.get p
  if s.thermal.held ∨ !s.twinning ∨ pb.rows p ≤ row ∨ (s.rowPlace p row).isNone then .next s
  else if sweeping then
    (if row = t.sweepRow then .next (s.sweepSend p row) else if row < t.sweepRow then .next (s.sendRow p row) else .next s)
  else if tiles then .next (s.sendRow p row)
  else if mayBegin then
    .next (((s.modTwin fun t => { t with fromPeer := upd t.fromPeer p fun _ => true }).sweepBegin p).sweepSend p row)
  else if again then .next (s.sendRow p row)
  else .next s

/-! ### Mirroring, messages, images (R66, R316, R335, R336) -/

/-- ALMANAC received (R335): the partner's record is entered as a mirrored one. -/
def execAlmanac (ws : List W) (s : State) (h : RxHdr := {}) : Out :=
  .next (s.onLink h fun s =>
    let n := fld (nthW ws 0) 23 16 / 4
    s.queueRec { w0 := nthW ws 0, w1 := nthW ws 1 ||| 0x00010000, w2 := nthW ws 2, w3 := nthW ws 3, payload := (ws.drop 4).take n } none)

/-- NVWRITE received (R336): the prime orders a write of the shadow's and sends it back; each device applies it. -/
def execNvwrite (page : Fin 768) (off : BitVec 8) (bs : List Byte) (s : State) (h : RxHdr := {}) : Out :=
  .next (s.onLink h fun s =>
    let s := if s.twin.prime then s.linkSend 0x09 3 0 (nvFrame page.val off.toNat bs) else s
    let s := s.modNv fun n => { n with sent := n.sent.erase (page.val, off.toNat, bs) }
    s.nvQueue { page := 1024 + page.val, off := off.toNat, bytes := bs.take (256 - off.toNat), src := .hostMirrored })

/-- MSG received (R66): one word for a channel of this device's ME; it is not taken while the channel is full. -/
def execMsg (ch : Fin 16) (w : W) (s : State) (h : RxHdr := {}) : Out :=
  .next (s.onFrame h (fun s => s.linkUp && s.chanRoom engME ch) fun s => s.chanPut engME ch w)

/-- IMAGE received (R316): consecutive bytes of the image of a device that boots from its partner; source 21 with the last. -/
def execImage (bs : List Byte) (s : State) (h : RxHdr := {}) : Out :=
  .next (s.onFrame h (fun s => s.boot.step == 2 && s.boot.bootsel == 2 && s.twin.imgAsked) fun s =>
    let n := s.twin.imgLen
    let s := (s.storeWrite (imgBufBase + n) (bs.take (2 ^ 24 - n))).modTwin fun t => { t with imgLen := t.imgLen + bs.length }
    let total := (s.storeWord (imgBufBase + 8)).toNat
    if 12 ≤ s.twin.imgLen ∧ n < total ∧ total ≤ s.twin.imgLen then s.occur (srcLink 21) else s)

/-! ### Acknowledgements (R315) -/

/-- ACK received (R315): what every frame's acknowledgement field does, in a frame of its own. -/
def execAck (h : RxHdr) (s : State) : Out := .next (s.onClass0 h id)

/-- ACK_SEND (R315): nothing else has carried the acknowledgement within 2 µs. -/
def execAckSend (s : State) : Out :=
  if s.thermal.held ∨ !s.twin.trained ∨ !s.twin.ackDue then .next s
  else .next (s.modTwin fun t =>
    { t with ackDue := false, lastSent := some { type := 0x0C, seq := 0, ack := t.ackNo, cls := 0, port := 0, payload := [] } })

/-- LINK_RESEND (R315): no acknowledgement for 20 µs; frames go again from the oldest unacknowledged one, each counted, source 18. -/
def execLinkResend (s : State) : Out :=
  let n := s.twin.unacked.length
  if s.thermal.held ∨ !s.twin.trained ∨ n = 0 then .next s
  else
    let s := s.modTwin fun t => { t with retx := satAdd t.retx n, lastSent := t.unacked.getLast?, ackDue := false }
    .next (forEach (List.range n) (fun _ t => t.occur (srcLink 18)) s)

end Sys2Proof.Machine
end

