-- ==== Sys2Proof/Machine/Trim.lean ====
section
/-! DEFINITION. The self-trim pass (R230–R233, R355, R356, R454–R457). -/
namespace Sys2Proof.Machine

/-- How many codes of 6.25 kHz a DCO's count over 1 ms lies below its target (R456). -/
def dcoStep (mhz count : Nat) : Int := rndDiv (4 * ((1000 * mhz : Nat) - count : Int)) 25

/-- C500 and slope after the count of a running DCO over 1 ms (R456): C500 moves until the count matches; the slope is learned over 5 K. -/
def dcoTrim (c500 : Nat) (slope : Int) (mhz count : Nat) (before now : Option Int) (last : Nat) : Nat × Int :=
  let n := (satU 16 ((c500 : Int) + dcoStep mhz count)).toNat
  match before, now with
  | some a, some b =>
    if 320 ≤ (b - a).natAbs then
      let d := b - a
      let x := ((n : Int) - last) * 2 ^ 14 * (if d < 0 then -1 else 1)
      let m := rndDiv x d.natAbs
      (n, satS 16 (slope + rnd (m - slope) 2))
    else (n, slope)
  | _, _ => (n, slope)

/-- One cluster of the pass: a parked or retired cluster is not trimmed; one whose target lies more than 512 codes off its compensated code is
a detected error (R456). -/
def State.trimCluster (s : State) (m : TrimMeas) (k : Fin 12) : State :=
  let c := s.cluster k
  if c.mhz = 0 ∨ c.stopped ∨ (s.unit (uCluster k)).st = 5 then s
  else match m.dcoCount[k.val]? with
    | none => s
    | some n =>
      if 512 < (dcoStep c.mhz n).natAbs then (s.occur (srcClock (2 * k.val + 1))).clusterDetect k 0
      else
      let t := s.clusterTemp k
      let q := dcoTrim (s.trimC500 k) (s.trimSlope k) c.mhz n c.trimTemp t c.lastC500
      let s := s.setTrim k.val (wn (q.1 + 2 ^ 16 * (BitVec.ofInt 16 q.2).toNat))
      (s.modCluster k fun c => { c with trimTemp := t, lastC500 := q.1 }).dcoSet k

/-- Whether a nearest sensor has moved by more than TRIM_DT, in 1/16 K, between two readings. -/
def State.movedFar (s : State) (was now : Option Int) : Bool :=
  match was, now with
  | some a, some b => decide (4 * fld (s.t1 7) 23 16 < (b - a).natAbs)
  | _, _ => false

/-- Whether a pass is due (R232): asked for, TRIM_INT after the last one, or for an island whose nearest sensor has moved since its last
trim: a cluster, or one of the other islands (R388). -/
def State.trimDue (s : State) : Bool :=
  s.transit.trimAsk || decide (16 * fld (s.t1 7) 15 0 ≤ s.agreed - s.transit.trimTicks) ||
    ((allFin 12).any fun k => s.movedFar (s.cluster k).trimTemp (s.clusterTemp k)) ||
    (allFin 8).any fun j => s.movedFar (s.transit.islandTemps.get j) (s.islandTemp j)

/-- The pass asks every modulator that is not retired for its measurements, between two of its sequences (R355). -/
def State.modTrimAsk (s : State) (k : Fin 8) : State :=
  if s.sextant.stopped ∨ s.modRetired k then s else (s.modMod k fun x => { x with trimDue := true }).sxNext k none

/-- SELF_TRIM_PASS (R232): a pass that is due, of every cluster, the RC oscillator and the modulators (log entry 159), against REFCLK, which
it needs; it asks for a reference check (R233); one more TRIMCOUNT. -/
def execSelfTrimPass (m : TrimMeas) (s : State) : Out :=
  if s.thermal.held ∨ s.boot.step ≠ 3 ∨ !s.clocks.refOk ∨ (s.eng engME).st ≠ 1 ∨ !s.trimDue then .next s
  else
    let s := forEach (allFin 12) (fun k t => t.trimCluster m k) s
    let s := if 500 < ((m.rcCount : Int) - 100000).natAbs then s.occur (srcClock 41) else s
    let s := (s.setTrim 12 (m.rcCode.zeroExtend 32)).modTransit fun t => { t with islandTemps := updAll t.islandTemps fun j _ => s.islandTemp j }
    let s := forEach (allFin 8) (fun k t => t.modTrimAsk k) s
    .next (s.refDue.modTransit fun t =>
      { t with trimcount := t.trimcount + 1, trimTicks := s.agreed, trimPcc := s.nv.pcc, trimAsk := false }).trimRecord

end Sys2Proof.Machine
end

