-- ==== Sys2Proof/Machine/Masters.lean ====
section
/-! DEFINITION. The master ports: MP0's XIP line buffers, sequencer and rings (R406–R411), MP1's transfers (R412–R418), selects under
software control (R419). -/
namespace Sys2Proof.Machine

/-! ### Software-controlled selects (R419) -/

/-- A write of MP_SWSEL (R419). -/
def State.swWrite (s : State) (v : W) : State :=
  (s.modSerial fun x => { x with swPend := some (v &&& 0x000FFFFF) }).swTake

/-! ### The XIP window (R408) -/

/-- The line that a host address of the window names: select × 2^32 + the flash address of the 64-byte line. -/
def xipLine (cfg : W) (a : Nat) : Nat := b2n (bitOf cfg 24) * 2 ^ 32 + fld cfg 31 28 * 2 ^ 28 + (a - 0x20000000) / 64 * 64

/-- A word of the window: 0 with XEN = 0; from a valid line; `none` while its line is being filled or has to wait for a buffer. A miss
takes an invalid buffer, else the least recently used one that is not itself being filled. -/
def State.xipWord (s : State) (a : Nat) : Option W × State :=
  if !bitOf s.serial.cfg 8 then (some 0, s)
  else
    let key := xipLine s.serial.cfg a
    match s.serial.lines.find? fun l => l.addr == key with
    | some l =>
      if l.filling then (none, s)
      else
        (some (nthW (bytesWords (l.bytes.drop (a % 64))) 0),
          s.modSerial fun x => { x with lines := (x.lines.filter fun m => m.addr != key) ++ [l] })
    | none =>
      let new : XipLine := { addr := key, bytes := [], filling := true }
      if s.serial.lines.length < 8 then (none, s.modSerial fun x => { x with lines := x.lines ++ [new] })
      else match s.serial.lines.find? fun l => !l.filling with
        | some old => (none, s.modSerial fun x => { x with lines := (x.lines.filter fun m => m.addr != old.addr) ++ [new] })
        | none => (none, s)

/-- Every line buffer is invalidated (R408). -/
def State.xipInvalidate (s : State) : State := s.modSerial fun x => { x with lines := [] }

/-- A write of MP0_CFG: a DIV of 0 is ignored (R408, R420). -/
def State.cfgWrite (s : State) (v : W) : State :=
  (s.modSerial fun x => { x with cfg := (v &&& 0xF11F0100) ||| (if fld v 3 0 = 0 then x.cfg &&& 0xF else v &&& 0xF) }).xipInvalidate

/-- A write of MP0_RDCMD (R408, R420). -/
def State.rdcmdWrite (s : State) (v : W) : State := (s.modSerial fun x => { x with rdcmd := v }).xipInvalidate

/-! ### The sequencer of MP0 (R409–R411) -/

/-- Word `k` of descriptor `i` of a ring. -/
def ringWord (m : Mem) (base i k : Nat) : W := Mem.word m (base + 0x10 + 16 * (i % 8) + 4 * k)

/-- Writes the status of the head descriptor and advances CI (R411, R415). -/
def ringFinish (m : Mem) (base i : Nat) (code : Byte) : Mem :=
  Mem.setWord (Mem.set m (base + 0x10 + 16 * (i % 8) + 15) code) (base + 4) (wn ((i + 1) % 16))

/-- A descriptor of the ME's ring is finished: status, CI, source 4. -/
def State.mp0Finish (s : State) (i : Nat) (code : Byte) : State :=
  let s := s.modEng engME fun en => { en.ciFresh 0x7E00 with data := ringFinish en.data 0x7E00 i code }
  (s.modSerial fun x => { x with mp0 := none, mp0Done := 0 }).occur (srcSerial 4)

/-- The head of the ME's ring. -/
def State.mp0Head (s : State) : Option Nat :=
  if s.engRetired engME then none else (ringPending (s.eng engME).data 0x7E00).head?

/-- Whether a ring descriptor is refused (R411): a store address that is no multiple of 64, or a range outside the windows of the
ME image. -/
def State.mp0Bad (s : State) (i : Nat) : Bool :=
  let m := (s.eng engME).data
  let a := (ringWord m 0x7E00 i 2).toNat
  let n := fld (ringWord m 0x7E00 i 3) 23 0
  n != 0 && (a % 64 != 0 || !inWindows (s.eng engME).windows a n || s.unbacked a n)

/-- The command and address bytes of a transaction (R406, R410): two command bytes, high first, in 8D-8D-8D and one in 1S-1S-1S; the
address high byte first. -/
def xspiHead (ctl : W) (cmd : Nat) (addr : Option Nat) : List Byte :=
  let b (v k : Nat) : Byte := BitVec.ofNat 8 (v / 2 ^ (8 * k))
  (if bitOf ctl 16 then [b cmd 0] else [b cmd 1, b cmd 0]) ++
    (match addr with
     | some a => [b a 3, b a 2, b a 1, b a 0]
     | none => [])

/-- Splits written bytes at the 256-byte flash pages (R410); a command without data is one page. -/
def flashPages : Nat → Nat → List Byte → List (Nat × List Byte)
  | 0, a, bs => [(a, bs)]
  | fuel + 1, a, bs =>
    let n := 256 - a % 256
    if bs.length ≤ n then [(a, bs)] else (a, bs.take n) :: flashPages fuel (a + n) (bs.drop n)

/-- The transactions of a control word (R410): a write is preceded by WENCMD and split at the flash pages; POLL repeats STCMD after the
command, or after each page. -/
def State.xspiOps (s : State) (ctl : W) (cmd addr : Nat) (out : List Byte) (reads : Nat) : List XspiOp :=
  let one (c : Nat) (a : Option Nat) (dummy : Nat) (out : List Byte) (reads : Nat) (poll : Bool) : XspiOp :=
    { sel := fld ctl 19 19, octal := !bitOf ctl 16, head := xspiHead ctl c a, dummy := dummy, out := out, reads := reads, poll := poll }
  let at' (a : Nat) : Option Nat := if bitOf ctl 17 then some a else none
  let poll := if bitOf ctl 20 then [one (fld s.serial.rdcmd 31 16) none 0 [] 1 true] else []
  if bitOf ctl 18 then
    (flashPages (out.length / 256 + 1) addr out).flatMap fun pg =>
      [one (fld s.serial.wcmd 15 0) none 0 [] 0 false, one cmd (at' pg.1) 0 pg.2 0 false] ++ poll
  else one cmd (at' addr) (fld ctl 28 24) [] reads false :: poll

/-- A sequencer command other than a read invalidates the line buffers (R408). -/
def State.mp0Issue (s : State) (ctl : W) (c : Mp0Cmd) (ops : List XspiOp) : State :=
  let s := s.modSerial fun x => { x with mp0 := some c, mp0Bus := ops }
  if bitOf ctl 18 then s.xipInvalidate else s

/-- A piece of the ring's head descriptor begins (R409, R411). What it writes to the flash is read from the stacked store; what it reads is
read with RDCMD (R420; log entry 171). -/
def State.mp0RingStart (s : State) (i : Nat) : State :=
  let m := (s.eng engME).data
  let ctl := ringWord m 0x7E00 i 0
  let done := s.serial.mp0Done
  let n := min 4096 (fld (ringWord m 0x7E00 i 3) 23 0 - done)
  let d := if bitOf ctl 18 ∧ n ≠ 0 then s.storeRead ((ringWord m 0x7E00 i 2).toNat + done) n else ([], s)
  let cmd := if bitOf ctl 18 ∨ n = 0 then fld ctl 15 0 else fld s.serial.rdcmd 15 0
  d.2.mp0Issue ctl (.ring i n) (s.xspiOps ctl cmd ((ringWord m 0x7E00 i 1).toNat + done) d.1 n)

/-- The fill of a line begins. -/
def State.fillStart (s : State) (a : Nat) : State :=
  let ctl := wn (a / 2 ^ 32 * 2 ^ 19 + 2 ^ 17 + fld s.serial.cfg 20 16 * 2 ^ 24)
  (s.modSerial fun x => { x with fills := satAdd x.fills 1 }).mp0Issue ctl (.fill a)
    (s.xspiOps ctl (fld s.serial.rdcmd 15 0) (a % 2 ^ 32) [] 64)

/-- MP0_COMMAND_START (R409): at a command boundary the production loader's fills, which are over with PRODUCTION_LOAD_DONE (log entry
179); the first waiting fill; the head of the ME's ring, in pieces of at most 4 KiB; the host command. What names a select under software
control waits, and what comes after it in this order does not wait for it (R419). -/
def State.mp0Start (s : State) : State :=
  if s.prodFills then s
  else match s.serial.lines.find? fun l => l.filling && !s.mp0Soft (l.addr / 2 ^ 32) with
  | some l => s.fillStart l.addr
  | none =>
    let s := if s.engRetired engME then s else s.ringFix engME 0x7E00
    match s.mp0Head.filter fun i => s.mp0Bad i || !s.mp0Soft (fld (ringWord (s.eng engME).data 0x7E00 i 0) 19 19) with
    | some i => if s.mp0Bad i then s.mp0Finish i 3 else s.mp0RingStart i
    | none =>
      let ctl := s.serial.hcmd
      let n := s.serial.hlen
      if s.serial.hbusy ∧ !s.mp0Soft (fld ctl 19 19) then
        s.mp0Issue ctl .host (s.xspiOps ctl (fld ctl 15 0) s.serial.haddr.toNat (Mem.read s.serial.hbuf 0 n) n)
      else s

/-- MP0_COMMAND_START. -/
def execMp0CommandStart (s : State) : Out :=
  if s.thermal.held ∨ s.serial.mp0.isSome then .next s else .next s.mp0Start

/-- A ring piece ends (R411): read data go to the stacked store; with the last piece the descriptor is done. -/
def State.mp0Piece (s : State) (i piece : Nat) (bs : List Byte) : State :=
  let m := (s.eng engME).data
  let a := (ringWord m 0x7E00 i 2).toNat + s.serial.mp0Done
  let len := fld (ringWord m 0x7E00 i 3) 23 0
  let s := if piece = 0 ∨ bitOf (ringWord m 0x7E00 i 0) 18 then s
    else s.storeWrite a (bs.take piece ++ List.replicate (piece - bs.length) 0)
  if len ≤ s.serial.mp0Done + piece then s.mp0Finish i 1
  else s.modSerial fun x => { x with mp0 := none, mp0Done := x.mp0Done + piece }

/-- The host command ends with a code (R420): source 5. -/
def State.mp0Host (s : State) (code : Byte) : State :=
  (s.modSerial fun x => { x with mp0 := none, hbusy := false, hcode := code }).occur (srcSerial 5)

/-- What the end of the command in progress does; `bs` are the bytes read from the flash. -/
def State.mp0End (s : State) (bs : List Byte) : State :=
  match s.serial.mp0 with
  | none => s
  | some (.fill a) =>
    s.modSerial fun x =>
      { x with mp0 := none,
               lines := x.lines.map fun l =>
                 if l.addr = a ∧ l.filling then { addr := a, bytes := bs.take 64 ++ List.replicate (64 - bs.length) 0, filling := false }
                 else l }
  | some (.ring i piece) => s.mp0Piece i piece bs
  | some .host =>
    let n := s.serial.hlen
    let s := if bitOf s.serial.hcmd 18 then s
      else s.modSerial fun x => { x with hbuf := Mem.write x.hbuf 0 (bs.take n) }
    s.mp0Host 1

/-- Whether the command in progress polls (R410). -/
def State.mp0Polls (s : State) : Bool :=
  match s.serial.mp0 with
  | some (.ring i _) => bitOf (ringWord (s.eng engME).data 0x7E00 i 0) 20
  | some .host => bitOf s.serial.hcmd 20
  | _ => false

/-- MP0_POLL_TIMEOUT (R410, R411): 10 s of polling: status 0x02, source 6. -/
def execMp0PollTimeout (s : State) : Out :=
  if s.thermal.held ∨ !s.mp0Polls then .next s
  else
    let t := (s.modSerial fun x => { x with pollto := satAdd x.pollto 1 }).occur (srcSerial 6)
    match s.serial.mp0 with
    | some (.ring i _) => .next (t.mp0Finish i 2).swTake
    | some .host => .next (t.mp0Host 2).swTake
    | _ => .next s

/-- A write of MP0_HGO that is admitted (R420): the host command is queued. -/
def State.hgo (s : State) (v : W) : State := s.modSerial fun x => { x with hbusy := true, hlen := fld v 8 0 }

/-! ### MP1 (R412–R418) -/

/-- The engine of an MP1 ring: CE, PS0–PS3. -/
def mp1Eng (e : Fin 5) : Eng := ⟨e.val, by omega⟩

/-- An MP1 descriptor (R415). -/
structure Mp1Desc where
  sel : Fin 8
  query : Bool
  bits : Nat
  tx : Nat
  rxOn : Bool
  rx : Nat
  pre : Nat
deriving DecidableEq, Repr

def mp1Desc (m : Mem) (i : Nat) : Mp1Desc :=
  let w (k : Nat) := ringWord m 0x7C00 i k
  { sel := ⟨fld (w 0) 2 0 % 8, by omega⟩, query := bitOf (w 0) 3, bits := fld (w 0) 16 4 + 1, tx := (w 1).toNat,
    rxOn := bitOf (w 2) 31, rx := fld (w 2) 30 0, pre := fld (w 3) 13 0 }

/-- SELCFG of a select (R413). -/
def State.selCfg (s : State) (sel : Fin 8) : W := s.params.force.fld 0x1E0 (2 * sel.val)
def State.selDly (s : State) (sel : Fin 8) : W := s.params.force.fld 0x1E0 (2 * sel.val + 1)

/-- Bits a transfer sends and receives (R412, R415): full duplex, or in quad mode the bits before and after the turnaround. -/
def Mp1Desc.txBits (d : Mp1Desc) (quad : Bool) : Nat := if quad && d.rxOn then d.pre else d.bits
def Mp1Desc.rxBits (d : Mp1Desc) (quad : Bool) : Nat := if !d.rxOn then 0 else if quad then d.bits - d.pre else d.bits

/-- Whether a descriptor is refused (R415). -/
def State.mp1Bad (s : State) (e : Fin 5) (d : Mp1Desc) : Bool :=
  let quad := bitOf (s.selCfg d.sel) 9
  let size := dataSize (mp1Eng e)
  (d.sel.val < 4 && d.sel.val + 1 != e.val) || d.tx % 4 != 0 || decide (size < d.tx + (d.txBits quad + 7) / 8) ||
    (d.rxOn && decide (size < d.rx + (d.rxBits quad + 7) / 8)) || (quad && (d.pre % 4 != 0 || decide (d.bits < d.pre)))

/-- The computed duration D in ns (R416). -/
def State.mp1Dur (s : State) (d : Mp1Desc) : Nat :=
  let c := s.selCfg d.sel
  let quad := bitOf c 9
  let tck := 10 * (fld c 7 0 + 1)
  5 * fld (s.selDly d.sel) 9 0 + (if quad then (d.bits + 3) / 4 else d.bits) * tck + 5 * fld (s.selDly d.sel) 19 10 +
    (if quad && d.rxBits quad != 0 then tck else 0)

/-- Whether a transfer is bound to a settings window: one that PS*n* requests on SEL*n* (R132). -/
def windowBound (e : Fin 5) (d : Mp1Desc) : Bool := d.sel.val < 4 && e.val == d.sel.val + 1

/-- The port whose window binds a transfer. -/
def windowPort (d : Mp1Desc) : Port := ⟨d.sel.val % 4, by omega⟩

/-- Writes status and CI of an MP1 descriptor. -/
def State.mp1Write (s : State) (e : Fin 5) (i : Nat) (code : Byte) : State :=
  s.modEng (mp1Eng e) fun en => { en.ciFresh 0x7C00 with data := ringFinish en.data 0x7C00 i code }

/-- A head that does not fit its window waits for the next one; counted once a window (R132, R137 source 26, R421 source 16). -/
def State.mp1Defer (s : State) (e : Fin 5) (i : Nat) (d : Mp1Desc) : State :=
  let p := windowPort d
  let k := (i, (s.port p).mer)
  if lookupN s.serial.deferred e.val = some k then s
  else
    ((s.modSerial fun x => { x with deferred := insertN x.deferred e.val k, deferN := satAdd x.deferN 1 }).occur
      (srcSerial 16)).occur (srcPort p 26)

/-- The head of a ring that MP1 may take; a stopped engine's descriptors wait (R415). -/
def State.mp1Head (s : State) (e : Fin 5) : Option (Nat × Mp1Desc) :=
  let en := s.eng (mp1Eng e)
  if en.st = 1 ∨ en.st = 2 then ((ringPending en.data 0x7C00).head?).map fun i => (i, mp1Desc en.data i) else none

/-- MP1 reads the head of a ring (R43); a refused one ends at once with status 0x03 (R415). -/
def State.mp1Refuse (s : State) (e : Fin 5) : State :=
  let st := (s.eng (mp1Eng e)).st
  let s := if st = 1 ∨ st = 2 then s.ringFix (mp1Eng e) 0x7C00 else s
  match s.mp1Head e with
  | some (i, d) =>
    if s.mp1Bad e d then ((s.mp1Write e i 3).modSerial fun x => { x with refusedN := satAdd x.refusedN 1 }).occur (srcSerial 19)
    else s
  | none => s

/-- Whether a head fits the window that binds it (R132, R416); `since` gives, for each port, the time since the meridian that opened its
window, in 0.1 µs. -/
def State.mp1Fits (s : State) (e : Fin 5) (d : Mp1Desc) (since : List Nat) : Bool :=
  let p := windowPort d
  let len := fld ((s.portView p).portF p 3 0) 15 0
  !windowBound e d || ((s.port p).windowOpen && decide (100 * since.getD p.val 0 + s.mp1Dur d < 1000 * len))

/-- Whether the head of a ring may start now (R416, R417, R419): its window, its select, and INTER since the select's last release. -/
def State.mp1May (s : State) (since : List Nat) (rested : BitVec 8) (e : Fin 5) : Bool :=
  match s.mp1Head e with
  | some (_, d) => !s.mp1Soft d.sel.val && rested.getLsbD d.sel.val && s.mp1Fits e d since
  | none => false

/-- The rings in the order in which MP1 chooses (R417): PS*n* heads on SEL*n* by port, then the others, least recently served first. -/
def State.mp1Order (s : State) : List (Fin 5) :=
  let bound (e : Fin 5) : Bool := (s.mp1Head e).any fun h => windowBound e h.2
  let served := s.serial.mp1Served
  ((allFin 5).filter bound) ++ ((((allFin 5).filter fun e => !served.contains e) ++ served).filter fun e => !bound e)

/-- The head of a ring starts. -/
def State.mp1Begin (s : State) (e : Fin 5) : State :=
  match s.mp1Head e with
  | none => s
  | some (i, d) =>
    let quad := bitOf (s.selCfg d.sel) 9
    let s := s.dataFix (mp1Eng e) d.tx ((d.txBits quad + 7) / 8)
    let x : Mp1Xfer :=
      { eng := e, idx := i, live := true, sel := d.sel, query := d.query, bits := d.rxBits quad,
        tx := Mem.read (s.eng (mp1Eng e)).data d.tx ((d.txBits quad + 7) / 8), rxAddr := d.rx, rx := d.rxOn, driven := !s.mp1Bound }
    s.modSerial fun y => { y with mp1 := some x, mp1Served := (y.mp1Served.filter (· != e)) ++ [e] }

/-- A head bound to a window that it does not fit is deferred (R132). -/
def State.mp1Late (s : State) (since : List Nat) (e : Fin 5) : State :=
  match s.mp1Head e with
  | some (i, d) => if s.mp1Fits e d since then s else s.mp1Defer e i d
  | none => s

/-- MP1_TRANSFER_START (R415–R417): a transfer boundary. Refused descriptors end, heads that do not fit their window are deferred, and of those
that may start MP1 takes one; `rested` are the selects whose INTER has passed since their last release. -/
def execMp1TransferStart (sinceUs10 : List Nat) (rested : BitVec 8) (s : State) : Out :=
  if s.thermal.held ∨ s.thermal.pfStep ≠ 0 ∨ s.serial.mp1.isSome then .next s
  else
    let s := forEach (List.range 8) (fun _ t => forEach (allFin 5) (fun e u => u.mp1Refuse e) t) s
    let s := forEach (allFin 5) (fun e t => t.mp1Late sinceUs10 e) s
    match s.mp1Order.find? fun e => s.mp1May sinceUs10 rested e with
    | some e => .next (s.mp1Begin e)
    | none => .next s

/-- Received bytes: the low bits of a final partial byte are 0 (R415). -/
def rxBytes (bits : Nat) (bs : List Byte) : List Byte :=
  let n := (bits + 7) / 8
  let l := bs.take n ++ List.replicate (n - bs.length) 0
  if bits % 8 = 0 then l
  else l.take (n - 1) ++ [(l.getD (n - 1) 0) &&& (BitVec.ofNat 8 (256 - 2 ^ (8 - bits % 8)))]

/-- What the end of a transfer does: status and CI, the source of its select, the port's batch (R133), the waiting MP_SWSEL. -/
def State.mp1Over (s : State) (x : Mp1Xfer) (code : Byte) : State :=
  let s := s.modSerial fun y => { y with mp1 := none }
  let s := if x.live then s.mp1Write x.eng x.idx code else s
  let s := s.occur (srcSerial (8 + x.sel.val))
  let bound := x.sel.val < 4 && x.eng.val == x.sel.val + 1 && !x.query
  let s := if bound then
      s.modPort ⟨x.sel.val % 4, by omega⟩ fun q =>
        if q.windowOpen then { q with batch := q.batch + 1, unsettled := q.fsInWindow } else q
    else s
  s.swTake

/-- MP1_TRANSFER_END (R415, R416, R418): received bytes and status; `late` tells that stretching carried it past its window's close
(source 18). A transfer that was not driven receives nothing and completes with status 0x05. -/
def execMp1TransferEnd (rx : List Byte) (late : Bool) (s : State) : Out :=
  match s.serial.mp1 with
  | none => .next s
  | some x =>
    if s.thermal.held then .next s
    else
      let s := if x.live && x.driven && x.rx then
          let n := (x.bits + 7) / 8
          s.modEng (mp1Eng x.eng) fun en =>
            { en with data := Mem.write en.data x.rxAddr (rxBytes x.bits rx), dataBad := freshWords en.dataBad x.rxAddr n,
                      dataSoft := freshWords en.dataSoft x.rxAddr n }
        else s
      let s := if late && x.sel.val < 4 && x.eng.val == x.sel.val + 1 then s.occur (srcSerial 18) else s
      .next (s.mp1Over x (if x.driven then 1 else 5))

/-- MP1_READY_TIMEOUT (R416): with the ready input of the select on, the transfer ends with status 0x02; source 17. -/
def execMp1ReadyTimeout (s : State) : Out :=
  match s.serial.mp1 with
  | none => .next s
  | some x =>
    if s.thermal.held ∨ !bitOf (s.selCfg x.sel) 10 ∨ !x.driven then .next s
    else .next (((s.modSerial fun y => { y with rdyto := satAdd y.rdyto 1 }).occur (srcSerial 17)).mp1Over x 2)

end Sys2Proof.Machine
end

