-- ==== Sys2Proof/Machine/StoreCmds.lean ====
section
/-! DEFINITION. The stacked store's own commands and the host aperture (R244–R247, R250, R254, R255, R157). -/
namespace Sys2Proof.Machine

/-- MIGRATION_BLOCK_MOVE (R250): the block below the pointer is moved; with block 0 the migration is complete. -/
def execMigrationBlockMove (s : State) : Out := if s.thermal.held then .next s else .next s.migrate

/-- The last 64-bit word that the scrubber reads in a pass: it takes the backed words in ascending order (R246; log entry 40). -/
def State.scrubLast (s : State) : Nat := if s.store.ch15 || s.store.mig then 0xF1000000 / 8 - 1 else 2 ^ 32 / 8 - 1

/-- SCRUB_READ (R246): a word is read and treated as R245 does; a poisoned word is skipped and counted; the last word of a pass
advances the scrub count. -/
def execScrubRead (addr : W) (s : State) : Out :=
  let w := addr.toNat / 8
  if s.thermal.held ∨ s.boot.step.val < 2 ∨ s.boot.step = 5 ∨ s.unbacked (8 * w) 8 then .next s
  else
    let s := if s.store.poison.contains w then
        s.modStore fun t => { t with skippedPoison := t.skippedPoison + 1, poisonAddr := wn (8 * w) }
      else s.checkWord w
    .next (if w = s.scrubLast then s.modStore fun t => { t with passes := t.passes + 1 } else s)

/-- SCRUB_LATE (R246, R257): source 7 of each channel in service. -/
def execScrubLate (s : State) : Out :=
  if s.thermal.held then .next s
  else
    .next (forEach ((allFin 16).filter fun c => !(s.store.ch15 && c == s.store.retch)) (fun c t => t.occur (srcChan c 7)) s)

/-! ### The host aperture (R254, R255) -/

/-- The internal address that an aperture address shows (R254). -/
def State.apertureAddr (s : State) (a : Nat) : Nat := s.store.page.toNat * 2 ^ 28 + (a - 0x10000000)

/-- Whether a host write frame through the aperture is admitted (R255): no word in the reserve or a withdrawn range, in the kernel
slots under the enforce flag, or in the image buffer during a GO. -/
def State.apertureAdmits (s : State) (a n : Nat) : Bool :=
  let i := s.apertureAddr a
  let meets (lo hi : Nat) : Bool := decide (i < hi) && decide (lo < i + n)
  !s.unbacked i n && !(meets kslotBase (kslotBase + 0x10000) && s.nv.enforceOn) && !(meets imgBufBase (imgBufBase + 0x1000000) && s.queue.busy)

/-- Whether a frame has still to write back word `k` of element `i` (R24, R156): words 4 to 7 at the end of phase A, words 10 and 11 at the
end of phase C, both before the deadline, and neither of an element whose VALID is 0. -/
def State.backDue (s : State) (p : Port) (fr : Frame) (i k : Nat) : Bool :=
  let r := i / fr.pb.cols p
  let a := i % fr.pb.cols p
  let x := fr.px p r a
  let may := if x.doneA then x.valid else !fr.rowSettled p (fr.pb.blindRows p + r) || (s.elemIn p fr r a).valid
  fr.processed && !fr.deadlinePassed && may && (if k = 10 ∨ k = 11 then !x.doneC else 4 ≤ k && k ≤ 7 && !x.doneA)

/-- Whether an address lies in a word of a running port's record that the hearth has still to write back in a frame in progress, so that
a host write may be overwritten in the same frame (R153, R156, R157). -/
def State.recordRace (s : State) (a : Nat) : Bool :=
  let p : Port := ⟨a / 0x14000000 % 4, by omega⟩
  let i := a % 0x14000000 / 64
  let due (o : Option Frame) : Bool := o.any fun fr => i < fr.pb.rows p * fr.pb.cols p && s.backDue p fr i (a % 64 / 4)
  decide (a < 0x50000000) && (s.port p).st == .running && (due (s.port p).frame || due (s.port p).tail)

/-- A host write of one 64-bit word or of half of one (R244, R254): part of a poisoned word is discarded and sets POISON_RD (R247);
which value remains in a word that the hearth writes back is free (R157). A kernel slot written directly is loaded again by the
clusters that use it (R97). -/
def State.hostPut (s : State) (a : Nat) (bs : List Byte) : State :=
  let r := if s.recordRace a then s.free else (0, s)
  let s := r.2
  if s.recordRace a ∧ bitOf r.1 0 then s.countLines a bs.length
  else
    let s := s.storeWrite a bs
    let s := if bs.length < 8 ∧ s.poisoned a bs.length then s.modStore fun t => { t with poisonRd := true } else s
    if kslotBase ≤ a ∧ a < kslotBase + 0x10000 then
      { s with clusters := updAll s.clusters fun _ k =>
          { k with stale := k.stale || decide (k.slot.map (·.val) = some ((a - kslotBase) / 4096)) } }
    else s

/-- The words of an aperture frame: two consecutive words that are the halves of one 64-bit word are written together (R254). -/
def State.hostPuts : Nat → Nat → List W → State → State
  | 0, _, _, s => s
  | _ + 1, _, [], s => s
  | _ + 1, a, [w], s => s.hostPut a (wordBytes w)
  | fuel + 1, a, w :: v :: r, s =>
    if a % 8 = 0 then State.hostPuts fuel (a + 8) r (s.hostPut a (wordBytes w ++ wordBytes v))
    else State.hostPuts fuel (a + 4) (v :: r) (s.hostPut a (wordBytes w))

/-- An admitted aperture frame lands (R254): the page stands as at its first word. -/
def State.aperturePut (s : State) (a : Nat) (ws : List W) : State := State.hostPuts (ws.length + 1) (s.apertureAddr a) ws s

/-- A host read of a word at an internal address (R247, R254): 0 in reserved, reserve and withdrawn ranges; ones and POISON_RD where it is
poisoned. -/
def State.apertureGet (s : State) (i : Nat) : W × State :=
  if s.unbacked i 4 ∨ inReservedRange i then (0, s)
  else
    let r := s.storeRead i 4
    if r.2.poisoned i 4 then (0xFFFFFFFF, r.2.modStore fun t => { t with poisonRd := true })
    else (nthW (bytesWords r.1) 0, r.2)

/-! ### The load window (R94, R96) -/

/-- A word written through the load window into an engine memory lands in place, unless it lies past the end of a memory that ends within
the page (log entry 147). -/
def State.loadPut (s : State) (off : Nat) (w : W) : State :=
  match s.loadMap with
  | some (.eng e data base size) =>
    let a := base + off
    if size < a + 4 then s
    else
      s.modEng e fun en =>
        if data then
          { en with data := Mem.setWord en.data a w, dataBad := freshWords en.dataBad a 4, dataSoft := freshWords en.dataSoft a 4 }
        else
          { en with prog := Mem.setWord en.prog a w, progBad := freshWords en.progBad a 4, progSoft := freshWords en.progSoft a 4 }
  | _ => s

/-- The words of an admitted frame of the load window from an offset on: what it maps of the stacked store is written as through the
aperture (R96, R244, R247). -/
def State.loadPuts (s : State) (off : Nat) (ws : List W) : State :=
  match s.loadMap with
  | some (.store b) => State.hostPuts (ws.length + 1) (b + off) ws s
  | _ => forEach (ws.zip (List.range ws.length)) (fun x t => t.loadPut (off + 4 * x.2) x.1) s

/-- The host reads a word of an engine memory: a single-bit error is corrected in place, with source 1 of the engine (R43); log entry 178
says what an uncorrectable one reads as. -/
def State.engineWord (s : State) (e : Eng) (data : Bool) (a : Nat) : W × State :=
  let t := if data then s.dataFix e a 4 else if (s.eng e).progSoft.contains (a / 4) then s.fetchFix (.eng e) (wn a) else s
  (Mem.word (if data then (t.eng e).data else (t.eng e).prog) a, t)

/-- A word read through the load window; 0 wherever a write frame would be rejected, for any of the four reasons of R96, and past the end of a
memory (log entry 147). What it maps of the stacked store is read as through the aperture (R245, R247). -/
def State.loadGet (s : State) (off : Nat) : W × State :=
  match s.loadMap with
  | some (.eng e data base size) => if size < base + off + 4 ∨ !s.loadAdmits then (0, s) else s.engineWord e data (base + off)
  | some (.store b) => if s.loadAdmits then s.apertureGet (b + off) else (0, s)
  | none => (0, s)

end Sys2Proof.Machine
end

