-- ==== Sys2Proof/Machine/NvCmds.lean ====
section
/-! DEFINITION. What the host does to the almanac and the NV store through their registers, and the almanac's and the counters' own
steps (R335, R336, R426–R443, R447). -/
namespace Sys2Proof.Machine

/-! ### Host pages (R336, R436, R440) -/

/-- The password region of a host page (R434). -/
def pageRegion (q : Nat) : Fin 4 := if q < 384 then 1 else 2

/-- Whether host-page writes are mirrored (R336): in LOCKSTEP, and in RESYNC, whose page copies go first. -/
def State.mirrors (s : State) : Bool := s.twin.st == 3 || s.twin.st == 4

/-- Host page writes are busy: one waits or is in progress, or one sent to the prime has not returned (R336, R436). -/
def State.nvBusy (s : State) : Bool := s.nv.writes.any NvWrite.isHost || !s.nv.sent.isEmpty

/-- A host-page write (R336): applied here, and sent to the shadow, or sent to the prime and applied when it returns. -/
def State.hostPage (s : State) (q off : Nat) (bs : List Byte) (src : NvSrc) (skip : Nat × Nat := (0, 0)) : State :=
  let w : NvWrite := { page := 1024 + q, off := off, bytes := bs, src := src, skip := skip }
  if !s.mirrors then s.nvQueue w
  else if s.twin.prime then (s.nvQueue w).linkSend 0x09 3 0 (nvFrame q off bs)
  else (s.modNv fun n => { n with sent := n.sent ++ [(q, off, bs)] }).linkSend 0x09 3 0 (nvFrame q off bs)

/-- The words of a frame placed into a window of `n` bytes, addresses wrapping within it, the later word remaining. -/
def wrapWords (n : Nat) (d : List Byte) : Nat → List W → List Byte
  | _, [] => d
  | off, w :: r => wrapWords n (overlay d (off % n) (wordBytes w)) (off + 4) r

/-- A frame to NV_WIN (R436): one page write. One that wraps within the page leaves the bytes between its end and its start; the partner gets
those with their present contents (log entry 183). -/
def State.winPut (s : State) (off : Nat) (ws : List W) : State :=
  let q := s.nv.page.toNat
  let base := (1024 + q) * 256
  if off + 4 * ws.length ≤ 256 then s.hostPage q off (wordsBytes ws) .host
  else
    let d := wrapWords 256 (Mem.read s.nv.view base 256) off ws
    s.hostPage q 0 d .host (if 256 ≤ 4 * ws.length then (0, 0) else ((off + 4 * ws.length) % 256, off))

/-- A frame to NV_PWIN (R440): one write of the protected item, the copy that is not read. -/
def State.pwinPut (s : State) (off : Nat) (ws : List W) : State :=
  let t := itemPage s.nv.ppage.toNat
  let d := wrapWords 240 (s.nv.itemRead t) off ws
  let after := s.nv.itemWrite t 0 d .prot
  forEach (after.writes.drop s.nv.writes.length) (fun w s => s.hostPage (w.page - 1024) w.off w.bytes .prot) s

/-! ### Passwords (R438, R447) -/

/-- A frame to NV_UNLOCK (R438). -/
def State.unlock (s : State) (ws : List W) : State :=
  let r : Fin 4 := ⟨fld (nthW ws 0) 1 0 % 4, by omega⟩
  let write := bitOf (nthW ws 0) 4
  let m : BitVec 4 := 1 <<< r.val
  let locked := if write then s.nv.lockW.getLsbD r.val else s.nv.lockR.getLsbD r.val
  if locked then s.modNv fun n => { n with pwbad := satAdd n.pwbad 1 }
  else
  let s := s.itemCheck itemPasswords
  if wordsBytes [nthW ws 1, nthW ws 2] = s.nv.password r write then
    (s.modNv fun n => if write then { n with openW := n.openW ||| m } else { n with openR := n.openR ||| m }).occur (srcAlm 11)
  else
    ((s.modNv fun n =>
      if write then { n with pwbad := satAdd n.pwbad 1, lockW := n.lockW ||| m }
      else { n with pwbad := satAdd n.pwbad 1, lockR := n.lockR ||| m }).occur (srcAlm 10)).note 0x006 1 suAlmanac
        [wn (r.val + 16 * b2n write)]

/-- A write of NV_LOCK (R447): source 12 when an access that was open by its password closes. -/
def State.nvLock (s : State) (v : W) : State :=
  let rd : BitVec 4 := BitVec.ofNat 4 (bitsOf (fun r => bitOf v (2 * r)) 4)
  let wr : BitVec 4 := BitVec.ofNat 4 (bitsOf (fun r => bitOf v (2 * r + 1)) 4)
  let closes := s.nv.openR &&& rd != 0 || s.nv.openW &&& wr != 0
  let s := s.modNv fun n => { n with openR := n.openR &&& ~~~rd, openW := n.openW &&& ~~~wr }
  if closes then s.occur (srcAlm 12) else s

/-- A frame to NV_PWSET (R438): a new password, while its region is open for writing. -/
def State.pwset (s : State) (ws : List W) : State :=
  let r : Fin 4 := ⟨fld (nthW ws 0) 1 0 % 4, by omega⟩
  let off := 16 * r.val + if bitOf (nthW ws 0) 4 then 8 else 0
  if s.nv.writeOpen r then
    s.modNv fun n => n.itemWrite itemPasswords off (wordsBytes [nthW ws 1, nthW ws 2]) .item
  else s

/-- A word written to NV_SEC (R441, R447). -/
def State.secPut (s : State) (off : Nat) (w : W) : State :=
  s.modNv fun n => n.itemWrite itemSecurity off (wordBytes (if off = 32 then w &&& 1 else w)) .item

/-- NV_LOCKOUT_END (R438). -/
def execNvLockoutEnd (r : Fin 4) (write : Bool) (s : State) : Out :=
  let m : BitVec 4 := 1 <<< r.val
  .next (s.modNv fun n => if write then { n with lockW := n.lockW &&& ~~~m } else { n with lockR := n.lockR &&& ~~~m })

/-! ### Reads (R431, R432, R435, R440) -/

/-- A word of ALM_WIN (R431, R432); the read of its last word advances the cursor. -/
def State.almWin (s : State) (x : Nat) : W × State :=
  if !s.nv.readOpen 0 then (0, s)
  else
    let o := s.nv.cursor.toNat + x
    let r := if o < s.nv.dirtyStart then (s.nvRead o (min 4 (s.nv.dirtyStart - o))).2 else s
    let bad := s.nv.badView
    let b (i : Nat) : Byte := if o + i < s.nv.dirtyStart ∧ bad.contains ((o + i) / 8) then 0xFF else s.nv.logByte (o + i)
    let v := word4 (b 0) (b 1) (b 2) (b 3)
    (v, if x = 252 then r.modNv fun n => { n with cursor := wn ((n.cursor.toNat + 256) % 2 ^ 19) } else r)

/-- A word of NV_WIN; 0 while its region is closed for reading. -/
def State.nvWin (s : State) (x : Nat) : W × State :=
  let q := s.nv.page.toNat
  if !s.nv.readOpen (pageRegion q) then (0, s)
  else
    let r := s.nvRead ((1024 + q) * 256 + x) 4
    (nthW (bytesWords r.1) 0, r.2)

/-- A word of NV_PWIN (R439, R440). -/
def State.pwin (s : State) (x : Nat) : W × State :=
  let t := itemPage s.nv.ppage.toNat
  if !s.nv.readOpen 2 then (0, s)
  else
    (nthW (bytesWords ((s.nv.itemRead t).drop x)) 0, s.itemCheck t)

/-! ### The almanac's and the counters' own steps -/

/-- ALMANAC_RECORD_ENTER (R426, R427, R335): the oldest queued record reaches the buffer and its requester's W25 is set; a mirrored record
raises source 22. -/
def execAlmanacRecordEnter (s : State) : Out :=
  match s.nv.queue with
  | [] => .next s
  | (r, who) :: _ =>
    if s.thermal.held then .next s
    else
      let s := s.queueTake.recEnter r
      let s := match who with
        | some w => s.latch w.eng w.ctx 25
        | none => s
      .next (if bitOf r.w1 16 then s.occur (srcLink 22) else s)

/-- COUNTER_SAVE (R443): at every 57,600 ticks of operating time, whatever else has saved the record since. -/
def execCounterSave (s : State) : Out :=
  if s.thermal.held ∨ s.nv.optime / 57600 ≤ s.nv.savedTicks / 57600 then .next s
  else .next ((s.modNv fun n => { n with savedTicks := n.optime }).saveCounters .item)

/-- OPTIME_TICK (R443): operating time counts in the management island from boot. -/
def execOptimeTick (s : State) : Out :=
  if s.thermal.held ∨ s.boot.step = 0 ∨ s.boot.step = 5 then .next s
  else .next (s.modNv fun n => { n with optime := (n.optime + 1) % 2 ^ 40 })

end Sys2Proof.Machine
end

