-- ==== Sys2Proof/Machine/Laeno.lean ====
section
/-! DEFINITION. The Laeno port (R479–R482, R489). -/
namespace Sys2Proof.Machine

/-- The low five bytes of a tick count. -/
def tickBytes (n : Nat) : List Byte := (wordBytes (wn n)) ++ [BitVec.ofNat 8 (n / 2 ^ 32)]

/-- A packet of the trace unit with its own full timestamp, free (log entry 4): sync (R480 type 4), its operating time after it. -/
def State.traceSync (s : State) : State :=
  if !s.traceOn then s
  else
    let a := s.free
    let b := a.2.free
    let stamp := wordBytes a.1 ++ (wordBytes b.1).take 2
    let pk : Trace := { sync := true, bytes := (0x84 : Byte) :: stamp.take 2 ++ stamp ++ tickBytes s.nv.optime }
    let s := b.2.modEvents fun e => { e with stamp := ((b.1.extractLsb' 0 16 : BitVec 16) ++ a.1 : BitVec 48) }
    if fifoBytes s.events.fifo + pk.bytes.length ≤ 4096 then s.modEvents fun e => { e with fifo := e.fifo ++ [pk] }
    else s.modEvents fun e => { e with drop := satAdd e.drop 1, dropRun := min (e.dropRun + 1) 0xFFFF }

/-- LAENO_SYNC (R480): every 32,768 timestamp cycles. -/
def execLaenoSync (s : State) : Out := if s.thermal.held then .next s else .next s.traceSync

/-- LAENO_COUNTER_SAMPLE (R480, R482, R489): a counter packet for each of NUM counters from FIRST, indices wrapping. -/
def execLaenoCounterSample (s : State) : Out :=
  let c := s.events.csamp
  if s.thermal.held ∨ !s.traceOn ∨ fld c 31 18 = 0 then .next s
  else
    .next (forEach (List.range (fld c 17 9)) (fun k t =>
      let i := (fld c 8 0 + k) % 512
      let v := t.counter i
      t.trace 3 7 ((wordBytes (wn i)).take 2 ++ wordBytes (v.extractLsb' 0 32) ++ wordBytes (v.extractLsb' 32 32))) s)

/-- Takes the first packet that a test holds for out of the FIFO. -/
def takeTrace (f : Trace → Bool) : List Trace → Option (Trace × List Trace)
  | [] => none
  | p :: r => if f p then some (p, r) else (takeTrace f r).map fun q => (q.1, p :: q.2)

/-- LAENO_PACKET_SEND (R481): sync first, then an overflow packet after a drop, then the rest in order of creation. -/
def execLaenoPacketSend (s : State) : Out :=
  if s.thermal.held ∨ !s.traceOn then .next s
  else match takeTrace (·.sync) s.events.fifo with
    | some (p, r) => .next (s.modEvents fun e => { e with fifo := r, sentBytes := p.bytes })
    | none =>
      if s.events.dropRun ≠ 0 then
        let w := s.free
        let n := wordBytes (wn s.events.dropRun)
        .next (w.2.modEvents fun e =>
          { e with dropRun := 0, stamp := w.1.zeroExtend 48, sentBytes := (0x85 : Byte) :: (wordBytes w.1).take 2 ++ n.take 2 })
      else match s.events.fifo with
        | p :: r => .next (s.modEvents fun e => { e with fifo := r, sentBytes := p.bytes })
        | [] => .next s

/-- A write of LAENO_CTL (R482): a DIV of 0 is ignored; enabling the port makes a sync packet. -/
def State.laenoCtl (s : State) (v : W) : State :=
  let was := s.traceOn
  let div := if fld v 11 8 = 0 then fld s.events.ctl 11 8 else fld v 11 8
  let s := s.modEvents fun e => { e with ctl := wn (div * 2 ^ 8 + fld v 6 0) }
  if !was && s.traceOn then s.traceSync else s

/-! ### Event registers (R473, R477) -/

/-- A host write of a group's pending word (W1C): a selected group whose word changes makes a snapshot packet (R480). -/
def State.evtClear (s : State) (g : Fin 48) (v : W) : State :=
  let was := s.events.pend.get g
  let s := s.modEvents fun e => { e with pend := upd e.pend g (· &&& ~~~v) }
  if was ≠ was &&& ~~~v ∧ s.snapSel g.val then s.trace 2 6 (BitVec.ofNat 8 g.val :: wordBytes (was &&& ~~~v)) else s

/-- A summary word: the groups `lo` to `lo + n - 1` that assert the line (R477). -/
def State.evtSum (s : State) (one : Bool) (lo n : Nat) : W :=
  wn (bitsOf (fun k =>
    if h : lo + k < 48 then
      let g : Fin 48 := ⟨lo + k, h⟩
      (s.events.pend.get g &&& (if one then s.events.en1.get g else s.events.en0.get g)) != 0
    else false) n)

/-- A word of EVT_WROUTE: inputs 2j and 2j + 1 of a context, as routed (R475, R477). -/
def State.wroute (s : State) (e : Eng) (c : Fin 4) (j : Nat) : W :=
  let half (w : Nat) : Nat :=
    match (s.eng e).routes.find? fun r => r.ctx == c && r.input.val == w with
    | some r => 0x8000 * b2n r.on + r.src.val
    | none => 0
  wn (half (2 * j) + 2 ^ 16 * half (2 * j + 1))

end Sys2Proof.Machine
end

