-- ==== Sys2Proof/Machine/HostMap.lean ====
section
/-! DEFINITION. The host address map: its regions (R483) and what a read of each word returns and does (R486–R492 and the owning
chapters' register tables). -/
namespace Sys2Proof.Machine

/-- The regions of R483. -/
inductive Region where
  | ident | queue | load | events | almanac | nv | sextant | thermal | faults | twin | observe | masters | mirror | aperture | xip
deriving DecidableEq, Repr

/-- First address, end and name of each region. -/
def regions : List (Nat × Nat × Region) :=
  [(0x00000000, 0x00001000, .ident), (0x00001000, 0x00002000, .queue), (0x00010000, 0x00020000, .load),
   (0x00020000, 0x00024000, .events), (0x00024000, 0x00028000, .almanac), (0x00028000, 0x0002C000, .nv),
   (0x0002C000, 0x00030000, .sextant), (0x00030000, 0x00034000, .thermal), (0x00034000, 0x00038000, .faults),
   (0x00038000, 0x0003C000, .twin), (0x0003C000, 0x00040000, .observe), (0x00040000, 0x00050000, .masters),
   (0x00050000, 0x00150000, .mirror), (0x10000000, 0x20000000, .aperture), (0x20000000, 0x30000000, .xip)]

/-- The region of an address, none where it is unmapped (R484). -/
def regionOf (a : Nat) : Option Region := (regions.find? fun r => decide (r.1 ≤ a) && decide (a < r.2.1)).map fun r => r.2.2

/-! ### Status words -/

/-- Whether a cluster's clock runs: it is neither parked nor restarting, or a self-test of it or of one of its lanes has woken it (R458). -/
def State.clusterRuns (s : State) (k : Fin 12) : Bool :=
  let tests (u : Fin 182) : Bool := (s.unit u).st == 2
  if (s.cluster k).mhz = 0 then tests (uCluster k) || (allFin 96).any fun l => clusterOf l == k && tests (uLane l)
  else !(s.cluster k).stopped

/-- Whether island `i` has a running clock and is out of reset (R452, R469). -/
def State.islandRuns (s : State) (i : Nat) : Bool :=
  let out := !s.clocks.inReset.getLsbD i
  let up := s.boot.step != 0 && !s.thermal.held
  if h : i < 12 then out && s.clusterRuns ⟨i, h⟩
  else if i = 20 then true
  else if 13 ≤ i ∧ i < 17 then out && up
  else if i = 17 then out && s.clocks.gives 1 && (s.txs.get 0).line != 1
  else if i = 18 then out && s.clocks.gives 2 && (s.txs.get 1).line != 1
  else if i = 21 then out && s.clocks.gives 3
  else up && s.clocks.gives 0

/-- CLK_STATUS (R469). -/
def State.clkStatus (s : State) : W :=
  let c := s.clocks
  wn (b2n c.hold * 2 ^ 30 + b2n c.linkLk * 2 ^ 29 + b2n c.tx1Lk * 2 ^ 28 + b2n c.tx0Lk * 2 ^ 27 + b2n c.sysLk * 2 ^ 26 +
    b2n c.refOk * 2 ^ 25 + bitsOf s.islandRuns 23)

/-- BOOT_STATUS (R488). -/
def State.bootStatus (s : State) : W :=
  let b := s.boot
  wn (b.bootsel.toNat * 2 ^ 16 + b2n b.boot * 2 ^ 8 + b2n b.copy * 2 ^ 7 + b.code.toNat)

/-- The identity and status region (R486). -/
def State.identRead (s : State) (a : Nat) : W × State :=
  match a with
  | 0x00 => (idWord, s)
  | 0x04 => (s.bootStatus, s)
  | 0x08 => (s.serial64.extractLsb' 0 32, s.modNv fun n => { n with serialHi := s.serial64.extractLsb' 32 32 })
  | 0x0C => (s.nv.serialHi, s)
  | 0x10 => (s.statusByte.zeroExtend 32, s)
  | 0x14 => (s.clkStatus, s)
  | 0x18 => (wn s.nv.optime, s.modNv fun n => { n with optimeHi := pccWord n.pcc n.optime })
  | 0x1C => (s.nv.optimeHi, s)
  | 0x20 =>
    let t := if s.twinEn then s.agreed else s.nv.optime
    (wn t, s.modNv fun n => { n with agreedHi := wn (t / 2 ^ 32 % 256) })
  | 0x24 => (s.nv.agreedHi, s)
  | 0x40 => (s.agreedMer 0, s)
  | 0x44 => (s.agreedMer 1, s)
  | 0x48 => (s.agreedMer 2, s)
  | 0x4C => (s.agreedMer 3, s)
  | 0x80 => (s.scratch, s)
  | _ => (0, s)

/-- ENG_STATE (R81). -/
def State.engState (s : State) : W :=
  wn ((allFin 6).foldl (fun acc e => acc + (s.eng e).st.toNat * 2 ^ (4 * e.val)) 0)

/-- The queue and load registers (R81, R94, R107–R109). -/
def State.queueRead (s : State) (a : Nat) : W × State :=
  let q := s.queue
  if 0x1800 ≤ a ∧ a < 0x1C00 then (nthW (getN q.ring ((a - 0x1800) / 16) []) (a % 16 / 4), s)
  else match a with
    | 0x1410 => (wn (q.accepted.toNat * 2 ^ 16 + b2n (q.entries.length == 64) * 2 ^ 7 + q.entries.length), s)
    | 0x1414 => (q.pi.zeroExtend 32, s)
    | 0x1418 => (q.ci.zeroExtend 32, s)
    | 0x141C => (wn (b2n q.partialDiscard * 4 + b2n q.ciInvalid * 2 + b2n q.qfullReject), s)
    | 0x1C00 => (q.loadSel, s)
    | 0x1C08 => (wn (q.version.toNat * 2 ^ 16 + q.code.toNat * 2 ^ 8 + b2n q.ignored * 2 + b2n q.busy), s)
    | 0x1C0C => (s.engState, s)
    | _ => (0, s)

/-- The event matrix (R477). -/
def State.eventsRead (s : State) (a : Nat) : W × State :=
  let o := a - 0x20000
  if h : o < 0xC0 then (s.events.pend.get ⟨o / 4, by omega⟩, s)
  else if h : 0x100 ≤ o ∧ o < 0x1C0 then (s.events.en0.get ⟨(o - 0x100) / 4, by omega⟩, s)
  else if h : 0x200 ≤ o ∧ o < 0x2C0 then (s.events.en1.get ⟨(o - 0x200) / 4, by omega⟩, s)
  else if h : 0x300 ≤ o ∧ o < 0x3C0 then (s.events.ovr.get ⟨(o - 0x300) / 4, by omega⟩, s)
  else if o = 0x400 then (s.evtSum false 0 32, s)
  else if o = 0x404 then (s.evtSum false 32 16, s)
  else if o = 0x408 then (s.evtSum true 0 32, s)
  else if o = 0x40C then (s.evtSum true 32 16, s)
  else if h : 0x1000 ≤ o ∧ o < 0x1600 then
    let c : Fin 4 := ⟨o / 0x40 % 4, by omega⟩
    if o % 0x40 < 48 then (s.wroute ⟨(o - 0x1000) / 0x100, by omega⟩ c (o % 0x40 / 4), s) else (0, s)
  else (0, s)

/-- Boot has not read the NV device region yet: CLOSED and PINV still hold their reset values (R11, R443, R447; log entry 138). -/
def State.nvUnread (s : State) : Bool := s.boot.step == 0 || s.boot.step == 5

/-- The almanac registers (R431, R447). -/
def State.almanacRead (s : State) (a : Nat) : W × State :=
  let n := s.nv
  if 0x24000 ≤ a ∧ a < 0x24100 then s.almWin (a - 0x24000)
  else match a with
    | 0x24100 => (n.cursor, s)
    | 0x24104 => (wn (n.almEnd % 2 ^ 19), s)
    | 0x24108 => (wn (n.logEnd % 2 ^ 19), s)
    | 0x2410C => (n.lost, s)
    | 0x24110 =>
      (wn (n.dirty.length % 2 ^ 16 * 2 ^ 16 + b2n (s.nvUnread || !n.readOpen 0) * 8 + b2n n.lostMark * 4 + b2n n.flushing * 2 + b2n n.interrupted), s)
    | _ => (0, s)

/-- NV_STATUS (R447). -/
def State.nvStatus (s : State) : W :=
  let n := s.nv
  let opens := bitsOf (fun k =>
    let r : Fin 4 := ⟨k / 2 % 4, by omega⟩
    if k % 2 = 0 then n.readOpen r else n.writeOpen r) 8
  wn (b2n (!s.nvUnread && (n.newest (itemPage n.ppage.toNat)).isNone) * 2 ^ 16 + opens * 2 ^ 8 + (n.lockR ||| n.lockW).toNat * 2 ^ 4 + b2n n.ue * 8 +
    b2n n.ce * 4 + b2n (!n.writes.isEmpty || !n.sent.isEmpty))

/-- The NV registers (R436, R440, R447). -/
def State.nvRegRead (s : State) (a : Nat) : W × State :=
  let n := s.nv
  if 0x28000 ≤ a ∧ a < 0x28100 then s.nvWin (a - 0x28000)
  else if 0x28200 ≤ a ∧ a < 0x282F0 then s.pwin (a - 0x28200)
  else if 0x28300 ≤ a ∧ a < 0x28324 then (nthW (bytesWords ((n.itemRead itemSecurity).drop (a - 0x28300))) 0, s.itemCheck itemSecurity)
  else match a with
    | 0x28100 => (n.page.zeroExtend 32, s)
    | 0x28104 => (n.ppage.zeroExtend 32, s)
    | 0x28108 => (s.nvStatus, s)
    | 0x28130 => (n.ceN, s)
    | 0x28134 => (n.ueN, s)
    | 0x28138 => (n.pwbad, s)
    | _ => (0, s)

/-- The Sextant registers (R360). -/
def State.sextantRead (s : State) (a : Nat) : W × State :=
  let o := a - 0x2C000
  if o = 0 then
    (wn (bitsOf (fun m => bitOf (s.params.force.fld (0x1C0 + m) 0) 0) 8 * 2 ^ 16 +
      bitsOf (fun m => if h : m < 8 then (s.mod ⟨m, h⟩).pend.isSome else false) 8 * 2 ^ 8 +
      bitsOf (fun m => if h : m < 8 then (s.mod ⟨m, h⟩).cond != .idle || (s.mod ⟨m, h⟩).inGap else false) 8), s)
  else if o = 8 then (s.sextant.chkSkip, s)
  else if h : 0x100 ≤ o ∧ o < 0x200 then
    let m : Fin 8 := ⟨(o - 0x100) / 0x20, by omega⟩
    let x := s.mod m
    match o % 0x20 with
    | 0x00 => s.resLo m
    | 0x04 => (x.resHi, s)
    | 0x08 => s.accLo m
    | 0x0C => (x.accHi, s)
    | 0x10 => (x.overrun, s)
    | 0x14 => (x.ovf, s)
    | 0x18 => (x.lateN, s)
    | 0x1C => (wn x.fifo.length, s)
    | _ => (0, s)
  else if 0x800 ≤ o ∧ o < 0x1000 then
    let e := (o - 0x800) / 8
    if o % 8 = 0 then s.lastLo e else (getN s.sextant.lastHi e 0, s)
  else (0, s)

/-- Numbers of the broken sensors among a range (R394 TH_BROKEN). -/
def State.brokenCount (s : State) (lo hi : Nat) : Nat :=
  ((allFin 48).filter fun t => decide (lo ≤ t.val) && decide (t.val ≤ hi) && s.sensorVal t == 2).length

/-- TH_SENSOR (R394). -/
def State.thSensor (s : State) (t : Fin 48) : W :=
  let x := s.sensor t
  wn (b2n x.shutc * 2 ^ 23 + b2n x.thr * 2 ^ 22 + b2n x.wrn * 2 ^ 21 + b2n x.fast * 2 ^ 20 + s.sensorVal t * 2 ^ 18 + x.read.toNat)

/-- TH_STAGE (R394). -/
def State.thStage (s : State) : W :=
  let z (k : Fin 4) : Nat := (s.thermal.zones.get k).val
  let zs (f : Fin 4 → Bool) : Nat := bitsOf (fun k => if h : k < 4 then f ⟨k, h⟩ else false) 4
  wn (zs s.zoneBroken * 2 ^ 24 + zs s.zoneSuspect * 2 ^ 20 + z 3 * 2 ^ 17 + z 2 * 2 ^ 14 + z 1 * 2 ^ 11 + z 0 * 2 ^ 8 +
    s.deviceStage * 2 ^ 4 + s.deviceStage)

/-- The target that BLW_I shows (R368, R374): half of the pair's for each channel of a paralleled pair while its action runs; a test pulse is
each channel's own (R371). -/
def State.blwShown (s : State) (c : Fin 8) : Nat :=
  match s.pairOf c with
  | some k =>
    let l := s.blw k
    if l.st = 2 ∨ l.st = 3 ∨ l.st = 4 then (rndDiv (blwTarget l : Nat) 2).toNat else blwTarget (s.blw c)
  | none => blwTarget (s.blw c)

/-- The thermal, power and bellows registers (R374, R394). -/
def State.thermalRead (s : State) (a : Nat) : W × State :=
  let th := s.thermal
  if h : 0x30100 ≤ a ∧ a < 0x301C0 then (s.thSensor ⟨(a - 0x30100) / 4, by omega⟩, s)
  else if h : 0x30200 ≤ a ∧ a < 0x302C0 then
    let x := s.sensor ⟨(a - 0x30200) / 4, by omega⟩
    (wn (x.low.toNat * 2 ^ 16 + x.high.toNat), s)
  else if h : 0x33040 ≤ a ∧ a < 0x330C0 then
    let b := s.blw ⟨(a - 0x33040) / 16, by omega⟩
    (match a % 16 with
     | 0x0 => wn (b.measured.toNat + s.blwShown ⟨(a - 0x33040) / 16, by omega⟩ % 2 ^ 16 * 2 ^ 16)
     | 0x4 => b.actions
     | 0x8 => b.waits
     | _ => b.refused, s)
  else match a with
    | 0x30000 => (s.thStage, s)
    | 0x30010 => (wn (b2n th.pfail * 2 ^ 7 + b2n th.vact * 2 ^ 6 + b2n th.vio * 2 ^ 5 + th.rails.toNat), s)
    | 0x30014 => (th.vcore.zeroExtend 32, s)
    | 0x30018 => (wn (b2n th.refused * 2 ^ 8 + th.seq.toNat), s)
    | 0x3001C => (wn (s.brokenCount 40 43 * 2 ^ 12 + s.brokenCount 32 39 * 2 ^ 8 + s.brokenCount 0 31), s)
    | 0x33000 => (wn ((allFin 8).foldl (fun acc c => acc + (s.blw c).st.val * 2 ^ (4 * c.val)) 0), s)
    | 0x33004 =>
      let wait (k : Nat) : Bool := (allFin 8).any fun c => c.val / 2 == k && (s.blw c).req.isSome
      let on (k : Nat) : Bool := s.drives && (allFin 8).any fun c => c.val / 2 == k && blwActive (s.blw c)
      (wn (s.bellows.hsFault.toNat * 2 ^ 8 + bitsOf wait 4 * 2 ^ 4 + bitsOf on 4), s)
    | _ => (0, s)

/-- UNIT_STATE (R308). -/
def State.unitWord (s : State) (u : Fin 182) : W :=
  let x := s.unit u
  wn (x.total.toNat * 2 ^ 16 + min 8 (inWindow s.agreed x.times).length * 2 ^ 8 + x.st.toNat)

/-- A word of the retirement map in the host's view: the header, then the channel blocks (R309). -/
def State.rmapWord (s : State) (a : Nat) : W :=
  let m := s.fm.map
  if a < 0x3443C then nthW (rmapHead m) ((a - 0x34400) / 4)
  else if a < 0x34440 then nthW (rmapHeader m) 15
  else nthW (rmapBlock m ⟨(a - 0x35000) / 512 % 16, by omega⟩) (a % 512 / 4)

/-- The fault manager's and the store's registers (R256, R308). -/
def State.faultsRead (s : State) (a : Nat) : W × State :=
  let m := s.fm
  let t := s.store
  if h : 0x34100 ≤ a ∧ a < 0x343D8 then (s.unitWord ⟨(a - 0x34100) / 4, by omega⟩, s)
  else if (0x34400 ≤ a ∧ a < 0x34440) ∨ (0x35000 ≤ a ∧ a < 0x37000) then (s.rmapWord a, s)
  else match a with
    | 0x34000 => (wn (m.forced.toNat * 2 ^ 10 + b2n m.floor * 2 ^ 9 + b2n m.clearPend * 2 ^ 8 + b2n m.fault), s)
    | 0x34008 => (m.last, s)
    | 0x3400C => (wn (m.lastMer.toNat * 2 ^ 16 + m.lastCause.toNat * 2 ^ 8 + m.lastOut.toNat), s)
    | 0x34010 => (m.transient, s)
    | 0x34014 => (m.permanent, s)
    | 0x34018 => (m.ext, s)
    | 0x3401C => (m.program, s)
    | 0x34020 => (m.patch, s)
    | 0x34024 => (m.noretry, s)
    | 0x34028 => (m.evict, s)
    | 0x37000 => (t.page.zeroExtend 32, s)
    | 0x37004 =>
      (wn ((if t.ch15 then t.retch.val else 0) * 2 ^ 12 + b2n t.ch15 * 2 ^ 11 + b2n t.mig * 2 ^ 10 + b2n t.fail2 * 2 ^ 9 +
        b2n t.poisonRd * 2 ^ 8 + t.refRate.toNat), s)
    | 0x37008 => (wn (if t.mig then t.migNext else 0), s)
    | 0x37010 => (t.ce.extractLsb' 0 32, s.modStore fun x => { x with ceHi := x.ce.extractLsb' 32 32 })
    | 0x37014 => (t.ceHi, s)
    | 0x37018 => (t.ue, s)
    | 0x3701C => (t.poisonAddr &&& 0xFFFFFFF8, s)
    | 0x37020 =>
      let banks := ((allFin 16).map fun c => (retiredBanks (m.map.banks.get c)).length).foldl (· + ·) 0
      let rows := ((allFin 16).map fun c => (m.map.rows.get c).length + bankSpares (m.map.rows.get c) (m.map.banks.get c)).foldl (· + ·) 0
      (wn (banks % 256 * 2 ^ 16 + rows % 2 ^ 16), s)
    | 0x37024 => (t.passes, s)
    | _ => (0, s)

/-- The twin registers (R339). -/
def State.twinRead (s : State) (a : Nat) : W × State :=
  let t := s.twin
  match a with
  | 0x38000 =>
    (wn (t.lock.toNat * 2 ^ 16 + b2n s.peerOwner * 2 ^ 11 + b2n t.owner * 2 ^ 10 + b2n t.prime * 2 ^ 9 +
      b2n t.strap * 2 ^ 8 + t.st.val), s)
  | 0x38004 => (wn (t.sweepRow % 2 ^ 12 * 2 ^ 16 + t.sweepPort.val * 2 ^ 12 + b2n t.sweep), s)
  | 0x38008 => (t.peerSn.extractLsb' 0 32, s.modTwin fun t => { t with peerSnHi := t.peerSn.extractLsb' 32 32 })
  | 0x3800C => (t.peerSnHi, s)
  | 0x38020 => (t.mismatch, s)
  | 0x38024 => (t.tileResync, s)
  | 0x38028 => (t.bulk, s)
  | 0x3802C => (t.takeovers, s)
  | 0x38030 => (t.yields, s)
  | 0x38034 => (t.outsteps, s)
  | 0x38038 => (t.diverge, s)
  | 0x3803C => (t.retx, s)
  | 0x38040 => (t.crcerr, s)
  | _ => (0, s)

/-- Observation counters and the Laeno registers (R478, R482). -/
def State.observeRead (s : State) (a : Nat) : W × State :=
  let e := s.events
  if 0x3C000 ≤ a ∧ a < 0x3D000 then
    let i := (a - 0x3C000) / 8
    if a % 8 = 0 then
      ((s.counter i).extractLsb' 0 32, s.modEvents fun e => { e with countHi := insertN e.countHi i ((s.counter i).extractLsb' 32 32) })
    else (getN e.countHi i 0, s)
  else match a with
    | 0x3D000 => (e.ctl, s)
    | 0x3D004 => (e.snapLo, s)
    | 0x3D008 => (e.snapHi, s)
    | 0x3D00C => (e.csamp, s)
    | 0x3D010 => (e.drop, s)
    | _ => (0, s)

/-- The serial-port registers (R420). -/
def State.mastersRead (s : State) (a : Nat) : W × State :=
  let x := s.serial
  if 0x41100 ≤ a ∧ a < 0x41200 then (Mem.word x.hbuf (a - 0x41100), s)
  else match a with
    | 0x40000 => (x.lastRej.zeroExtend 32, s)
    | 0x40004 => (x.rejs, s)
    | 0x40008 => (x.timeouts, s)
    | 0x41000 => (x.cfg, s)
    | 0x41004 => (x.rdcmd, s)
    | 0x41008 => (x.wcmd, s)
    | 0x41010 => (x.hcmd, s)
    | 0x41014 => (x.haddr, s)
    | 0x4101C => (wn (b2n x.hbusy * 2 ^ 8 + x.hcode.toNat), s)
    | 0x41020 => (x.fills, s)
    | 0x41024 => (x.pollto, s)
    | 0x42000 => (x.swPend.getD x.swsel, s)
    | 0x42004 => (x.gpio.zeroExtend 32, s)
    | 0x42010 => (x.deferN, s)
    | 0x42014 => (x.rdyto, s)
    | 0x42018 => (x.refusedN, s)
    | _ => (0, s)

/-- A read of the word at a host address with its side effects (R404, R485); none: the word waits for a line fill (R408). -/
def State.hostWord (s : State) (a : Nat) : Option W × State :=
  let some' (r : W × State) : Option W × State := (some r.1, r.2)
  match regionOf a with
  | none => (some 0, s)
  | some .ident => some' (s.identRead a)
  | some .queue => some' (s.queueRead a)
  | some .load => some' (s.loadGet (a - 0x10000))
  | some .events => some' (s.eventsRead a)
  | some .almanac => some' (s.almanacRead a)
  | some .nv => some' (s.nvRegRead a)
  | some .sextant => some' (s.sextantRead a)
  | some .thermal => some' (s.thermalRead a)
  | some .faults => some' (s.faultsRead a)
  | some .twin => some' (s.twinRead a)
  | some .observe => some' (s.observeRead a)
  | some .masters => some' (s.mastersRead a)
  | some .mirror => (some (s.force ((a - 0x50000) / 0x400) (a % 0x400 / 4)), s)
  | some .aperture => some' (s.apertureGet (s.apertureAddr a))
  | some .xip => s.xipWord a

end Sys2Proof.Machine
end

