-- ==== Sys2Proof/Machine/QueueCmds.lean ====
section
/-! DEFINITION. The host command queue and the completion ring (R106–R111). -/
namespace Sys2Proof.Machine

/-- Cuts data words into entries of four. -/
def entriesOf : List W → List (List W)
  | a :: b :: c :: d :: r => [a, b, c, d] :: entriesOf r
  | _ => []

/-- Entries of submit frames that are admitted and not yet applied (R403). -/
def State.bufferedEntries (s : State) : Nat :=
  ((s.serial.bufs.filter fun f => decide (0x1400 ≤ f.1.toNat ∧ f.1.toNat < 0x1410)).map fun f => f.2.length / 4).foldl (· + ·) 0

/-- The rejection cause of a submit frame, if any (R107): a data phase that is no multiple of 16 bytes, or more entries than are free, as any
frame of more than 64 has. -/
def State.submitCause (s : State) (ws : List W) : Option Bool :=
  if ws.length % 4 ≠ 0 then some false
  else if 64 < s.queue.entries.length + s.bufferedEntries + ws.length / 4 then some true
  else none

/-- Entries join the queue in the order sent (R107). -/
def State.submitPut (s : State) (ws : List W) : State :=
  s.modQueue fun q =>
    { q with entries := q.entries ++ entriesOf ws, accepted := q.accepted + BitVec.ofNat 16 (ws.length / 4) }

/-- The oldest entry feeds CE channel 15 one word as it has room (R107). -/
def execCmdEntryDeliver (s : State) : Out :=
  if s.thermal.held then .next s
  else match s.queue.entries with
    | e :: _ =>
      if s.queue.given < 4 ∧ s.chanRoom engCE 15 then
        .next ((s.chanPut engCE 15 (nthW e s.queue.given)).modQueue fun q => { q with given := q.given + 1 })
      else .next s
    | [] => .next s

/-- Whether the ring is full (R108). -/
def Queue.ringFull (q : Queue) : Bool := (q.pi - q.ci).toNat == 64

/-- The oldest assembled completion enters the ring (R108): PI advances, source 0 of the serial-port group. -/
def execCompletionPlace (s : State) : Out :=
  if s.thermal.held then .next s
  else match s.queue.waiting with
    | e :: r =>
      if s.queue.ringFull then .next s
      else
        .next (((s.modQueue fun q =>
          { q with waiting := r, ring := insertN q.ring (q.pi.toNat % 64) e, pi := q.pi + 1 }).occur (srcSerial 0)).stopSettle
            engCE)
    | [] => .next s

/-- A write of CPL_CI (R110): only forward, by no more than the unread entries. -/
def State.cplCi (s : State) (v : W) : State :=
  let n : BitVec 7 := BitVec.ofNat 7 (fld v 6 0)
  if (n - s.queue.ci).toNat ≤ (s.queue.pi - s.queue.ci).toNat then s.modQueue fun q => { q with ci := n }
  else s.modQueue fun q => { q with ciInvalid := true }

end Sys2Proof.Machine
end

