-- ==== Sys2Proof/Machine/HostPort.lean ====
section
/-! DEFINITION. The host command port: judging, buffering and applying write frames (R402, R403), read frames (R404, R490), and the
commands that a host frame carries. -/
namespace Sys2Proof.Machine

/-! ### Words and windows -/

/-- The addresses of a frame's words. -/
def wordAddrs (a n : Nat) : List Nat := (List.range n).map fun i => a + 4 * i

/-- The windows whose frames wrap: CMD_SUBMIT, NV_WIN, NV_PWIN (R107, R436, R440). -/
def inSubmit (a : Nat) : Bool := 0x1400 ≤ a && a < 0x1410
def inNvWin (a : Nat) : Bool := 0x28000 ≤ a && a < 0x28100
def inNvPwin (a : Nat) : Bool := 0x28200 ≤ a && a < 0x282F0

/-- Whether a word to the NV region is one that its chapter rejects (R438, R440, R447). -/
def State.nvWordBad (s : State) (addr n a : Nat) (w : W) : Bool :=
  (0x28110 ≤ a && a < 0x2811C && !(addr == 0x28110 && n == 3)) ||
  (0x28120 ≤ a && a < 0x2812C && !(addr == 0x28120 && n == 3)) ||
  (a == 0x28100 && decide (767 < w.toNat)) ||
  (0x28300 ≤ a && a < 0x28324 && !s.nv.writeOpen 3) ||
  (inNvPwin a && !s.nv.writeOpen 2)

/-! ### Applying (R403) -/

/-- A write of LOAD_CTL (R94). -/
def State.loadCtl (s : State) (v : W) : State :=
  let code : Fin 16 := ⟨fld v 3 0 % 16, by omega⟩
  match fld v 7 4 with
  | 1 => s.loadGo
  | 2 => s.startReq code
  | 3 => s.stopReq code
  | 4 => s.abortReq code
  | _ => s

/-- One word written at a host address: read-only and reserved words ignore it (R485). -/
def State.hostSet (s : State) (a : Nat) (w : W) : State :=
  match regionOf a with
  | some .ident => if a = 0x80 then { s with scratch := w } else s
  | some .queue =>
    (match a with
     | 0x1418 => s.cplCi w
     | 0x141C => s.modQueue fun q =>
        { q with qfullReject := q.qfullReject && !bitOf w 0, ciInvalid := q.ciInvalid && !bitOf w 1,
                 partialDiscard := q.partialDiscard && !bitOf w 2 }
     | 0x1C00 => s.modQueue fun q => { q with loadSel := w &&& 0xFF3F }
     | 0x1C04 => s.loadCtl w
     | 0x1C08 => s.modQueue fun q => { q with ignored := q.ignored && !bitOf w 1 }
     | _ => s)

  | some .events =>
    let o := a - 0x20000
    if h : o < 0xC0 then s.evtClear ⟨o / 4, by omega⟩ w
    else if h : 0x100 ≤ o ∧ o < 0x1C0 then s.modEvents fun e => { e with en0 := upd e.en0 ⟨(o - 0x100) / 4, by omega⟩ fun _ => w }
    else if h : 0x200 ≤ o ∧ o < 0x2C0 then s.modEvents fun e => { e with en1 := upd e.en1 ⟨(o - 0x200) / 4, by omega⟩ fun _ => w }
    else if h : 0x300 ≤ o ∧ o < 0x3C0 then s.modEvents fun e => { e with ovr := upd e.ovr ⟨(o - 0x300) / 4, by omega⟩ (· &&& ~~~w) }
    else s
  | some .almanac =>
    (match a with
     | 0x24100 => s.modNv fun n => { n with cursor := w &&& 0x0007FFFC }
     | 0x24110 => s.modNv fun n => { n with interrupted := n.interrupted && !bitOf w 0 }
     | 0x24114 => if bitOf w 0 then s.flush else s
     | 0x24118 => if w = 0xC1EAA100 ∧ s.nv.writeOpen 0 then s.almClear else s
     | _ => s)
  | some .nv =>
    if inNvPwin a then s.pwinPut (a - 0x28200) [w]
    else if 0x28300 ≤ a ∧ a < 0x28324 then s.secPut (a - 0x28300) w
    else
      (match a with
       | 0x28100 => s.modNv fun n => { n with page := BitVec.ofNat 10 (fld w 9 0) }
       | 0x28104 => s.modNv fun n => { n with ppage := BitVec.ofNat 6 (fld w 5 0) }
       | 0x28108 => s.modNv fun n => { n with ue := n.ue && !bitOf w 3, ce := n.ce && !bitOf w 2 }
       | 0x2811C => s.nvLock w
       | _ => s)
  | some .sextant => if a = 0x2C004 then s.accClr w else s
  | some .thermal =>
    (match a with
     | 0x30018 => s.modThermal fun t => { t with refused := t.refused && !bitOf w 8 }
     | 0x33004 => { s with bellows := { s.bellows with hsFault := s.bellows.hsFault &&& ~~~(BitVec.ofNat 4 (fld w 11 8)) } }
     | _ => s)
  | some .faults =>
    (match a with
     | 0x34000 => s.modFm fun m => { m with fault := m.fault && !bitOf w 0 }
     | 0x34030 => s.mapClear w
     | 0x37000 => s.modStore fun t => { t with page := BitVec.ofNat 4 (fld w 3 0) }
     | 0x37004 => s.modStore fun t => { t with poisonRd := t.poisonRd && !bitOf w 8 }
     | _ => s)
  | some .observe =>
    (match a with
     | 0x3D000 => s.laenoCtl w
     | 0x3D004 => s.modEvents fun e => { e with snapLo := w }
     | 0x3D008 => s.modEvents fun e => { e with snapHi := w &&& 0xFFFF }
     | 0x3D00C => s.modEvents fun e => { e with csamp := w }
     | _ => s)
  | some .masters =>
    if 0x41100 ≤ a ∧ a < 0x41200 then s.modSerial fun x => { x with hbuf := Mem.setWord x.hbuf (a - 0x41100) w }
    else
      (match a with
       | 0x41000 => s.cfgWrite w
       | 0x41004 => s.rdcmdWrite w
       | 0x41008 => s.modSerial fun x => { x with wcmd := w &&& 0x000FFFFF }
       | 0x41010 => s.modSerial fun x => { x with hcmd := w &&& 0x1F1FFFFF }
       | 0x41014 => s.modSerial fun x => { x with haddr := w }
       | 0x41018 => s.hgo w
       | 0x42000 => s.swWrite w
       | _ => s)
  | _ => s

/-- Words applied one by one in ascending address order (R403). -/
def State.hostSets : Nat → List W → State → State
  | _, [], s => s
  | a, w :: r, s => State.hostSets (a + 4) r (s.hostSet a w)

/-- An admitted frame is applied. -/
def State.hostApply (s : State) (addr : Nat) (ws : List W) : State :=
  if inSubmit addr then s.submitPut ws
  else if inNvWin addr then s.winPut (addr - 0x28000) ws
  else if inNvPwin addr then s.pwinPut (addr - 0x28200) ws
  else if addr = 0x28110 then s.unlock ws
  else if addr = 0x28120 then s.pwset ws
  else if regionOf addr = some .aperture then s.aperturePut addr ws
  else if regionOf addr = some .load then s.loadPuts (addr - 0x10000) ws
  else State.hostSets addr ws s

/-- Whether an admitted frame has to wait: a page write of an earlier frame is busy (R436). -/
def State.hostBlocked (s : State) (addr : Nat) : Bool := (inNvWin addr || inNvPwin addr) && s.nvBusy

/-- The oldest buffered frame is applied, if it need not wait; a host NV write is refused once a power-fail has begun (R392). -/
def State.hostApplyOne (s : State) : State :=
  match s.serial.bufs with
  | [] => s
  | f :: r =>
    if s.hostBlocked f.1.toNat then s
    else
      let s := s.modSerial fun x => { x with bufs := r }
      if (inNvWin f.1.toNat || inNvPwin f.1.toNat) && s.thermal.pfStep != 0 then s else s.hostApply f.1.toNat f.2

/-- Every buffered frame that can be applied is applied. -/
def State.hostDrain (s : State) : State := (List.range s.serial.bufs.length).foldl (fun t _ => t.hostApplyOne) s

/-! ### Judging (R402, R403) -/

/-- Whether the owning chapter rejects a frame (cause 0x07): R96, R107, R255, R420, R436, R438, R440, R441, R447, R484. -/
def State.ownerRejects (s : State) (addr : Nat) (ws : List W) : Bool :=
  let n := ws.length
  match regionOf addr with
  | some .queue => inSubmit addr && (s.submitCause ws).isSome
  | some .load => !s.loadAdmits
  | some .aperture => !s.apertureAdmits addr (4 * n)
  | some .xip => true
  | some .nv =>
    if inNvWin addr then
      let q := s.nv.page.toNat
      !s.nv.writeOpen (pageRegion q) || decide (640 ≤ q) || s.thermal.pfStep != 0
    else if inNvPwin addr then !s.nv.writeOpen 2
    else ((wordAddrs addr n).zip ws).any fun x => s.nvWordBad addr n x.1 x.2
  | some .masters =>
    ((wordAddrs addr n).zip ws).any fun x => x.1 == 0x41018 && (s.serial.hbusy || decide (256 < fld x.2 8 0))
  | _ => false

/-- What a frame is judged by: the aperture page, and the selections and accesses of the NV store, as they will stand when every buffered
frame has been applied (R254, R436; log entry 182). -/
def State.ahead (s : State) : State :=
  s.serial.bufs.foldl (fun t f =>
    let a := f.1.toNat
    if regionOf a = some .faults ∧ a ≤ 0x37000 ∧ 0x37000 < a + 4 * f.2.length then
      t.modStore fun x => { x with page := BitVec.ofNat 4 (fld (nthW f.2 ((0x37000 - a) / 4)) 3 0) }
    else if regionOf a = some .nv && !inNvWin a && !inNvPwin a then t.hostApply a f.2
    else t) s

/-- The cause of a write frame's rejection, the lowest-numbered of those that hold (R402, R420); none: it is admitted. -/
def State.writeCause (s : State) (addr : Nat) (ws : List W) (cut : Cut) : Option Byte :=
  let reg := regionOf addr
  let wraps := inSubmit addr || inNvWin addr || inNvPwin addr
  if cut = .address then some 2
  else if ws = [] ∧ cut = .whole then none
  else if addr % 4 ≠ 0 then some 3
  else if cut = .word then some 4
  else if 1024 < ws.length then some 5
  else if reg.isNone ∨ (!wraps && (wordAddrs addr ws.length).any fun a => regionOf a != reg) then some 6
  else if s.ahead.ownerRejects addr ws then some 7
  else if !s.hostReady then some 8
  else none

/-! ### Write frames -/

/-- A frame is judged at its select release and admitted into a buffer, or rejected whole (R402, R403); a submit frame that lacks
entries sets QFULL_REJECT and raises source 3 (R107). -/
def State.hostJudge (s : State) (addr : Nat) (ws : List W) (cut : Cut) : State :=
  match s.writeCause addr ws cut with
  | some c =>
    let t := s.hostReject c
    if c = 7 ∧ inSubmit addr ∧ s.submitCause ws = some true then
      (t.modQueue fun q => { q with qfullReject := true }).occur (srcSerial 3)
    else t
  | none => if ws = [] then s.hostAdmit else s.hostAdmit.modSerial fun x => { x with bufs := x.bufs ++ [(wn addr, ws)] }

/-- A write frame's data go into a buffer and are judged; with both buffers occupied HRDY holds them back (R401). -/
def State.hostTake (s : State) (addr : W) (ws : List W) (cut : Cut) : State :=
  if 2 ≤ s.serial.bufs.length && !ws.isEmpty && cut != .address then s.modSerial fun x => { x with frameWait := some (addr, ws, cut) }
  else s.hostJudge addr.toNat ws cut

/-- A write frame that HRDY held back goes on once a buffer is free. -/
def State.frameGo (s : State) : State :=
  match s.serial.frameWait with
  | some f => if 2 ≤ s.serial.bufs.length then s else (s.modSerial fun x => { x with frameWait := none }).hostTake f.1 f.2.1 f.2.2
  | none => s

/-- A write frame whose words wait in a buffer; with both buffers occupied the older frame is applied first, if it can be. -/
def State.hostFrame (s : State) (addr : W) (ws : List W) (cut : Cut) : State :=
  if !s.hostUp then s
  else
    let s := s.hostBegin
    let s := if 2 ≤ s.serial.bufs.length then s.hostApplyOne else s
    s.hostTake addr ws cut

/-- A write frame that is applied at once, every earlier frame before it. -/
def State.hostWrite (s : State) (addr : Nat) (ws : List W) : State :=
  if !s.hostUp then s else (s.hostBegin.hostDrain.hostTake (wn addr) ws .whole).hostDrain

/-! ### Read frames (R402, R404, R490) -/

/-- Words are sampled in ascending address order, until one has to wait for a line fill (R401, R408). -/
def State.readWords : List Nat → State → State
  | [], s => s.modSerial fun x => { x with xipWait := [] }
  | a :: r, s =>
    match s.hostWord a with
    | (some v, t) => State.readWords r (t.modSerial fun x => { x with wordsOut := x.wordsOut ++ [v] })
    | (none, t) => t.modSerial fun x => { x with xipWait := a :: r }

/-- A word returned without a sample: 0. A word beyond the first word's region is put at this unmapped address (R402). -/
def noWord : Nat := 2 ^ 32

/-- Waiting words of a read frame go on once every earlier write frame has been applied (R403); after the last of them it is judged. -/
def State.readGo (s : State) : State :=
  let s := if s.serial.bufs.isEmpty && !s.serial.xipWait.isEmpty then State.readWords s.serial.xipWait s else s
  if s.serial.xipWait.isEmpty then s.readClose else s

/-- The cause of a read frame's rejection, the lowest-numbered that holds (R402, R484). -/
def State.readCause (s : State) (addr n : Nat) (cut : Cut) : Option Byte :=
  if cut = .address then some 2
  else if addr % 4 ≠ 0 then some 3
  else if cut = .word then some 4
  else if (regionOf addr).isSome ∧ (wordAddrs addr n).any (fun a => regionOf a != regionOf addr) then some 6
  else if !s.hostReady then some 8
  else none

/-- The words that a read frame asks for: 0 for a frame at no multiple of 4, for words beyond the region, and, ID apart (R487), while
READY is 0. -/
def State.readAddrs (s : State) (addr n : Nat) : List Nat :=
  (wordAddrs addr n).map fun a =>
    if addr % 4 ≠ 0 ∨ regionOf a ≠ regionOf addr then noWord
    else if !s.hostReady ∧ a ≠ 0 then noWord
    else a

/-- A read frame of `n` whole words; a word cut short has no side effect. -/
def State.hostRead (s : State) (addr n : Nat) (cut : Cut) : State :=
  if !s.hostUp then s
  else
    let s := s.hostBegin.hostDrain
    let ws := if cut = .address then [] else s.readAddrs addr n
    (s.modSerial fun x => { x with xipWait := ws, readEnd := some (s.readCause addr n cut) }).readGo

/-- The level of HRDY (R401): low while a word of a read waits, and while both write buffers are occupied. -/
def State.hrdy (s : State) : Bool := s.serial.xipWait.isEmpty && decide (s.serial.bufs.length < 2)

/-! ### The frame commands (R398) -/

/-- The frame types of R398: write and read, in single and in quad mode, and status. -/
inductive HostFrameType where
  | write (quad : Bool)
  | read (quad : Bool)
  | status
deriving DecidableEq, Repr

/-- The frame type that a command byte names (R398). -/
def frameTypeOf (c : Byte) : Option HostFrameType :=
  if c = 0x02 then some (.write false) else if c = 0x0B then some (.read false) else if c = 0x32 then some (.write true)
  else if c = 0xEB then some (.read true) else if c = 0x05 then some .status else none

/-- A status frame (R398, R400): the status byte is repeated, sampled again at each repeat. -/
def State.hostStatus (s : State) (n : Nat) : State :=
  if !s.hostUp then s
  else
    let t := s.hostBegin
    t.hostAdmit.modSerial fun x => { x with wordsOut := List.replicate n (t.serial.statusOut.zeroExtend 32) }

/-- A host frame by its command byte (R398): `ws` the words written, `n` the words or bytes read; an unknown byte is rejected with cause
0x01 (R402). -/
def State.hostByte (s : State) (c : Byte) (addr : W) (ws : List W) (n : Nat) (cut : Cut) : State :=
  match frameTypeOf c with
  | some (.write _) => s.hostFrame addr ws cut
  | some (.read _) => s.hostRead addr.toNat n cut
  | some .status => s.hostStatus n
  | none => if !s.hostUp then s else s.hostBegin.hostReject 1

/-- HOST_WRITE_SINGLE (R398, R403). -/
def execHostWriteSingle (addr : W) (ws : List W) (cut : Cut) (s : State) : Out := .next (s.hostByte 0x02 addr ws 0 cut)

/-- HOST_WRITE_QUAD (R398, R403). -/
def execHostWriteQuad (addr : W) (ws : List W) (cut : Cut) (s : State) : Out := .next (s.hostByte 0x32 addr ws 0 cut)

/-- HOST_READ_SINGLE (R398, R490). -/
def execHostReadSingle (addr : W) (n : Nat) (cut : Cut) (s : State) : Out := .next (s.hostByte 0x0B addr [] n cut)

/-- HOST_READ_QUAD (R398, R490). -/
def execHostReadQuad (addr : W) (n : Nat) (cut : Cut) (s : State) : Out := .next (s.hostByte 0xEB addr [] n cut)

/-- HOST_STATUS (R398, R400). -/
def execHostStatus (n : Nat) (s : State) : Out := .next (s.hostByte 0x05 0 [] n .whole)

/-- HOST_UNKNOWN_COMMAND (R398, R402): a byte of R398's is no such command. -/
def execHostUnknownCommand (cmd : Byte) (s : State) : Out :=
  if (frameTypeOf cmd).isSome then .next s else .next (s.hostByte cmd 0 [] 0 .whole)

/-- HOST_WRITE_APPLY (R403): the oldest admitted frame is applied, and a frame that waited behind it goes on. -/
def execHostWriteApply (s : State) : Out := if s.thermal.held then .next s else .next s.hostApplyOne.frameGo.readGo

/-- HRDY_TIMEOUT (R401): the waiting word returns ones, the frame is rejected; source 2, and source 7 for a fill. -/
def execHrdyTimeout (s : State) : Out :=
  match s.serial.xipWait with
  | [] => .next s
  | a :: r =>
    if s.thermal.held then .next s
    else
      let t := (s.modSerial fun x =>
        { x with timeouts := satAdd x.timeouts 1, wordsOut := x.wordsOut ++ [0xFFFFFFFF], xipWait := r }).occur (srcSerial 2)
      let t := if regionOf a = some .xip then t.occur (srcSerial 7) else t
      .next (t.readFail 9).readGo

/-- MP0_COMMAND_DONE (R409, R411): a fill, a ring piece or the host command ends, `bs` read from the flash. -/
def execMp0CommandDone (bs : List Byte) (s : State) : Out :=
  if s.thermal.held ∨ s.serial.mp0.isNone then .next s else .next (s.mp0End bs).swTake.readGo

/-! ### Commands that are one write frame of their own -/

/-- GO (R94). -/
def execGo (s : State) : Out := .next (s.hostWrite 0x1C04 [0x10])
/-- START_ENGINE (R82, R94). -/
def execStartEngine (code : Fin 16) (s : State) : Out := .next (s.hostWrite 0x1C04 [wn (0x20 + code.val)])
/-- STOP_ENGINE (R83, R94). -/
def execStopEngine (code : Fin 16) (s : State) : Out := .next (s.hostWrite 0x1C04 [wn (0x30 + code.val)])
/-- ABORT_STOP (R83, R94). -/
def execAbortStop (code : Fin 16) (s : State) : Out := .next (s.hostWrite 0x1C04 [wn (0x40 + code.val)])
/-- LOAD_WINDOW_WRITE (R96, R402): a frame at a byte offset of the load window. -/
def execLoadWindowWrite (off : BitVec 16) (ws : List W) (s : State) : Out := .next (s.hostWrite (0x10000 + off.toNat) ws)
/-- CMD_SUBMIT (R107). -/
def execCmdSubmit (addr : W) (ws : List W) (s : State) : Out := .next (s.hostWrite (0x1400 + addr.toNat % 16) ws)
/-- CPL_CI_WRITE (R110). -/
def execCplCiWrite (v : W) (s : State) : Out := .next (s.hostWrite 0x1418 [v])
/-- FM_MAP_CLEAR (R307). -/
def execFmMapClear (v : W) (s : State) : Out := .next (s.hostWrite 0x34030 [v])
/-- SX_ACC_CLR (R354). -/
def execSxAccClr (v : W) (s : State) : Out := .next (s.hostWrite 0x2C004 [v])
/-- APERTURE_WRITE (R254, R255): a frame at an address of the aperture. -/
def execApertureWrite (addr : W) (ws : List W) (s : State) : Out := .next (s.hostWrite (0x10000000 + addr.toNat % 2 ^ 28) ws)
/-- MP0_HGO (R420). -/
def execMp0Hgo (v : W) (s : State) : Out := .next (s.hostWrite 0x41018 [v])
/-- MP0_CFG_WRITE (R408): MP0_CFG, or MP0_RDCMD. -/
def execMp0CfgWrite (rdcmd : Bool) (v : W) (s : State) : Out := .next (s.hostWrite (if rdcmd then 0x41004 else 0x41000) [v])
/-- MP_SWSEL (R419). -/
def execMpSwsel (v : W) (s : State) : Out := .next (s.hostWrite 0x42000 [v])
/-- FLUSH (R429). -/
def execFlush (s : State) : Out := .next (s.hostWrite 0x24114 [1])
/-- ALM_CLEAR (R433). -/
def execAlmClear (v : W) (s : State) : Out := .next (s.hostWrite 0x24118 [v])
/-- NV_WIN_WRITE (R436). -/
def execNvWinWrite (off : BitVec 8) (ws : List W) (s : State) : Out := .next (s.hostWrite (0x28000 + off.toNat) ws)
/-- NV_PWIN_WRITE (R440): a frame at an offset of the 240-byte window. -/
def execNvPwinWrite (off : BitVec 8) (ws : List W) (s : State) : Out := .next (s.hostWrite (0x28200 + off.toNat % 240) ws)
/-- NV_UNLOCK (R438). -/
def execNvUnlock (ws : List W) (s : State) : Out := .next (s.hostWrite 0x28110 ws)
/-- NV_LOCK (R447). -/
def execNvLock (v : W) (s : State) : Out := .next (s.hostWrite 0x2811C [v])
/-- NV_PWSET (R438). -/
def execNvPwset (ws : List W) (s : State) : Out := .next (s.hostWrite 0x28120 ws)
/-- NV_SEC_WRITE (R441, R447): a frame at an offset of NV_SEC. -/
def execNvSecWrite (off : BitVec 8) (ws : List W) (s : State) : Out := .next (s.hostWrite (0x28300 + off.toNat % 36) ws)
/-- LAENO_CTL_WRITE (R482). -/
def execLaenoCtlWrite (v : W) (s : State) : Out := .next (s.hostWrite 0x3D000 [v])

/-! ### Commands that are one read frame of their own -/

/-- APERTURE_READ (R254): `n` words from an address of the aperture. -/
def execApertureRead (addr : W) (n : Nat) (s : State) : Out := .next (s.hostRead (0x10000000 + addr.toNat % 2 ^ 28) n .whole)
/-- ALM_WIN_LAST_READ (R431). -/
def execAlmWinLastRead (s : State) : Out := .next (s.hostRead 0x240FC 1 .whole)
/-- RES_LO_READ (R360). -/
def execResLoRead (m : Fin 8) (s : State) : Out := .next (s.hostRead (0x2C100 + 0x20 * m.val) 1 .whole)
/-- ACC_LO_READ (R354, R360). -/
def execAccLoRead (m : Fin 8) (s : State) : Out := .next (s.hostRead (0x2C108 + 0x20 * m.val) 1 .whole)
/-- LAST_LO_READ (R360). -/
def execLastLoRead (e : BitVec 8) (s : State) : Out := .next (s.hostRead (0x2C800 + 8 * e.toNat) 1 .whole)
/-- COUNTER_LO_READ (R478, R491). -/
def execCounterLoRead (i : Fin 512) (s : State) : Out := .next (s.hostRead (0x3C000 + 8 * i.val) 1 .whole)
/-- STK_CE_LO_READ (R256). -/
def execStkCeLoRead (s : State) : Out := .next (s.hostRead 0x37010 1 .whole)
/-- TWIN_PEER_SN_LO_READ (R339). -/
def execTwinPeerSnLoRead (s : State) : Out := .next (s.hostRead 0x38008 1 .whole)
/-- SERIAL_LO_READ (R486). -/
def execSerialLoRead (s : State) : Out := .next (s.hostRead 0x08 1 .whole)
/-- OPTIME_LO_READ (R486). -/
def execOptimeLoRead (s : State) : Out := .next (s.hostRead 0x18 1 .whole)
/-- AGREED_LO_READ (R486). -/
def execAgreedLoRead (s : State) : Out := .next (s.hostRead 0x20 1 .whole)

end Sys2Proof.Machine
end

