-- ==== Sys2Proof/Machine/Outputs.lean ====
section
/-! DEFINITION. The chimney outputs: starting a stream frame, producing its lines through taps, scaler and formats, sending packets,
ULPS (R261–R280). -/
namespace Sys2Proof.Machine

/-! ### The scaler (R262) -/

/-- The inputs that output `j` of `m` reads from `n`, each with its weight, and the common divisor. -/
def scaleTaps (n m j : Nat) : List (Nat × Nat) × Nat :=
  if m ≤ n then
    let lo := j * n
    let hi := (j + 1) * n
    let is := (List.range ((hi + m - 1) / m - lo / m)).map (lo / m + ·)
    ((is.filter (· < n)).map fun i => (i, min hi ((i + 1) * m) - max lo (i * m)), n)
  else
    let c := min ((2 * j + 1) * n - m) ((n - 1) * (2 * m))
    let i := c / (2 * m)
    let f := c % (2 * m)
    (if f = 0 then [(i, 2 * m)] else [(i, 2 * m - f), (min (i + 1) (n - 1), f)], 2 * m)

/-- The exact weighted sum. -/
def tapSum (v : Nat → Int) (taps : List (Nat × Nat)) : Int := taps.foldl (fun a t => a + t.2 * v t.1) 0

/-- The horizontal pass: `cw` values to `ow`, with 8 extra fraction bits. -/
def scaleRow (cw ow : Nat) (row : List Int) : List Int :=
  (List.range ow).map fun j =>
    let t := scaleTaps cw ow j
    rndDiv (256 * tapSum (fun i => row.getD i 0) t.1) t.2

/-- The vertical pass of one output column, rounded to the source format and saturated. -/
def scaleCol (sgn : Bool) (rows : List (Nat × List Int)) (den x : Nat) : Int :=
  let a := rows.foldl (fun (a : Int) (r : Nat × List Int) => a + (r.1 : Int) * r.2.getD x 0) (0 : Int)
  let v := rndDiv a (256 * den)
  if sgn then satS 16 v else satU 16 v

/-- The little-endian halfword at offset `i` of a list of bytes. -/
def halfAt (bs : List Byte) (i : Nat) : Nat := (bs.getD i 0).toNat + 256 * (bs.getD (i + 1) 0).toNat

/-! ### Source rows (R261, R265, R266, R268) -/

/-- The frame of a port that ends at a count, if it is still under processing. -/
def State.srcFrame (s : State) (p : Port) (m : W) : Option Frame :=
  match (s.port p).frame with
  | some fr => if fr.m = m then some fr else (s.port p).tail.filter fun t => t.m == m
  | none => (s.port p).tail.filter fun t => t.m == m

/-- Whether a source row is final (R266). -/
def State.rowFinal (s : State) (f : OutFrame) (r : Nat) : Bool :=
  match s.srcFrame f.port f.src with
  | none => true
  | some fr =>
    fr.deadlinePassed || (fr.ended && (fr.heldStart || fr.held)) ||
      (fr.processed && (List.range (fr.pb.cols f.port)).all fun a => (fr.px f.port r a).word.isSome)

/-- One 16-bit source value for each crop column of a row (R261, R265): poison reads as K = 0 or a tap value of 0x8000, and is counted
(R268); with no previous corrected frame a held frame shows that word of R173. Answers the values, the poisoned reads and the state. -/
def State.srcRow (s : State) (st : Fin 8) (f : OutFrame) (r : Nat) : List Int × Nat × State :=
  let c := f.pb.streamCtl st
  let tap := fld c 5 4
  let org := f.pb.fld (0x181 + 4 * st.val) 0
  let cw := fld (f.pb.fld (0x181 + 4 * st.val) 1) 11 0
  let i0 := r * f.pb.cols f.port + fld org 11 0
  let sgn (x : Nat) : Int := (BitVec.ofNat 16 x).toInt
  if tap = 1 ∨ tap = 2 then
    let b := streamBase st + 2 * i0
    let rd := s.storeRead b (2 * cw)
    let bad (j : Nat) : Bool := rd.2.store.poison.contains ((b + 2 * j) / 8)
    let v (j : Nat) : Nat := if bad j then 0x8000 else halfAt rd.1 (2 * j)
    ((List.range cw).map fun j => if tap = 2 then sgn (v j) else (v j : Int), ((List.range cw).filter bad).length, rd.2)
  else
    match f.slot with
    | none => (List.replicate cw (if tap = 3 then -32768 else 0), 0, s)
    | some sl =>
      let b := slotBase f.port sl + 4 * i0
      let rd := s.storeRead b (4 * cw)
      let bad (j : Nat) : Bool := rd.2.store.poison.contains ((b + 4 * j) / 8)
      let v (j : Nat) : Int :=
        if bad j then (if tap = 3 then -32768 else 0)
        else if tap = 3 then sgn (halfAt rd.1 (4 * j + 2))
        else (halfAt rd.1 (4 * j) : Int)
      ((List.range cw).map v, ((List.range cw).filter bad).length, rd.2)

/-! ### Formats (R198, R263, R264) -/

/-- The tone map of a temperature (R198). -/
def toneMap (hbase hsh : Nat) (curve : List Byte) (k : Nat) : Nat :=
  let v (i : Nat) : Nat := (curve.getD i 0).toNat
  if k < hbase then v 0
  else if hbase + 256 * 2 ^ hsh ≤ k then v 256
  else
    let b := (k - hbase) / 2 ^ hsh
    let g := (k - hbase) % 2 ^ hsh
    (rnd ((v b * (2 ^ hsh - g) + v (b + 1) * g : Nat) : Int) hsh).toNat

/-- The bytes of a 16-bit value in the packing of RAW16 (R263; log entry 25). -/
def raw16Bytes (x : Int) : List Byte :=
  let b := (wordBytes (wi x)).take 2
  if Config.raw16HighFirst then b.reverse else b

/-- The pixel pairs of false colour: U, Y0, V, Y1, with the means of U and V rounded half to even (R263, R264). -/
def yuvBytes (pal : Nat → W) : List Nat → List Byte
  | a :: b :: r =>
    let mean (hi lo : Nat) : Byte := BitVec.ofInt 8 (rndDiv ((fld (pal a) hi lo + fld (pal b) hi lo : Nat) : Int) 2)
    mean 15 8 :: BitVec.ofNat 8 (fld (pal a) 7 0) :: mean 23 16 :: BitVec.ofNat 8 (fld (pal b) 7 0) :: yuvBytes pal r
  | _ => []

/-- The payload of an image line from its scaled values. -/
def formatLine (st : Fin 8) (f : OutFrame) (vs : List Int) : List Byte :=
  let c := f.pb.streamCtl st
  let b10 := f.pb.fld (pB f.port + 10) 0
  let t := vs.map fun k =>
    let x := toneMap (fld b10 15 0) (fld b10 19 16) f.curve k.toNat
    if bitOf c 1 then 255 - x else x
  match fld c 7 6 with
  | 0 => vs.flatMap raw16Bytes
  | 1 => t.map (BitVec.ofNat 8)
  | _ => yuvBytes (fun i => f.pb.fld (0x1A0 + st.val) i) t

/-- The data type of a stream's image lines (R259, R263). -/
def imageDt (pb : PMap) (st : Fin 8) : Nat :=
  let c := pb.streamCtl st
  if fld c 15 8 ≠ 0 then fld c 15 8
  else match fld c 7 6 with
    | 0 => 0x2E
    | 1 => 0x2A
    | _ => 0x1E

/-- Source rows of an output line, absolute, with weights, and their divisor (R262). -/
def lineRows (pb : PMap) (st : Fin 8) (j : Nat) : List (Nat × Nat) × Nat :=
  let ch := fld (pb.fld (0x181 + 4 * st.val) 1) 27 16
  let oh := fld (pb.fld (0x181 + 4 * st.val) 2) 28 16
  let row := fld (pb.fld (0x181 + 4 * st.val) 0) 27 16
  let t := scaleTaps ch oh j
  (t.1.map fun x => (row + x.1, x.2), t.2)

/-- The payload of image line `j`: scaled in two passes and formatted; the poisoned reads it made; the state after them. -/
def State.imageLine (s : State) (st : Fin 8) (f : OutFrame) (j : Nat) : List Byte × Nat × State :=
  let cw := fld (f.pb.fld (0x181 + 4 * st.val) 1) 11 0
  let ow := fld (f.pb.fld (0x181 + 4 * st.val) 2) 12 0
  let t := lineRows f.pb st j
  let tap := fld (f.pb.streamCtl st) 5 4
  let r := t.1.foldl (fun (a : List (Nat × List Int) × Nat × State) x =>
    let q := a.2.2.srcRow st f x.1
    (a.1 ++ [(x.2, scaleRow cw ow q.1)], a.2.1 + q.2.1, q.2.2)) ([], 0, s)
  (formatLine st f ((List.range ow).map (scaleCol (tap == 2 || tap == 3) r.1 t.2)), r.2.1, r.2.2)

/-! ### Coefficient export (R278, R279) -/

/-- The tile and the row within it that packet `j` of an export frame holds. -/
def exportPlace (pb : PMap) (p : Port) (tile : Nat) : Nat → Nat → Nat × Nat
  | 0, j => (tile, j)
  | fuel + 1, j =>
    let rows := (tileRect pb p tile).2.1
    if j < rows then (tile, j) else exportPlace pb p ((tile + 1) % pb.tileCount p) fuel (j - rows)

/-- The payload of packet `j`: the words of WMASK of each pixel of a tile row; a poisoned word is counted, its value free (R268). -/
def State.exportLine (s : State) (st : Fin 8) (f : OutFrame) (j : Nat) : List Byte × Nat × State :=
  let p := f.port
  let e := f.pb.fld (0x182 + 4 * st.val) 0
  let pl := exportPlace f.pb p f.tile 255 j
  let q := tileRect f.pb p pl.1
  let ws := (List.range 16).filter fun w => bitOf e (16 + w)
  let addrs := (List.range q.2.2.2).flatMap fun i => ws.map fun w => recordAddr f.pb p (q.1 + pl.2) (q.2.2.1 + i) + 4 * w
  addrs.foldl (fun (a : List Byte × Nat × State) x =>
    let rd := a.2.2.storeRead x 4
    if rd.2.poisoned x 4 then
      let w := rd.2.free
      (a.1 ++ wordBytes w.1, a.2.1 + 1, w.2)
    else (a.1 ++ rd.1, a.2.1, rd.2)) ([], 0, s)

/-! ### Starting a frame (R265–R270, R275) -/

/-- Whether the frame at the head of a stream may start (R266). -/
def State.frameReady (s : State) (st : Fin 8) (f : OutFrame) : Bool :=
  let c := f.pb.streamCtl st
  let org := f.pb.fld (0x181 + 4 * st.val) 0
  let size := f.pb.fld (0x181 + 4 * st.val) 1
  if fld c 7 6 = 3 then (match s.srcFrame f.port f.src with | some fr => fr.ended | none => true)
  else if bitOf c 21 then s.rowFinal f (((lineRows f.pb st 0).1.head?.map (·.1)).getD 0)
  else (List.range (fld size 27 16)).all fun i => s.rowFinal f (fld org 27 16 + i)

/-- The curve that a frame uses and its record's count (R198): not the frame's own record's. -/
def State.curveFor (s : State) (f : OutFrame) : List Byte × W :=
  let x := s.port f.port
  if x.curveMer = s.agreedOf f.port f.src then (x.prevCurve.toList, x.prevCurveMer) else (x.curve.toList, x.curveMer)

/-- Whether a source word that a frame's lines will read carries poison, or an error that no correction removes (R247, R268): known, for a
WHOLE frame's header, before its lines are formed. -/
def State.framePoisoned (s : State) (st : Fin 8) (f : OutFrame) : Bool :=
  let c := f.pb.streamCtl st
  let bad := s.store.poison ++ s.store.hard
  let n := f.pb.cols f.port
  let w (i : Nat) : W := f.pb.fld (0x181 + 4 * st.val) i
  let crop (base size : Nat) : Bool :=
    (List.range (fld (w 1) 27 16)).any fun r =>
      let a := base + ((fld (w 0) 27 16 + r) * n + fld (w 0) 11 0) * size
      bad.any fun x => decide (a < 8 * x + 8) && decide (8 * x < a + size * fld (w 1) 11 0)
  if fld c 7 6 = 3 then
    let e := f.pb.fld (0x182 + 4 * st.val) 0
    let base := recordAddr f.pb f.port 0 0
    let total := f.pb.tileCount f.port
    bad.any fun x => [8 * x, 8 * x + 4].any fun a =>
      let k := (a - base) / 64
      let t := k / n / 64 * f.pb.tilesAcross f.port + k % n / 64
      decide (base ≤ a) && decide (k < n * f.pb.rows f.port) && decide ((t + total - f.tile) % total < fld e 15 8) &&
        bitOf e (16 + a % 64 / 4)
  else if fld c 5 4 = 1 ∨ fld c 5 4 = 2 then crop (streamBase st) 2
  else match f.slot with
    | some sl => crop (slotBase f.port sl) 4
    | none => false

/-- Line 0 of the header, words w0–w14, and the frame with its own flags, patched and poisoned as far as it is known, and the tiles from the
cursor as it stands now (R267–R270, R279). -/
def State.headOf (s : State) (st : Fin 8) (f : OutFrame) : OutFrame :=
  let x := s.stream st
  let c := f.pb.streamCtl st
  let toned := fld c 7 6 == 1 || fld c 7 6 == 2
  let cv := s.curveFor f
  let older := toned && cv.2 != s.agreedOf f.port f.src - 1
  let flawed := match s.srcFrame f.port f.src with
    | some fr => !fr.held && fr.flawedNow f.port
    | none => false
  let exp := fld c 7 6 == 3
  let f := { f with tile := x.cursor }
  let w8 := if exp then wn (x.cursor + 2 ^ 16 * fld (f.pb.fld (0x182 + 4 * st.val) 0) 15 8) else f.head.getD 8 0
  let poison := !bitOf c 21 && s.framePoisoned st f
  let fl := f.flags ||| (if poison then 0x00200000 else 0 : W) ||| (if flawed then 0x00010000 else 0 : W) |||
    (if x.firstPend then 0x00400000 else 0 : W) ||| (if x.failover then 0x00080000 else 0 : W) |||
    (if older then 0x00800000 else 0 : W) ||| (if bitOf c 21 then 0x02000000 else 0 : W)
  { f with flags := fl, curve := cv.1, curveMer := cv.2,
           head := (((f.head.set 8 w8).set 1 x.frames).set 3 (wn (fld (f.head.getD 3 0) 15 0) ||| fl)).set 7 (if toned then cv.2 else 0xFFFFFFFF) }

/-- A long packet of a stream's frame. -/
def longPkt (st : Fin 8) (pb : PMap) (dt : Nat) (bs : List Byte) : Pkt :=
  { stream := st, tx := pb.streamTx st, vc := BitVec.ofNat 3 (fld (pb.streamCtl st) 20 18), dt := BitVec.ofNat 8 dt, bytes := bs }

def framePkt (st : Fin 8) (pb : PMap) (dt v : Nat) : Pkt := shortPkt st (pb.streamTx st) (fld (pb.streamCtl st) 20 18) dt v

/-- A header line of 15 words and their CRC (R269). -/
def headLine (ws : List W) : List Byte := wordsBytes (ws ++ [crcWords ws])

/-- STREAM_FRAME_START (R266, R269–R271, R275): a late previous frame is cut, then Frame Start and two header lines go. -/
def execStreamFrameStart (st : Fin 8) (s : State) : Out :=
  match (s.stream st).due with
  | [] => .next s
  | f :: rest =>
    if s.thermal.held ∨ !s.frameReady st f then .next s
    else
      let s := s.streamCut st
      let f := s.headOf st f
      let l1 := ((s.stream st).prevHead).getD (List.replicate 15 0)
      let ps := [framePkt st f.pb 0x00 (csiNumber (s.stream st).frames), longPkt st f.pb 0x12 (headLine f.head),
        longPkt st f.pb 0x12 (headLine l1)]
      .next ((s.modStream st fun x =>
        { x with due := rest, cur := some f, frames := x.frames + 1, firstPend := false, failover := false, pkts := x.pkts ++ ps }).occur
          (srcStream st 0))

/-! ### Lines (R266, R271, R275) -/

/-- Bytes that wait in a stream's line ring of 5 MiB (R280). -/
def ringBytes (l : List Pkt) : Nat := ((l.filter isImagePkt).map fun k => k.bytes.length).foldl (· + ·) 0

/-- A line enters the stream's line ring behind the line before it, wrapping at the ring's end (R280, log entry 168). -/
def State.ringPut (s : State) (st : Fin 8) (bs : List Byte) : State :=
  let base := streamBase st + 0x00A00000
  let at' := (s.stream st).ringAt
  let k := 0x500000 - at'
  let s := s.storeWrite (base + at') (bs.take k)
  let s := if k < bs.length then s.storeWrite base (bs.drop k) else s
  s.modStream st fun x => { x with ringAt := (at' + bs.length) % 0x500000 }

/-- STREAM_LINE_SEND (R262–R268, R271, R279): the next line once every source row it reads is final; after the last one Frame End.
Production waits while the line ring is full. -/
def execStreamLineSend (st : Fin 8) (s : State) : Out :=
  match (s.stream st).cur with
  | none => .next s
  | some f =>
    let total := outLines f.pb st f.tile
    let exp := fld (f.pb.streamCtl st) 7 6 == 3
    let ready := exp || (lineRows f.pb st f.nextLine).1.all fun r => s.rowFinal f r.1
    if s.thermal.held ∨ total ≤ f.nextLine ∨ !ready then .next s
    else
      let l := if exp then s.exportLine st f f.nextLine else s.imageLine st f f.nextLine
      if 0x500000 < ringBytes (s.stream st).pkts + l.1.length then .next s
      else
        let s := l.2.2
        let eg := if exp then (s.port f.port).egen else f.egen
        let moved := exp && f.genRead.any (· != eg)
        let n := f.nextLine + 1
        let lsle := bitOf (f.pb.streamCtl st) 22
        let ps := (if lsle then [framePkt st f.pb 0x02 n] else []) ++ [longPkt st f.pb (imageDt f.pb st) l.1] ++
          (if lsle then [framePkt st f.pb 0x03 n] else []) ++
          (if n = total then [framePkt st f.pb 0x01 (csiNumber (f.head.getD 1 0))] else [])
        let f := { f with nextLine := n, egen := eg, genRead := if exp then f.genRead.orElse (fun _ => some eg) else none,
                          flags := f.flags ||| (if l.2.1 ≠ 0 then 0x00200000 else 0 : W) ||| (if moved then 0x01000000 else 0 : W) }
        let s := s.ringPut st l.1
        .next (s.modStream st fun x => { x with cur := some f, pkts := x.pkts ++ ps, srec := recAdd x.srec 6 l.2.1 })

/-! ### The transmitters (R272–R274) -/

/-- The streams with a packet ready for a transmitter, least recently served first, ties to the lower number (R274). -/
def State.txNext (s : State) (x : Fin 2) : Option (Fin 8) :=
  let has (st : Fin 8) : Bool := (s.stream st).pkts.head?.any fun k => k.tx == x
  let served := (s.txs.get x).served
  (((allFin 8).filter fun st => !served.contains st) ++ served).find? has

/-- A packet as its HS burst carries it (R272): data type and lower virtual-channel bits, the 16-bit value or the byte count, ECC with the VCX
bits above it; a long packet's payload and CRC-16. Data types below 0x10 are short packets'. -/
def Pkt.wire (k : Pkt) : List Byte :=
  let di : Byte := BitVec.ofNat 8 (k.dt.toNat % 64 + 2 ^ 6 * (k.vc.toNat % 4))
  let short := k.dt.toNat < 0x10
  let v : Nat := if short then halfAt k.bytes 0 else k.bytes.length % 65536
  let ecc := Config.csiEcc (k.vc.zeroExtend 5) (BitVec.ofNat 6 k.dt.toNat) (BitVec.ofNat 16 v)
  let head := di :: (wordBytes (wn v)).take 2 ++ [BitVec.ofNat 8 (ecc.toNat + 2 ^ 6 * (k.vc.toNat / 4))]
  if short then head else head ++ k.bytes ++ (wordBytes (wn (Config.csiCrc k.bytes).toNat)).take 2

/-- What a transmitter's lanes show (R273, R277, R282): 0 LP-11, 1 ULPS, 2 high impedance, without VDD_PHY. -/
def State.txLanes (s : State) (x : Fin 2) : Fin 3 :=
  if !s.thermal.rails.getLsbD 3 then 2
  else match (s.txs.get x).line with
    | 2 => 0
    | l => l

/-- TX_PACKET (R272, R274, R280): one packet as an HS burst; ULPS is left for it; the Frame End of the stream's frame ends it. -/
def execTxPacket (x : Fin 2) (s : State) : Out :=
  let t := s.txs.get x
  if s.thermal.held ∨ !t.on ∨ t.line = 2 ∨ !s.clocks.gives ⟨1 + x.val, by omega⟩ then .next s
  else match s.txNext x with
    | none => .next s
    | some st =>
      match (s.stream st).pkts with
      | [] => .next s
      | k :: r =>
        let s := if t.line = 1 then s.occur (srcTx x 1) else s
        let s := s.modTx x fun t =>
          { t with line := 0, sent := some k, burst := k.wire, sentCount := t.sentCount + 1, served := (t.served.filter (· != st)) ++ [st] }
        let s := s.modStream st fun q => { q with pkts := r }
        if k.dt = 0x01 then
          match (s.stream st).ending, (s.stream st).cur with
          | f :: l, _ => .next ((s.modStream st fun q => { q with ending := l }).streamEnded st f)
          | [], some f => .next (s.streamFrameOver st f)
          | [], none => .next s
        else if isImagePkt k then
          .next (s.modStream st fun q => { q with cur := q.cur.map fun f => { f with sentLines := f.sentLines + 1 } })
        else .next s

/-- TX_ULPS_ENTRY (R273): after 1 ms with no packet, with ULPS = 1; source 1. -/
def execTxUlpsEntry (x : Fin 2) (s : State) : Out :=
  let t := s.txs.get x
  if s.thermal.held ∨ !t.on ∨ t.line ≠ 0 ∨ !bitOf (s.params.force.txCtl x) 7 ∨ (s.txNext x).isSome then .next s
  else .next ((s.modTx x fun t => { t with line := 1 }).occur (srcTx x 1))

end Sys2Proof.Machine
end

