-- ==== Sys2Proof/Machine/Clocks.lean ====
section
/-! DEFINITION. Reference and PLL locks, island clocks, DCO restarts, island resets and fences (R449–R470). -/
namespace Sys2Proof.Machine

/-- REFCLK_LOST (R451): the PLLs hold their last frequency; the Sextant stops. -/
def execRefclkLost (s : State) : Out :=
  if s.clocks.refOk then .next ((s.modClocks fun c => { c with refOk := false, hold := true }).occur (srcClock 46)) else .next s

/-- REFCLK_RESTORED (R451). -/
def execRefclkRestored (s : State) : Out :=
  if s.clocks.refOk then .next s
  else .next ((s.modClocks fun c => { c with refOk := true, hold := false }).occur (srcClock 47))


/-- The source of a PLL that loses or regains lock (R470). -/
def pllSource (k : Fin 4) : Nat := if k = 0 then 39 else if k = 1 then 35 else if k = 2 then 37 else 43

/-- Whether a PLL runs (R450): SYS from PFAIL_N; a TX PLL while its transmitter is on; LINK while EN is set, or under the mask ROM for
an image from the partner. All but LINK, which has a reference of its own, lock to REFCLK (R451). -/
def State.pllRuns (s : State) (k : Fin 4) : Bool :=
  !s.thermal.held && s.thermal.pfail &&
    (if k = 0 then true
     else if k = 1 then (s.txs.get 0).on
     else if k = 2 then (s.txs.get 1).on
     else s.twinEn || s.romLink)

/-- PLL_LOCKED (R450): a PLL locks; one that had lost lock regains it with its source (R470). -/
def execPllLocked (k : Fin 4) (s : State) : Out :=
  if !s.pllRuns k || s.clocks.locked k || (k != 3 && !s.clocks.refOk) then .next s
  else
    let again := s.clocks.lost.getLsbD k.val
    let s := s.modClocks fun c => { c.setLock k true with lost := c.lost &&& ~~~(1 <<< k.val : BitVec 4) }
    .next (if again then s.occur (srcClock (pllSource k)) else s)

/-- PLL_LOCK_LOST (R470). -/
def execPllLockLost (k : Fin 4) (s : State) : Out :=
  if s.clocks.locked k then
    .next ((s.modClocks fun c => { c.setLock k false with lost := c.lost ||| (1 <<< k.val : BitVec 4) }).occur
      (srcClock (pllSource k)))
  else .next s

/-- PORT_CLOCK_SWITCH (R453): the port island switches to or from the 250 MHz backup clock. -/
def execPortClockSwitch (p : Port) (backup : Bool) (s : State) : Out :=
  if s.thermal.held ∨ (s.port p).backupClock = backup then .next s
  else .next ((s.modPort p fun x => { x with backupClock := backup }).occur (srcClock (27 + 2 * p.val)))

/-- DCO_RESTART (R455): the code for the new target is set and the cluster's clock runs again. The clock has stopped after the cluster's last
invocation for the earlier frame, so none is left to wait for. -/
def execDcoRestart (k : Fin 12) (s : State) : Out :=
  if s.thermal.held ∨ !(s.cluster k).stopped then .next s
  else .next ((s.dcoSet k).modCluster k fun c => { c with stopped := false })

/-- The fence of an island drops (R467): source 2i. -/
def State.fenceDrop (s : State) (i : Nat) : State :=
  if s.clocks.fenced.getLsbD i && !s.clocks.inReset.getLsbD i then
    (s.modClocks fun c => { c with fenced := c.fenced &&& ~~~(1 <<< i : BitVec 23) }).occur (srcClock (2 * i))
  else s

/-- ISLAND_RESET_RELEASE (R465, R467): a cluster's reset ends 1 µs after its assertion, never after its retirement; the other islands
are released by what R465 names, and the fence then drops. -/
def execIslandResetRelease (i : Fin 23) (s : State) : Out :=
  if s.thermal.held then .next s
  else if i.val < 12 then
    (if s.fm.map.clusters.getLsbD i.val then .next s else .next ((s.islandOut i.val).fenceDrop i.val))
  else .next (s.fenceDrop i.val)

/-- ISLAND_CLOCK_OUT_OF_RANGE (R470): a report of the store or the fabric island. -/
def execIslandClockOutOfRange (fabric : Bool) (s : State) : Out :=
  if s.thermal.held then .next s else .next (s.occur (srcClock (if fabric then 45 else 25)))

end Sys2Proof.Machine
end

