-- ==== Sys2Proof/Machine/Svc.lean ====
section
/-! DEFINITION. SVC: the services of fixed logic and their immediate results (R70, R204, R301–R304, R425). -/
namespace Sys2Proof.Machine

/-- Whether a service is permitted to an engine (R70): 0x01 to the CE, 0x02 and 0x04 to the CE and the ME, the others to all. -/
def svcPermitted (e : Eng) (service : Nat) : Bool :=
  if service = 1 then e.val == 0 else if service = 2 ∨ service = 4 then e.val == 0 || e.val == 5 else true

/-- The immediate result is written to `d`; a refusal raises source 2 of the engine (R70, R71). -/
def State.svcResult (s : State) (z : Zx) (e : Eng) (c : Ctx) (d : Reg) (res : Nat) : State :=
  let s := s.done z.agent (c.put d (wn res))
  if res = 2 then s.occur (srcEng e 2) else s

/-- A service requested by an engine: `res` gives the immediate result, `act` what the service does when it is accepted. -/
def State.svc (s : State) (z : Zx) (d : Reg) (service : Nat) (res : Eng → Ctx → State → Nat)
    (act : Eng → Ctx → State → State) : Out :=
  s.zx z (isEng z.agent) fun c s =>
    match z.agent with
    | .lane _ => s
    | .eng e =>
      if !svcPermitted e service then s.raise z.agent 7 0
      else
        let n := res e c s
        let s := s.svcResult z e c d n
        if n = 0 then act e c s else s

/-! ### 0x01: start a transit (R204) -/

/-- The immediate result of SVC 0x01. -/
def State.svcTransit (s : State) (w : W) : Nat :=
  if h : w.toNat < 4 then
    let p : Port := ⟨w.toNat, h⟩
    if s.params.force.upperOfGang p || (s.port p).st != .running || s.blwRetired (domeOf p) then 2
    else if s.transit.cur.any fun c => c.port == p then 1
    else 0
  else 2

/-- SVC 0x01: the port becomes due as requested, and the context waits for W25. -/
def execSvcStartTransit (z : Zx) (d a : Reg) (s : State) : Out :=
  s.svc z d 1 (fun _ c s => s.svcTransit (c.get a)) fun e c s =>
    let w := c.get a
    if h : w.toNat < 4 then
      (s.modTransit fun t => { t with waiters := t.waiters ++ [((s.eng e).run, ⟨w.toNat, h⟩)] }).transitDue ⟨w.toNat, h⟩ true
    else s

/-! ### 0x02: self-test a unit (R301, R304) -/

/-- Whether a unit counts as retired: by state, or a lane with its cluster. -/
def State.unitRetired (s : State) (u : Fin 182) : Bool :=
  (s.unit u).st == 5 || (if h : u.val < 96 then s.laneRetired ⟨u.val, h⟩ else false)

/-- States in which SVC 0x02 and SVC 0x04 answer busy (R301); a request accepted before and not yet begun counts with them (log
entry 41). -/
def UnitS.occupied (x : UnitS) : Bool :=
  (decide (1 ≤ x.st.toNat) && decide (x.st.toNat ≤ 4)) || x.st == 6 || x.reqTest.isSome || x.rotate

/-- Whether a lane or a cluster serves: some band of a running port is on it. -/
def State.serves (s : State) (u : Fin 182) : Bool :=
  (allFin 4).any fun p => (s.port p).st == .running && (s.port p).bands.any fun b =>
    uLane b.lane == u || uCluster (clusterOf b.lane) == u

/-- Whether every running port's lane lists can still be built at the level in force with the unit out for its test (R145, R304). -/
def State.canSpare (s : State) (u : Fin 182) : Bool :=
  let t := s.modUnit u fun x => { x with st := 6 }
  let t := forEach (allFin 182) (fun v t => if (s.unit v).rotate then t.modUnit v fun x => { x with st := 6 } else t) t
  (allFin 4).all fun p =>
    (s.port p).st != .running || decide ((t.levelFor (t.portView p) (s.port p).stage).1 ≤ (s.port p).level)

/-- Whether a cluster is the duty cluster of a running port's plan (R142). -/
def State.isDuty (s : State) (k : Fin 12) : Bool :=
  (allFin 4).any fun p => (s.port p).st == .running &&
    s.dutyCluster (s.portView p) (planOf (s.portView p) (s.port p).stage (s.port p).level) == some k

/-- Whether a unit is placed by a rotation at a meridian (R304): a serving or drafted lane, the duty cluster, a serving cluster. -/
def State.needsRotation (s : State) (u : Fin 182) : Bool :=
  if u.val < 96 then s.serves u
  else if h : u.val < 108 then s.serves u || s.isDuty ⟨u.val - 96, by omega⟩
  else false

/-- Whether R304 gives busy for a unit at this moment. -/
def State.placeBusy (s : State) (u : Fin 182) : Bool :=
  if s.needsRotation u then !s.canSpare u
  else if h : 112 ≤ u.val ∧ u.val < 120 then
    let b := s.blw ⟨u.val - 112, by omega⟩
    !(b.st == 0 || (b.st == 7 && (s.blw (otherBlw ⟨u.val - 112, by omega⟩)).st == 0))
  else false

/-- Whether a row, its bank or its channel is retired (R248–R252, R309). -/
def State.rowRetired (s : State) (uid : W) : Bool :=
  let ch := uidCh uid
  s.fm.map.chan == some ch || (s.fm.map.banks.get ch).getLsbD (uidBank uid) ||
    (s.fm.map.rows.get ch).any fun e => e.bank == uidBank uid && e.row == uidRow uid

/-- Whether a row or channel is in a sequence, waits for its retirement, or has a request. -/
def State.storeOccupied (s : State) (uid : W) : Bool :=
  (s.store.seqs.any fun q => rowUid q.ch.val q.bank.val q.row == uid) || (s.fm.storeReqs.any fun r => r.1 == uid) ||
    s.fm.storePend.any fun r => r.1 == uid

/-- The immediate result of SVC 0x02 (R301). A row whose channel has no spare row free cannot be copied away: busy (log entry 41). -/
def State.svcTest (s : State) (uid : W) : Nat :=
  match uidSlot uid with
  | some u =>
    if s.unitRetired u || (128 ≤ u.val && u.val < 134) then 2
    else if (s.unit u).occupied || s.placeBusy u then 1
    else 0
  | none =>
    if isRowUid uid then (if s.rowRetired uid then 2 else if s.storeOccupied uid || (s.nextSpare (uidCh uid)).isNone then 1 else 0)
    else if isChanUid uid then (if s.fm.map.chan == some (uidCh uid) then 2 else if s.storeOccupied uid then 1 else 0)
    else 2

/-- A requested test of a unit is placed (R304): rotated out at a meridian, deferred to a port's blanking or the end of a modulator's
sequence, or begun. A requested test has no detected error behind it (R288) and the cause "request". -/
def State.testPlace (s : State) (u : Fin 182) (r : Req) : State :=
  let rot := s.needsRotation u
  let s := s.modUnit u fun x => { x with reqTest := some r, cause := 0xFF, byError := false }
  if rot then s.modUnit u fun x => { x with rotate := true }
  else if 108 ≤ u.val ∧ u.val < 112 then s
  else if h : 120 ≤ u.val ∧ u.val < 128 then
    (if (s.mod ⟨u.val - 120, by omega⟩).cond = .converting ∨ (s.mod ⟨u.val - 120, by omega⟩).inGap then s else s.testBegin u)
  else if h : 134 ≤ u.val then
    let t : Fin 48 := ⟨u.val - 134, by omega⟩
    let keeps := s.sensorVal t == 0 && s.holdsTop t
    ((s.modSensor t fun y => { y with keeps := keeps || y.keeps, underTest := y.read, farRun := 0 }).testBegin u).sensorChange u
  else s.testBegin u

/-- SVC 0x02. -/
def execSvcSelfTest (z : Zx) (d a : Reg) (s : State) : Out :=
  s.svc z d 2 (fun _ c s => s.svcTest (c.get a)) fun e c s =>
    let uid := c.get a
    let r : Req := { eng := e, ctx := (s.eng e).run }
    match uidSlot uid with
    | some u => (s.testPlace u r).settleIdle
    | none =>
      let s := s.modFm fun m => { m with storeReqs := m.storeReqs ++ [(uid, r)] }
      if isRowUid uid then s.rowDetect (uidCh uid) (uidBank uid) (uidRow uid) 0xFF else s

/-! ### 0x04: request a retirement (R301) -/

/-- The immediate result of SVC 0x04. -/
def State.svcRetire (s : State) (uid : W) : Nat :=
  match uidSlot uid with
  | some u =>
    if s.unitRetired u || 128 ≤ u.val then 2 else if (s.unit u).occupied then 1 else 0
  | none =>
    if isChanUid uid then (if s.fm.map.chan.isSome then 2 else if s.storeOccupied uid then 1 else 0)
    else if isRowUid uid || isBankUid uid then (if s.rowRetired uid then 2 else if s.storeOccupied uid then 1 else 0)
    else 2

/-- A unit goes from service to state 4 (R301): it stays isolated, and a lane's work is given up. -/
def State.retirePlace (s : State) (u : Fin 182) (r : Req) : State :=
  let s := s.modUnit u fun x => { x with st := 4, reqRetire := some r, cause := 0xFF, byError := false }
  if h : u.val < 96 then s.laneGone ⟨u.val, h⟩
  else if h : 112 ≤ u.val ∧ u.val < 120 then
    ((s.blwRelease ⟨u.val - 112, by omega⟩).blwShut ⟨u.val - 112, by omega⟩).parFollow ⟨u.val - 112, by omega⟩
  else s

/-- SVC 0x04. -/
def execSvcRequestRetirement (z : Zx) (d a : Reg) (s : State) : Out :=
  s.svc z d 4 (fun _ c s => s.svcRetire (c.get a)) fun e c s =>
    let uid := c.get a
    let r : Req := { eng := e, ctx := (s.eng e).run }
    let s := match uidSlot uid with
      | some u => s.retirePlace u r
      | none => s.modFm fun m => { m with storeReqs := m.storeReqs ++ [(uid, r)], storePend := m.storePend ++ [(uid, false)] }
    (s.fmPermanent.settleIdle).fmDeliver

/-! ### 0x03: note an almanac record (R425) -/

/-- The header word, and whether the record lies in data memory. -/
def noteHeader (en : Engine) (e : Eng) (a : Nat) : Option W :=
  if a % 4 = 0 ∧ a + 16 ≤ dataSize e then
    let w := Mem.word en.data a
    let len := fld w 23 16
    if 0x800 ≤ fld w 11 0 ∧ fld w 15 12 ≤ 2 ∧ len ≤ 248 ∧ len % 4 = 0 ∧ a + 16 + len ≤ dataSize e then some w else none
  else none

/-- The record that the header and payload at an address make. -/
def State.noteRec (s : State) (e : Eng) (a : Nat) (w : W) : Rec :=
  s.mkRec (fld w 11 0) (fld w 15 12) (uEng e).val 0
    ((List.range (fld w 23 16 / 4)).map fun i => Mem.word (s.eng e).data (a + 16 + 4 * i))

/-- The immediate result of SVC 0x03. -/
def State.svcNote (s : State) (e : Eng) (a : Nat) : Nat :=
  match noteHeader (s.eng e) e a with
  | none => 2
  | some w => if 4096 < queuedBytes s.nv.queue + recSize (s.noteRec e a w) then 1 else 0

/-- The bytes of data memory that the service reads: the header word, and the payload of a header that is valid (R43, R69). -/
def noteRange (en : Engine) (e : Eng) (a : Nat) : List Nat :=
  match noteHeader en e a with
  | some w => a :: (List.range (fld w 23 16 / 4)).map fun i => a + 16 + 4 * i
  | none => if a % 4 = 0 ∧ a + 4 ≤ dataSize e then [a] else []

/-- SVC 0x03: it reads data memory, so an outstanding transfer stalls it and an uncorrectable word raises exception 0x05 (R43, R69;
log entry 42). -/
def execSvcNoteRecord (z : Zx) (d a : Reg) (s : State) : Out :=
  match z.agent with
  | .lane _ => s.zx z false fun _ s => s
  | .eng e =>
    s.zx z true fun c s =>
      let at' := (c.get a).toNat
      let ps := noteRange (s.eng e) e at'
      match ps.find? fun p => s.stalls z.agent (.data p) 4 with
      | some p => s.blockOn z.agent c (.interlock p 4)
      | none => match ps.find? fun p => s.wordBad z.agent (.data p) with
        | some p => s.raise z.agent 5 (wn p)
        | none =>
          let s := forEach ps (fun p s => s.softFix z.agent (.data p)) s
          let n := s.svcNote e at'
          let t := s.svcResult z e (s.ctxOf z.agent) d n
          match n, noteHeader (s.eng e) e at' with
          | 0, some w => t.queueRec (s.noteRec e at' w) (some { eng := e, ctx := (s.eng e).run })
          | _, _ => t

/-! ### 0x05: read agreed time (R70, R326) -/

/-- SVC 0x05: the agreed operating time, bits 31:0; its argument register is reserved as g0. -/
def execSvcReadAgreedTime (z : Zx) (d a : Reg) (s : State) : Out :=
  s.zx { z with flaw := if a = 0 then z.flaw else .reserved } (isEng z.agent) fun c s => s.done z.agent (c.put d (wn s.agreed))

end Sys2Proof.Machine
end

