-- ==== Sys2Proof/Machine/ZxVector.lean ====
section
/-! DEFINITION. The vector instructions of the lanes (R44, R72–R74). -/
namespace Sys2Proof.Machine

abbrev Vec := Vector W 8

/-! ### Vector registers and predicates (R44) -/

def Lane.vget (x : Lane) (r : Fin 8) : Vec := x.v.get r
/-- p0 reads as 0xFF. -/
def Lane.pget (x : Lane) (p : Fin 4) : Byte := if p = 0 then 0xFF else x.p.get p
/-- A write of p0 is discarded. -/
def Lane.pput (x : Lane) (p : Fin 4) (b : Byte) : Lane := if p = 0 then x else { x with p := x.p.set p b }

/-- Eight elements from their numbers. -/
def vecOf (f : Fin 8 → W) : Vec := Vector.ofFn f

/-- Replaces the elements whose predicate bit is 1 (R72). -/
def vecMask (pr : Byte) (old new : Vec) : Vec := vecOf fun i => if pr.getLsbD i.val then new.get i else old.get i

/-- A vector instruction: available on lanes only (R42); `body` is given the lane's number and state. -/
def State.vec (s : State) (z : Zx) (body : LaneNo → Lane → Ctx → State → State) : Out :=
  s.zx z (isLane z.agent) fun c s =>
    match z.agent with
    | .eng _ => s
    | .lane l => body l (s.lane l) c s

/-- Writes the active elements of vd and completes. -/
def State.vdone (s : State) (l : LaneNo) (c : Ctx) (p : Fin 4) (vd : Fin 8) (r : Vec) : State :=
  (s.modLane l fun x => { x with v := x.v.set vd (vecMask (x.pget p) (x.vget vd) r) }).done (.lane l) c

/-- An element-by-element operation on vd, va and vb (R74); `ok` is whether its function fields are defined. -/
def State.vop (s : State) (z : Zx) (p : Fin 4) (vd va vb : Fin 8) (bad : Option Byte) (f : W → W → W → W) : Out :=
  s.vec z fun l x c s =>
    match bad with
    | some cause => s.raise z.agent cause 0
    | none => s.vdone l c p vd (vecOf fun i => f ((x.vget vd).get i) ((x.vget va).get i) ((x.vget vb).get i))

/-! ### Arithmetic of one element (R74) -/

def sat32 (x : Int) : W := wi (satS 32 x)
def satU32 (x : Int) : W := wi (satU 32 x)

/-- vadd and vsub: mode 0 wraps, 1 saturates signed, 2 unsigned. -/
def vAddSub (mode : Nat) (sub : Bool) (a b : W) : W :=
  if mode = 1 then sat32 (if sub then a.toInt - b.toInt else a.toInt + b.toInt)
  else if mode = 2 then satU32 (if sub then (a.toNat : Int) - b.toNat else (a.toNat : Int) + b.toNat)
  else if sub then a - b else a + b

/-- The exact product in the chosen signedness: 0 s×s, 1 u×u, 2 s×u. -/
def vProd (mode : Nat) (a b : W) : Int :=
  if mode = 1 then (a.toNat : Int) * b.toNat else if mode = 2 then a.toInt * b.toNat else a.toInt * b.toInt

def vSat (u32 : Bool) (x : Int) : W := if u32 then satU32 x else sat32 x

/-- vd as an accumulator: signed for an s32 result, unsigned for a u32 result (log entry 22). -/
def vAcc (u32 : Bool) (d : W) : Int := if u32 then d.toNat else d.toInt

/-- vpoly. -/
def vPoly (s1 s2 : Nat) (sub : Bool) (d a b : W) : W :=
  let x := a.toInt
  let c1 := (b.extractLsb' 0 16).toInt
  let c2 := (b.extractLsb' 16 16).toInt
  let q2 := min (rnd (x * x) s2) 0x7FFFFFFF
  let t := rnd (c1 * x + c2 * q2) s1
  sat32 (if sub then d.toInt - t else d.toInt + t)

/-- Order of two words, unsigned or signed. -/
def vLe (uns : Bool) (a b : W) : Bool := if uns then decide (a.toNat ≤ b.toNat) else decide (a.toInt ≤ b.toInt)
def vMin (uns : Bool) (a b : W) : W := if vLe uns a b then a else b
def vMax (uns : Bool) (a b : W) : W := if vLe uns a b then b else a

/-- Median of three. -/
def vMed3 (uns : Bool) (a b c : W) : W := vMax uns (vMin uns a b) (vMin uns (vMax uns a b) c)

/-- vcmp conditions. -/
def vCond (k : Nat) (a b : W) : Bool :=
  match k with
  | 0 => a == b
  | 1 => a != b
  | 2 => decide (a.toInt < b.toInt)
  | 3 => decide (a.toInt ≤ b.toInt)
  | 4 => decide (b.toInt < a.toInt)
  | 5 => decide (b.toInt ≤ a.toInt)
  | 6 => decide (a.toNat < b.toNat)
  | _ => decide (b.toNat ≤ a.toNat)

/-- vshr: modes 0 sign fill, 1 zero fill, 2 left, 3 extract; `round` rounds half to even in modes 0 and 1. -/
def vShr (mode sh width : Nat) (sgn round : Bool) (a : W) : W :=
  match mode with
  | 0 => if round then wi (rnd a.toInt sh) else a.sshiftRight sh
  | 1 => if round then wi (rnd a.toNat sh) else a >>> sh
  | 2 => a <<< sh
  | _ =>
    let x := (a.toNat / 2 ^ sh) % 2 ^ width
    if sgn && decide (2 ^ (width - 1) ≤ x) then wi ((x : Int) - 2 ^ width) else wn x

/-! ### The instructions -/

/-- VADD (R74). -/
def execVadd (z : Zx) (p : Fin 4) (vd va vb : Fin 8) (mode : Fin 4) (s : State) : Out :=
  s.vop z p vd va vb (if mode.val = 3 then some 1 else none) fun _ a b => vAddSub mode.val false a b
/-- VSUB (R74). -/
def execVsub (z : Zx) (p : Fin 4) (vd va vb : Fin 8) (mode : Fin 4) (s : State) : Out :=
  s.vop z p vd va vb (if mode.val = 3 then some 1 else none) fun _ a b => vAddSub mode.val true a b
/-- VMUL (R74). -/
def execVmul (z : Zx) (p : Fin 4) (vd va vb : Fin 8) (sh : BitVec 5) (mode : Fin 4) (u32 : Bool) (s : State) : Out :=
  s.vop z p vd va vb (if mode.val = 3 then some 1 else none) fun _ a b => vSat u32 (rnd (vProd mode.val a b) sh.toNat)
/-- VMAC (R74). -/
def execVmac (z : Zx) (p : Fin 4) (vd va vb : Fin 8) (sh : BitVec 5) (mode : Fin 4) (u32 sub : Bool) (s : State) : Out :=
  s.vop z p vd va vb (if mode.val = 3 then some 1 else none) fun d a b =>
    let t := rnd (vProd mode.val a b) sh.toNat
    vSat u32 (if sub then vAcc u32 d - t else vAcc u32 d + t)
/-- VPOLY (R74). -/
def execVpoly (z : Zx) (p : Fin 4) (vd va vb : Fin 8) (s1 s2 : BitVec 5) (sub : Bool) (s : State) : Out :=
  s.vop z p vd va vb none fun d a b => vPoly s1.toNat s2.toNat sub d a b
/-- VMED3 (R74). -/
def execVmed3 (z : Zx) (p : Fin 4) (vd va vb : Fin 8) (uns : Bool) (s : State) : Out :=
  s.vop z p vd va vb none fun d a b => vMed3 uns d a b
/-- VCLAMP (R74). -/
def execVclamp (z : Zx) (p : Fin 4) (vd va vb : Fin 8) (uns : Bool) (s : State) : Out :=
  s.vop z p vd va vb none fun d a b => vMin uns (vMax uns d a) b
/-- VSHR (R74): extract beyond bit 31, or rounding in modes 2 and 3, is an illegal operand. -/
def execVshr (z : Zx) (p : Fin 4) (vd va : Fin 8) (sh : BitVec 5) (mode : Fin 4) (width : BitVec 5) (sgn round : Bool)
    (s : State) : Out :=
  let w := width.toNat + 1
  s.vop z p vd va va
    (if (mode.val = 3 ∧ 32 < sh.toNat + w) ∨ (round ∧ 2 ≤ mode.val) then some 2 else none)
    fun _ a _ => vShr mode.val sh.toNat w sgn round a
/-- VSAT (R74): signed or unsigned saturation of va to width bits. -/
def execVsat (z : Zx) (p : Fin 4) (vd va : Fin 8) (width : BitVec 5) (sgn : Bool) (s : State) : Out :=
  let w := width.toNat + 1
  s.vop z p vd va va none fun _ a _ => if sgn then wi (satS w a.toInt) else wi (satU w a.toNat)
/-- VSEL (R72, R74): all elements; the predicate chooses. -/
def execVsel (z : Zx) (p : Fin 4) (vd va vb : Fin 8) (s : State) : Out :=
  s.vec z fun l x c s =>
    s.vdone l c 0 vd (vecOf fun i => if (x.pget p).getLsbD i.val then (x.vget va).get i else (x.vget vb).get i)
/-- VCMP (R72, R74): all elements; p0 cannot be written. -/
def execVcmp (z : Zx) (p : Fin 4) (va vb : Fin 8) (cond : Fin 8) (conj : Bool) (s : State) : Out :=
  s.vec z fun l x c s =>
    if p = 0 then s.raise z.agent 2 0
    else
      let bits := bitsOf (fun i =>
        (if h : i < 8 then vCond cond.val ((x.vget va).get ⟨i, h⟩) ((x.vget vb).get ⟨i, h⟩) else false) &&
          (!conj || (x.pget p).getLsbD i)) 8
      (s.modLane l fun x => x.pput p (BitVec.ofNat 8 bits)).done z.agent c

/-! ### Loads and stores (R73) -/

/-- Address of an element. -/
def vAddr (base : W) (mode i : Nat) : W :=
  if mode = 0 then base + wn (4 * i) else if mode = 1 then base + wn (64 * i) else if mode = 2 then base + wn (2 * i) else base

/-- Bytes of an element's access. -/
def vBytes (mode : Nat) : Nat := if mode = 2 then 2 else 4

/-- What an access to the active elements in ascending order meets first: an exception with its address and whether tile memory
raised it, or a stall (R54, R69, R72). -/
inductive VTrouble where
  | exc (cause : Byte) (ea : W) (tile : Bool)
  | stall (off n : Nat)
deriving DecidableEq, Repr

def VTrouble.isStall : VTrouble → Bool
  | .stall _ _ => true
  | .exc _ _ _ => false

def State.vCheck (s : State) (ag : Agent) (ea : W) (n : Nat) (whole : Bool) : Option VTrouble :=
  if ea.toNat % n ≠ 0 then some (.exc 3 ea false)
  else match placeAt ag ea.toNat n with
    | none => some (.exc 4 ea false)
    | some pl =>
      if s.stalls ag pl n then some (.stall pl.off n)
      else if !whole && s.wordBad ag pl then some (.exc 5 ea pl.isTile)
      else none

/-- The elements an access concerns. -/
def vActive (pr : Byte) : List (Fin 8) := (allFin 8).filter fun i => pr.getLsbD i.val

/-- The exception of the lowest-numbered active element that has one, or else a stall (DESIGN CHOICE: R73 gives no order; log entry 189). -/
def State.vTrouble (s : State) (ag : Agent) (eas : List W) (n : Nat) (whole : Bool) : Option VTrouble :=
  let l := eas.filterMap fun ea => s.vCheck ag ea n whole
  match l.find? fun t => !t.isStall with
  | some t => some t
  | none => l.head?

/-- Does what the trouble asks. -/
def State.vTroubled (s : State) (l : LaneNo) (c : Ctx) (t : VTrouble) : State :=
  match t with
  | .exc cause ea tile => s.laneException l cause ea tile
  | .stall off n => s.blockOn (.lane l) c (.interlock off n)

/-- VLD (R73). -/
def execVld (z : Zx) (p : Fin 4) (vd : Fin 8) (g : Reg) (mode : Fin 4) (off : BitVec 9) (s : State) : Out :=
  s.vec z fun l x c s =>
    let base := c.get g + wn (4 * off.toNat)
    let n := vBytes mode.val
    let act := vActive (x.pget p)
    let eas := act.map fun i => vAddr base mode.val i.val
    match s.vTrouble z.agent eas n false with
    | some t => s.vTroubled l c t
    | none =>
      let s := forEach eas (fun ea t =>
        match placeAt z.agent ea.toNat n with
        | some pl => t.softFix z.agent pl
        | none => t) s
      s.vdone l c p vd (vecOf fun i =>
        match placeAt z.agent (vAddr base mode.val i.val).toNat n with
        | some pl => wn (s.loadAt z.agent pl n)
        | none => 0)

/-- VST (R73): broadcast mode is an illegal operand; elements are stored in ascending order. -/
def execVst (z : Zx) (p : Fin 4) (vd : Fin 8) (g : Reg) (mode : Fin 4) (off : BitVec 9) (s : State) : Out :=
  s.vec z fun l x c s =>
    if mode.val = 3 then s.raise z.agent 2 0
    else
      let base := c.get g + wn (4 * off.toNat)
      let n := vBytes mode.val
      let act := vActive (x.pget p)
      match s.vTrouble z.agent (act.map fun i => vAddr base mode.val i.val) n (n == 4) with
      | some t => s.vTroubled l c t
      | none =>
        (forEach act (fun i t =>
          match placeAt z.agent (vAddr base mode.val i.val).toNat n with
          | some pl => (if n = 4 then t else t.softFix z.agent pl).storeAt z.agent pl ((wordBytes ((x.vget vd).get i)).take n)
          | none => t) s).done z.agent c

end Sys2Proof.Machine
end

