-- ==== Sys2Proof/Machine/Dispatch.lean ====
section
/-! DEFINITION. One arm per command: each calls the meaning of its command. -/
namespace Sys2Proof.Machine

def exec (i : Instr) (s : State) : Host.Outcome State Fault Refusal :=
  match i with
  | .add z f d a b => Sys2Proof.Machine.execAdd z f d a b s
  | .sub z f d a b => Sys2Proof.Machine.execSub z f d a b s
  | .and z f d a b => Sys2Proof.Machine.execAnd z f d a b s
  | .or z f d a b => Sys2Proof.Machine.execOr z f d a b s
  | .xor z f d a b => Sys2Proof.Machine.execXor z f d a b s
  | .shl z f d a b => Sys2Proof.Machine.execShl z f d a b s
  | .shr z f d a b => Sys2Proof.Machine.execShr z f d a b s
  | .sra z f d a b => Sys2Proof.Machine.execSra z f d a b s
  | .mul z f d a b => Sys2Proof.Machine.execMul z f d a b s
  | .mulh z f d a b => Sys2Proof.Machine.execMulh z f d a b s
  | .min z f d a b => Sys2Proof.Machine.execMin z f d a b s
  | .max z f d a b => Sys2Proof.Machine.execMax z f d a b s
  | .clamp z f d a b => Sys2Proof.Machine.execClamp z f d a b s
  | .sel z cond d a b => Sys2Proof.Machine.execSel z cond d a b s
  | .addi z d a imm => Sys2Proof.Machine.execAddi z d a imm s
  | .andi z d a imm => Sys2Proof.Machine.execAndi z d a imm s
  | .ori z d a imm => Sys2Proof.Machine.execOri z d a imm s
  | .xori z d a imm => Sys2Proof.Machine.execXori z d a imm s
  | .shli z d a sh => Sys2Proof.Machine.execShli z d a sh s
  | .shri z d a sh => Sys2Proof.Machine.execShri z d a sh s
  | .srai z d a sh => Sys2Proof.Machine.execSrai z d a sh s
  | .lui z d imm => Sys2Proof.Machine.execLui z d imm s
  | .cmpi z a imm => Sys2Proof.Machine.execCmpi z a imm s
  | .ldW z d a imm => Sys2Proof.Machine.execLdW z d a imm s
  | .ldH z d a imm => Sys2Proof.Machine.execLdH z d a imm s
  | .ldHs z d a imm => Sys2Proof.Machine.execLdHs z d a imm s
  | .ldB z d a imm => Sys2Proof.Machine.execLdB z d a imm s
  | .ldBs z d a imm => Sys2Proof.Machine.execLdBs z d a imm s
  | .stW z d a imm => Sys2Proof.Machine.execStW z d a imm s
  | .stH z d a imm => Sys2Proof.Machine.execStH z d a imm s
  | .stB z d a imm => Sys2Proof.Machine.execStB z d a imm s
  | .ldPb z d a imm => Sys2Proof.Machine.execLdPb z d a imm s
  | .param z d a imm => Sys2Proof.Machine.execParam z d a imm s
  | .commit z blk => Sys2Proof.Machine.execCommit z blk s
  | .bcc z cond off => Sys2Proof.Machine.execBcc z cond off s
  | .call z cond off => Sys2Proof.Machine.execCall z cond off s
  | .ret z a => Sys2Proof.Machine.execRet z a s
  | .loop z a imm => Sys2Proof.Machine.execLoop z a imm s
  | .wait z d a => Sys2Proof.Machine.execWait z d a s
  | .waitResume ag c => Sys2Proof.Machine.execWaitResume ag c s
  | .yield z => Sys2Proof.Machine.execYield z s
  | .mer z d imm => Sys2Proof.Machine.execMer z d imm s
  | .merResume e c => Sys2Proof.Machine.execMerResume e c s
  | .send z a ch dst => Sys2Proof.Machine.execSend z a ch dst s
  | .sendUnblock e c => Sys2Proof.Machine.execSendUnblock e c s
  | .messageDelivery e k => Sys2Proof.Machine.execMessageDelivery e k s
  | .recv z d ch nb => Sys2Proof.Machine.execRecv z d ch nb s
  | .recvResume e c => Sys2Proof.Machine.execRecvResume e c s
  | .tileLd z d a b => Sys2Proof.Machine.execTileLd z d a b s
  | .tileSt z d a b => Sys2Proof.Machine.execTileSt z d a b s
  | .tileTransferComplete ag c tag => Sys2Proof.Machine.execTileTransferComplete ag c tag s
  | .svcStartTransit z d a => Sys2Proof.Machine.execSvcStartTransit z d a s
  | .svcSelfTest z d a => Sys2Proof.Machine.execSvcSelfTest z d a s
  | .svcNoteRecord z d a => Sys2Proof.Machine.execSvcNoteRecord z d a s
  | .svcRequestRetirement z d a => Sys2Proof.Machine.execSvcRequestRetirement z d a s
  | .svcReadAgreedTime z d a => Sys2Proof.Machine.execSvcReadAgreedTime z d a s
  | .post z imm => Sys2Proof.Machine.execPost z imm s
  | .vld z p vd g mode off => Sys2Proof.Machine.execVld z p vd g mode off s
  | .vst z p vd g mode off => Sys2Proof.Machine.execVst z p vd g mode off s
  | .vadd z p vd va vb mode => Sys2Proof.Machine.execVadd z p vd va vb mode s
  | .vsub z p vd va vb mode => Sys2Proof.Machine.execVsub z p vd va vb mode s
  | .vmul z p vd va vb sh mode u32 => Sys2Proof.Machine.execVmul z p vd va vb sh mode u32 s
  | .vmac z p vd va vb sh mode u32 sub => Sys2Proof.Machine.execVmac z p vd va vb sh mode u32 sub s
  | .vpoly z p vd va vb s1 s2 sub => Sys2Proof.Machine.execVpoly z p vd va vb s1 s2 sub s
  | .vmed3 z p vd va vb uns => Sys2Proof.Machine.execVmed3 z p vd va vb uns s
  | .vclamp z p vd va vb uns => Sys2Proof.Machine.execVclamp z p vd va vb uns s
  | .vsel z p vd va vb => Sys2Proof.Machine.execVsel z p vd va vb s
  | .vcmp z p va vb cond conj => Sys2Proof.Machine.execVcmp z p va vb cond conj s
  | .vshr z p vd va sh mode width sgn round => Sys2Proof.Machine.execVshr z p vd va sh mode width sgn round s
  | .vsat z p vd va width sgn => Sys2Proof.Machine.execVsat z p vd va width sgn s
  | .resetRelease bootsel role => Sys2Proof.Machine.execResetRelease bootsel role s
  | .bootLoadComplete copy0 copy1 => Sys2Proof.Machine.execBootLoadComplete copy0 copy1 s
  | .bootImageTimeout => Sys2Proof.Machine.execBootImageTimeout s
  | .meRestartDone => Sys2Proof.Machine.execMeRestartDone s
  | .go => Sys2Proof.Machine.execGo s
  | .loadGoDone => Sys2Proof.Machine.execLoadGoDone s
  | .startEngine code => Sys2Proof.Machine.execStartEngine code s
  | .stopEngine code => Sys2Proof.Machine.execStopEngine code s
  | .abortStop code => Sys2Proof.Machine.execAbortStop code s
  | .loadWindowWrite off ws => Sys2Proof.Machine.execLoadWindowWrite off ws s
  | .cmdSubmit addr ws => Sys2Proof.Machine.execCmdSubmit addr ws s
  | .cmdEntryDeliver => Sys2Proof.Machine.execCmdEntryDeliver s
  | .completionPlace => Sys2Proof.Machine.execCompletionPlace s
  | .cplCiWrite v => Sys2Proof.Machine.execCplCiWrite v s
  | .paramBlockIdleApply blk => Sys2Proof.Machine.execParamBlockIdleApply blk s
  | .frameStart p vc ecc fno => Sys2Proof.Machine.execFrameStart p vc ecc fno s
  | .frameEnd p vc ecc fno => Sys2Proof.Machine.execFrameEnd p vc ecc fno s
  | .frameTimeout p => Sys2Proof.Machine.execFrameTimeout p s
  | .stallTimeout p => Sys2Proof.Machine.execStallTimeout p s
  | .lineStart p vc ecc num => Sys2Proof.Machine.execLineStart p vc ecc num s
  | .rowPacket p k => Sys2Proof.Machine.execRowPacket p k s
  | .embeddedData p k => Sys2Proof.Machine.execEmbeddedData p k s
  | .hsSyncError p align dt => Sys2Proof.Machine.execHsSyncError p align dt s
  | .skewCalibration p => Sys2Proof.Machine.execSkewCalibration p s
  | .ulpsTransition p => Sys2Proof.Machine.execUlpsTransition p s
  | .settingsWindowClose p => Sys2Proof.Machine.execSettingsWindowClose p s
  | .portSelfTest p => Sys2Proof.Machine.execPortSelfTest p s
  | .hearthInvocation p tail l row col whole => Sys2Proof.Machine.execHearthInvocation p tail l row col whole s
  | .radiometricRow p tail l row => Sys2Proof.Machine.execRadiometricRow p tail l row s
  | .statsNotifyDeliver p => Sys2Proof.Machine.execStatsNotifyDeliver p s
  | .frameDeadline p => Sys2Proof.Machine.execFrameDeadline p s
  | .invocationTimeout l => Sys2Proof.Machine.execInvocationTimeout l s
  | .transitCloseTimeout => Sys2Proof.Machine.execTransitCloseTimeout s
  | .transitOpenTimeout => Sys2Proof.Machine.execTransitOpenTimeout s
  | .transitAccumulate l row col => Sys2Proof.Machine.execTransitAccumulate l row col s
  | .transitFinish l row col => Sys2Proof.Machine.execTransitFinish l row col s
  | .transitStagingComplete => Sys2Proof.Machine.execTransitStagingComplete s
  | .transitMergeRow p row => Sys2Proof.Machine.execTransitMergeRow p row s
  | .productionLoadDone flash readError => Sys2Proof.Machine.execProductionLoadDone flash readError s
  | .selfTrimPass m => Sys2Proof.Machine.execSelfTrimPass m s
  | .rowCopyDone ch bank row => Sys2Proof.Machine.execRowCopyDone ch bank row s
  | .rowCopyBackDone ch bank row => Sys2Proof.Machine.execRowCopyBackDone ch bank row s
  | .migrationBlockMove => Sys2Proof.Machine.execMigrationBlockMove s
  | .scrubRead addr => Sys2Proof.Machine.execScrubRead addr s
  | .scrubLate => Sys2Proof.Machine.execScrubLate s
  | .apertureWrite addr ws => Sys2Proof.Machine.execApertureWrite addr ws s
  | .apertureRead addr n => Sys2Proof.Machine.execApertureRead addr n s
  | .streamFrameStart st => Sys2Proof.Machine.execStreamFrameStart st s
  | .streamLineSend st => Sys2Proof.Machine.execStreamLineSend st s
  | .txPacket x => Sys2Proof.Machine.execTxPacket x s
  | .txUlpsEntry x => Sys2Proof.Machine.execTxUlpsEntry x s
  | .unitDrained u => Sys2Proof.Machine.execUnitDrained u s
  | .selfTestDone u pass leftUs wide => Sys2Proof.Machine.execSelfTestDone u pass leftUs s wide
  | .sensorRecheck t reading => Sys2Proof.Machine.execSensorRecheck t reading s
  | .fmMapClear v => Sys2Proof.Machine.execFmMapClear v s
  | .heartbeatSend => Sys2Proof.Machine.execHeartbeatSend s
  | .heartbeat w0 w1 w2 w3 h => Sys2Proof.Machine.execHeartbeat w0 w1 w2 w3 s h
  | .hello ws h => Sys2Proof.Machine.execHello ws s h
  | .propose ws h => Sys2Proof.Machine.execPropose ws s h
  | .agreeSend p => Sys2Proof.Machine.execAgreeSend p s
  | .agree ws h => Sys2Proof.Machine.execAgree ws s h
  | .digest p frame es portCrc h => Sys2Proof.Machine.execDigest p frame es portCrc s h
  | .outcome p tile frame laneFail tileFail h => Sys2Proof.Machine.execOutcome p tile frame laneFail tileFail s h
  | .state r h => Sys2Proof.Machine.execState r s h
  | .resyncRowInstall p row => Sys2Proof.Machine.execResyncRowInstall p row s
  | .resyncRowSend p row => Sys2Proof.Machine.execResyncRowSend p row s
  | .almanac ws h => Sys2Proof.Machine.execAlmanac ws s h
  | .nvwrite page off bs h => Sys2Proof.Machine.execNvwrite page off bs s h
  | .msg ch w h => Sys2Proof.Machine.execMsg ch w s h
  | .image bs h => Sys2Proof.Machine.execImage bs s h
  | .ack h => Sys2Proof.Machine.execAck h s
  | .ackSend => Sys2Proof.Machine.execAckSend s
  | .linkResend => Sys2Proof.Machine.execLinkResend s
  | .linkTrained request => Sys2Proof.Machine.execLinkTrained s request
  | .linkRetrain => Sys2Proof.Machine.execLinkRetrain s
  | .pairingTimeout => Sys2Proof.Machine.execPairingTimeout s
  | .partnerLost => Sys2Proof.Machine.execPartnerLost s
  | .peerOwnerChange level => Sys2Proof.Machine.execPeerOwnerChange level s
  | .ownerWatchdogExpire => Sys2Proof.Machine.execOwnerWatchdogExpire s
  | .sextantTrigger m timeUs => Sys2Proof.Machine.execSextantTrigger m timeUs s
  | .sequenceStart m => Sys2Proof.Machine.execSequenceStart m s
  | .sextantConversion m c => Sys2Proof.Machine.execSextantConversion m c s
  | .sextantDrain m => Sys2Proof.Machine.execSextantDrain m s
  | .resLoRead m => Sys2Proof.Machine.execResLoRead m s
  | .accLoRead m => Sys2Proof.Machine.execAccLoRead m s
  | .lastLoRead e => Sys2Proof.Machine.execLastLoRead e s
  | .sxAccClr v => Sys2Proof.Machine.execSxAccClr v s
  | .bellowsLoopPeriod c ma => Sys2Proof.Machine.execBellowsLoopPeriod c ma s
  | .pullInEnd c ma => Sys2Proof.Machine.execPullInEnd c ma s
  | .holdEnd c => Sys2Proof.Machine.execHoldEnd c s
  | .releaseEnd c => Sys2Proof.Machine.execReleaseEnd c s
  | .openSettleEnd c => Sys2Proof.Machine.execOpenSettleEnd c s
  | .positionReport c level => Sys2Proof.Machine.execPositionReport c level s
  | .testPulseEnd c r => Sys2Proof.Machine.execTestPulseEnd c r s
  | .bellowsOvercurrent c => Sys2Proof.Machine.execBellowsOvercurrent c s
  | .bellowsRegulationError c => Sys2Proof.Machine.execBellowsRegulationError c s
  | .switchFault k => Sys2Proof.Machine.execSwitchFault k s
  | .sensorReading t reading => Sys2Proof.Machine.execSensorReading t reading s
  | .stageUp zn => Sys2Proof.Machine.execStageUp zn s
  | .stageDown zn => Sys2Proof.Machine.execStageDown zn s
  | .powerFail => Sys2Proof.Machine.execPowerFail s
  | .railUndervoltage rail => Sys2Proof.Machine.execRailUndervoltage rail s
  | .handoverDone => Sys2Proof.Machine.execHandoverDone s
  | .logicDiePowerLoss counters records => Sys2Proof.Machine.execLogicDiePowerLoss counters records s
  | .powerFailRelease bootsel role => Sys2Proof.Machine.execPowerFailRelease bootsel role s
  | .powerOnReset groups => Sys2Proof.Machine.execPowerOnReset groups s
  | .deviceReset => Sys2Proof.Machine.execDeviceReset s
  | .hostWriteSingle addr ws cut => Sys2Proof.Machine.execHostWriteSingle addr ws cut s
  | .hostWriteQuad addr ws cut => Sys2Proof.Machine.execHostWriteQuad addr ws cut s
  | .hostReadSingle addr n cut => Sys2Proof.Machine.execHostReadSingle addr n cut s
  | .hostReadQuad addr n cut => Sys2Proof.Machine.execHostReadQuad addr n cut s
  | .hostStatus n => Sys2Proof.Machine.execHostStatus n s
  | .hostUnknownCommand cmd => Sys2Proof.Machine.execHostUnknownCommand cmd s
  | .hostWriteApply => Sys2Proof.Machine.execHostWriteApply s
  | .hrdyTimeout => Sys2Proof.Machine.execHrdyTimeout s
  | .mp0CommandStart => Sys2Proof.Machine.execMp0CommandStart s
  | .mp0CommandDone bs => Sys2Proof.Machine.execMp0CommandDone bs s
  | .mp0PollTimeout => Sys2Proof.Machine.execMp0PollTimeout s
  | .mp0Hgo v => Sys2Proof.Machine.execMp0Hgo v s
  | .mp0CfgWrite rdcmd v => Sys2Proof.Machine.execMp0CfgWrite rdcmd v s
  | .mp1TransferStart sinceUs10 rested => Sys2Proof.Machine.execMp1TransferStart sinceUs10 rested s
  | .mp1TransferEnd rx late => Sys2Proof.Machine.execMp1TransferEnd rx late s
  | .mp1ReadyTimeout => Sys2Proof.Machine.execMp1ReadyTimeout s
  | .mpSwsel v => Sys2Proof.Machine.execMpSwsel v s
  | .almanacRecordEnter => Sys2Proof.Machine.execAlmanacRecordEnter s
  | .nvPageWriteDone => Sys2Proof.Machine.execNvPageWriteDone s
  | .flush => Sys2Proof.Machine.execFlush s
  | .almClear v => Sys2Proof.Machine.execAlmClear v s
  | .almWinLastRead => Sys2Proof.Machine.execAlmWinLastRead s
  | .nvWinWrite off ws => Sys2Proof.Machine.execNvWinWrite off ws s
  | .nvPwinWrite off ws => Sys2Proof.Machine.execNvPwinWrite off ws s
  | .nvUnlock ws => Sys2Proof.Machine.execNvUnlock ws s
  | .nvLock v => Sys2Proof.Machine.execNvLock v s
  | .nvPwset ws => Sys2Proof.Machine.execNvPwset ws s
  | .nvSecWrite off ws => Sys2Proof.Machine.execNvSecWrite off ws s
  | .nvLockoutEnd r write => Sys2Proof.Machine.execNvLockoutEnd r write s
  | .counterSave => Sys2Proof.Machine.execCounterSave s
  | .optimeTick => Sys2Proof.Machine.execOptimeTick s
  | .refclkLost => Sys2Proof.Machine.execRefclkLost s
  | .refclkRestored => Sys2Proof.Machine.execRefclkRestored s
  | .pllLocked k => Sys2Proof.Machine.execPllLocked k s
  | .portClockSwitch p backup => Sys2Proof.Machine.execPortClockSwitch p backup s
  | .dcoRestart k => Sys2Proof.Machine.execDcoRestart k s
  | .islandResetRelease idx => Sys2Proof.Machine.execIslandResetRelease idx s
  | .laenoPacketSend => Sys2Proof.Machine.execLaenoPacketSend s
  | .laenoSync => Sys2Proof.Machine.execLaenoSync s
  | .laenoCounterSample => Sys2Proof.Machine.execLaenoCounterSample s
  | .laenoCtlWrite v => Sys2Proof.Machine.execLaenoCtlWrite v s
  | .counterLoRead idx => Sys2Proof.Machine.execCounterLoRead idx s
  | .stkCeLoRead => Sys2Proof.Machine.execStkCeLoRead s
  | .twinPeerSnLoRead => Sys2Proof.Machine.execTwinPeerSnLoRead s
  | .serialLoRead => Sys2Proof.Machine.execSerialLoRead s
  | .optimeLoRead => Sys2Proof.Machine.execOptimeLoRead s
  | .agreedLoRead => Sys2Proof.Machine.execAgreedLoRead s
  | .storeInitDone => Sys2Proof.Machine.execStoreInitDone s
  | .pfailNRise bootsel role inRange => Sys2Proof.Machine.execPfailNRise bootsel role s inRange
  | .sensorReadingMissing t => Sys2Proof.Machine.execSensorReadingMissing t s
  | .pllLockLost k => Sys2Proof.Machine.execPllLockLost k s
  | .islandClockOutOfRange fabric => Sys2Proof.Machine.execIslandClockOutOfRange fabric s
  | .vactUndervoltage low => Sys2Proof.Machine.execVactUndervoltage low s
  | .ownerWatchdogRefresh => Sys2Proof.Machine.execOwnerWatchdogRefresh s
  | .pwrVcoreUpdate mv => Sys2Proof.Machine.execPwrVcoreUpdate mv s
  | .retryBudgetOverrun u => Sys2Proof.Machine.execRetryBudgetOverrun u s
  | .tileInterlockStall l => Sys2Proof.Machine.execTileInterlockStall l s

end Sys2Proof.Machine
end

