-- ==== Sys2Proof/Safety.lean ====
section
/-! DEFINITION. What the statements about runs are made of: a command completes, and the state's byte memories are in their one
canonical form. -/
namespace Sys2Proof.Machine

/-- The outcome is a next state. -/
def Completes (o : Host.Outcome State Fault Refusal) : Prop := ∃ t, o = .next t

/-- The memories of an engine are canonical. -/
def Engine.memsOk (e : Engine) : Bool := e.prog.wf && e.data.wf

/-- The memories of a cluster are canonical. -/
def Cluster.memsOk (k : Cluster) : Bool := k.kernel.wf && k.tile.wf

/-- Every byte memory of the machine is in its canonical form: addresses rising, no zero byte listed (R240, log entry 2). -/
def State.memsOk (s : State) : Prop :=
  s.store.mem.wf = true ∧ s.nv.mem.wf = true ∧ s.serial.hbuf.wf = true ∧ (∀ e, (s.eng e).memsOk = true) ∧
    (∀ l, (s.lane l).loc.wf = true) ∧ ∀ k, (s.cluster k).memsOk = true

/-! ### What the statements about instructions are made of (R41–R78) -/

/-- The agent's next instruction is fetched whole and none of its reserved bits is set (R42, R43, R48, R59): the agent runs, its program
counter lies inside its program memory, the word is not uncorrectable. -/
def State.mayExecute (s : State) (z : Zx) : Prop :=
  s.runs z.agent = true ∧ fetchOut z.agent (s.ctxOf z.agent).pc = false ∧
    (s.fetchErr z.agent (s.ctxOf z.agent).pc).1 = false ∧ z.flaw = .none

/-- The state after the fetch: a single-bit error of the word is corrected and reported (R43). -/
def State.fetched (s : State) (z : Zx) : State :=
  if (s.fetchErr z.agent (s.ctxOf z.agent).pc).2 then s.fetchFix z.agent (s.ctxOf z.agent).pc else s

/-- The context that executes, after the fetch. -/
def State.cx (s : State) (z : Zx) : Ctx := (s.fetched z).ctxOf z.agent

/-- Nothing but the executing context changes, to `f` of it, and execution goes on in program order (R60). -/
def State.stepCtx (s : State) (z : Zx) (f : Ctx → Ctx) : State := (s.fetched z).putCtx z.agent (f (s.cx z)).advance

/-- Nothing but the executing context changes, to `f` of it, which says where execution goes on. -/
def State.jumpCtx (s : State) (z : Zx) (f : Ctx → Ctx) : State := (s.fetched z).putCtx z.agent (f (s.cx z))

/-- From `s` to `t` nothing changes but engine `e` and what the trace port makes of it (R46, R480); no event occurs. -/
def State.onlyEng (s t : State) (e : Eng) : Prop :=
  t = { s with engines := t.engines, events := t.events, freeCtr := t.freeCtr } ∧ (∀ d, d ≠ e → t.eng d = s.eng d) ∧
    t.events.pend = s.events.pend ∧ t.events.ovr = s.events.ovr

/-- Register `d` takes `r`; Z and N are set from it where F is 1, C and V are kept (R50, R52). -/
def Ctx.setZN (c : Ctx) (f : Bool) (d : Reg) (r : W) : Ctx :=
  (if f then { c with z := decide (r = 0), n := decide (r.toInt < 0) } else c).put d r

/-- Register `d` takes `r`; Z and N are set from it, C and V as given, where F is 1 (R50, R52). -/
def Ctx.setFlags (c : Ctx) (f : Bool) (d : Reg) (r : W) (cy ov : Bool) : Ctx :=
  (if f then { c with z := decide (r = 0), n := decide (r.toInt < 0), c := cy, v := ov } else c).put d r

/-- An access of `n` bytes at `ea` goes through (R54, R69): aligned, inside the agent's memories at `pl`, meeting no outstanding transfer
and, unless it writes a whole word, no uncorrectable word. -/
def State.accessOk (s : State) (z : Zx) (ea : W) (n : Nat) (whole : Bool) (pl : Place) : Prop :=
  ea.toNat % n = 0 ∧ placeAt z.agent ea.toNat n = some pl ∧ (s.fetched z).stalls z.agent pl n = false ∧
    (whole = false → (s.fetched z).wordBad z.agent pl = false)

/-- The active elements of vd take `f` of the elements of vd, va and vb, and the lane goes on (R72). -/
def State.vecStep (s : State) (l : LaneNo) (p : Fin 4) (vd va vb : Fin 8) (f : W → W → W → W) : State :=
  (s.fetched ⟨.lane l, .none⟩).modLane l fun x =>
    { x with
      v := x.v.set vd (Vector.ofFn fun i =>
        if (x.pget p).getLsbD i.val then f ((x.v.get vd).get i) ((x.v.get va).get i) ((x.v.get vb).get i) else (x.v.get vd).get i)
      ctx := x.ctx.advance }

/-- A number outside the range of a signed word. -/
def overflows (x : Int) : Bool := decide (x < -2 ^ 31) || decide (2 ^ 31 ≤ x)

/-! ### What the statements about the host port are made of (R399–R404) -/

/-- The host port takes frames, READY is 1, no write frame waits and no read frame is still to be judged (R400, R402, R403). -/
def State.hostIdle (s : State) : Prop := s.hostUp = true ∧ s.hostReady = true ∧ s.serial.bufs = [] ∧ s.serial.readEnd = none

/-- The state in which an admitted frame is applied or sampled: its status byte driven out, REJ cleared (R400). -/
def State.framed (s : State) : State := s.hostBegin.hostAdmit

/-- No functional reset holds the logic die (R387, R464). -/
def State.up (s : State) : Prop := s.thermal.held = false

/-- The words that the port drives out (R399). -/
def State.answers (s : State) (ws : List W) : State := s.modSerial fun x => { x with wordsOut := ws }

/-- A sequenced frame that is the next in order (R315): the link is trained, the frame's CRC right, its number the expected one. -/
def State.heard (s : State) (h : RxHdr) : Prop :=
  s.up ∧ s.twin.trained = true ∧ h.crcOk = true ∧ h.seq = (s.rxAck h.ack).twin.rxSeq

/-- A port that receives packets of its virtual channel (R114, R115). -/
def State.hears (s : State) (p : Port) (vc : BitVec 2) : Prop :=
  s.thermal.held = false ∧ (s.port p).st ≠ .off ∧ vc.toNat = s.params.force.vc p

end Sys2Proof.Machine
end

