-- ==== Sys2Proof/Certificates/Slice0/Obligations.lean ====
section
/-! DEFINITION. The statements for the provers. Each docstring names the rules of the spec that it comes from. -/
open Sys2Proof Sys2Proof.Machine

/-! ### The block (log entries 1 and 2) -/

/-- A step takes the command at the front of the queue and is its effect on the state with the queue's rest; with no command waiting the
block idles (log entry 1: the model's choice). -/
def Obligations.StepRunsTheFrontCommand : Prop :=
  ∀ (s : State) (c : Instr) (q : List Instr),
    step { s with pending := c :: q } = exec c { s with pending := q } ∧
    step { s with pending := [] } = .next { s with pending := [] }

/-- R486, R400, R399, R447: the machine in reset as a host port would show it: the identity and status words, regions closed, no unit in
service, no command waiting; every memory is canonical. That a port's meridian count is 0 there is the model's choice (log entry 26), and so is
the memories' form (log entry 2). -/
def Obligations.ResetState : Prop :=
  let s := State.reset
  s.pending = [] ∧ s.memsOk ∧ (s.hostWord 0x0).1 = some 0x01119640 ∧ (s.hostWord 0x4).1 = some 0 ∧ (s.hostWord 0x10).1 = some 0x00000008 ∧
    (s.hostWord 0x80).1 = some 0 ∧ (∀ p : Port, (s.port p).st = .off ∧ (s.port p).mer = 0) ∧ s.nv.openR = 0 ∧ s.nv.openW = 0 ∧
    s.boot.boot = false ∧ s.twin.owner = false ∧ s.fm.fault = false ∧ (∀ e, (s.eng e).st = 0) ∧ (∀ g, s.events.pend.get g = 0)

/-- Every command completes, and the queue is first in, first out: whatever waits at the front, the step answers a next state, in which
the queue's rest waits, in its order (log entry 1). -/
def Obligations.EveryStepLeavesTheRestOfTheQueue : Prop :=
  ∀ (s : State) (c : Instr) (q : List Instr), s.pending = c :: q → ∃ t, step s = .next t ∧ t.pending = q

/-- Whatever command runs, every byte memory of the machine stays in its one canonical form: its addresses rise and no zero byte is listed
(R240, log entry 2), so that equal memories are equal data. -/
def Obligations.StepKeepsMemoriesCanonical : Prop :=
  ∀ s t : State, s.memsOk → step s = .next t → t.memsOk

/-! ### The instruction words (R47–R49) -/

/-- R47, R48, R49, R52, R53, R70, R73, R74: the words of Zhomunyx programs. Every Zhomunyx command has a word, decoding that word gives the command
back with every operand, and a word that decodes to a command without flaw is that command's word: no bit of an encoding is dropped, and no
other word stands for the command. -/
def Obligations.EncodingsRoundTrip : Prop :=
  (∀ (i : Instr) (z : Zx), zxOfInstr i = some z →
    ∃ w, zxEncode i = some w ∧ (z.flaw = .none → zxDecode z.agent w = i)) ∧
  (∀ (ag : Agent) (w : W), ∃ z, zxOfInstr (zxDecode ag w) = some z ∧ z.agent = ag ∧
    (z.flaw = .none → zxEncode (zxDecode ag w) = some w))

/-! ### Instructions (R41–R78) -/

/-- R42, R43, R48, R59, R70: before anything else of an instruction, its fetch is judged. With the program counter outside program memory
the agent takes exception 0x06, with an uncorrectable word exception 0x05, with a reserved bit set exception 0x01, with a service code that
the table does not give exception 0x07. -/
def Obligations.FetchTrapsComeFirst : Prop :=
  ∀ (s : State) (i : Instr) (z : Zx), zxOfInstr i = some z → s.runs z.agent = true →
    let out := fetchOut z.agent (s.ctxOf z.agent).pc
    let err := s.fetchErr z.agent (s.ctxOf z.agent).pc
    (out = true → exec i s = .next (s.raise z.agent 6 0)) ∧
    (out = false → err.1 = true → exec i s = .next (s.raise z.agent 5 0)) ∧
    (out = false → err.1 = false → z.flaw = .reserved → exec i s = .next ((s.fetched z).raise z.agent 1 0)) ∧
    (∀ (e : Eng) (d a : Reg), out = false → err.1 = false → z = ⟨.eng e, .service⟩ →
      exec (.svcStartTransit z d a) s = .next ((s.fetched z).raise z.agent 7 0))

/-- R59, R78: RET to a target that is no multiple of 4 raises exception 0x03. An exception stops an engine with all its contexts; the cause,
the address and word of the instruction and the data address are captured, and that the data address of RET is its target is the model's choice
(log entry 190). -/
def Obligations.EngineExceptionCaptures : Prop :=
  ∀ (s : State) (e : Eng) (a : Reg), s.mayExecute ⟨.eng e, .none⟩ →
    let z : Zx := ⟨.eng e, .none⟩
    let target := (s.cx z).get a
    target.toNat % 4 ≠ 0 →
    ∃ t, exec (.ret z a) s = .next t ∧ t = (s.fetched z).raise z.agent 3 target ∧ (t.eng e).st = 4 ∧
      (t.eng e).exc = ⟨3, (s.cx z).pc, Mem.word (s.eng e).prog (s.cx z).pc.toNat, target⟩

/-- R44: g0 reads as zero and a write of it is discarded; another register holds what was written, and the others keep theirs. -/
def Obligations.RegisterZeroIsHardWired : Prop :=
  ∀ (c : Ctx) (r q : Reg) (w : W),
    c.get 0 = 0 ∧ c.put 0 w = c ∧ (r ≠ 0 → (c.put r w).get r = w) ∧ (q ≠ r → (c.put r w).get q = c.get q)

/-- R50, R52, R53: ADD, SUB and CMPI wrap modulo 2^32; with F set, Z and N follow the result, C is the carry out or no borrow, and V says that the
exact signed sum or difference does not fit. -/
def Obligations.AddSubtractCompareWithFlags : Prop :=
  ∀ (s : State) (z : Zx) (f : Bool) (d a b : Reg) (imm : BitVec 18), s.mayExecute z →
    let y := (s.cx z).get a
    let w := (s.cx z).get b
    exec (.add z f d a b) s = .next (s.stepCtx z fun c =>
      c.setFlags f d (wn (y.toNat + w.toNat)) (decide (2 ^ 32 ≤ y.toNat + w.toNat)) (overflows (y.toInt + w.toInt))) ∧
    exec (.sub z f d a b) s = .next (s.stepCtx z fun c =>
      c.setFlags f d (wi (y.toInt - w.toInt)) (decide (w.toNat ≤ y.toNat)) (overflows (y.toInt - w.toInt))) ∧
    exec (.cmpi z a imm) s = .next (s.stepCtx z fun c =>
      c.setFlags true 0 (wi (y.toInt - imm.toInt)) (decide ((imm.signExtend 32).toNat ≤ y.toNat)) (overflows (y.toInt - imm.toInt)))

/-- R50, R51, R53: after CMPI the condition codes order the two operands, signed (10 to 13) and unsigned (2, 3, 8, 9). -/
def Obligations.ConditionsOrderTheOperands : Prop :=
  ∀ (s : State) (z : Zx) (a : Reg) (imm : BitVec 18), s.mayExecute z →
    let y := (s.cx z).get a
    let w : W := imm.signExtend 32
    ∃ t, exec (.cmpi z a imm) s = .next t ∧
      (let c := t.ctxOf z.agent
       (c.cond 0 ↔ y = w) ∧ (c.cond 1 ↔ y ≠ w) ∧ (c.cond 2 ↔ w.toNat ≤ y.toNat) ∧ (c.cond 3 ↔ y.toNat < w.toNat) ∧
       (c.cond 8 ↔ w.toNat < y.toNat) ∧ (c.cond 9 ↔ y.toNat ≤ w.toNat) ∧ (c.cond 10 ↔ w.toInt ≤ y.toInt) ∧
       (c.cond 11 ↔ y.toInt < w.toInt) ∧ (c.cond 12 ↔ w.toInt < y.toInt) ∧ (c.cond 13 ↔ y.toInt ≤ w.toInt) ∧ c.cond 14)

/-- R52: the logic functions, products, minimum, maximum and clamp; Z and N follow the result where F is 1, C and V never change.
R52, R53: the immediate ALU instructions and SEL change their register alone; condition 15 of SEL is an illegal operand (R51). -/
def Obligations.LogicProductsLimitsAndImmediates : Prop :=
  (∀ (s : State) (z : Zx) (f : Bool) (d a b : Reg), s.mayExecute z →
      let x := (s.cx z).get d
      let y := (s.cx z).get a
      let w := (s.cx z).get b
      exec (.and z f d a b) s = .next (s.stepCtx z fun c => c.setZN f d (y &&& w)) ∧
      exec (.or z f d a b) s = .next (s.stepCtx z fun c => c.setZN f d (y ||| w)) ∧
      exec (.xor z f d a b) s = .next (s.stepCtx z fun c => c.setZN f d (y ^^^ w)) ∧
      exec (.mul z f d a b) s = .next (s.stepCtx z fun c => c.setZN f d (wn (y.toNat * w.toNat))) ∧
      exec (.mulh z f d a b) s = .next (s.stepCtx z fun c => c.setZN f d (wi (y.toInt * w.toInt / 2 ^ 32))) ∧
      exec (.min z f d a b) s = .next (s.stepCtx z fun c => c.setZN f d (wi (min y.toInt w.toInt))) ∧
      exec (.max z f d a b) s = .next (s.stepCtx z fun c => c.setZN f d (wi (max y.toInt w.toInt))) ∧
      exec (.clamp z f d a b) s = .next (s.stepCtx z fun c => c.setZN f d (wi (min (max x.toInt y.toInt) w.toInt)))) ∧
  (∀ (s : State) (z : Zx) (d a b : Reg) (imm : BitVec 18) (cond : BitVec 4), s.mayExecute z →
      let y := (s.cx z).get a
      exec (.addi z d a imm) s = .next (s.stepCtx z fun c => c.put d (wi (y.toInt + imm.toInt))) ∧
      exec (.andi z d a imm) s = .next (s.stepCtx z fun c => c.put d (y &&& imm.signExtend 32)) ∧
      exec (.ori z d a imm) s = .next (s.stepCtx z fun c => c.put d (y ||| imm.signExtend 32)) ∧
      exec (.xori z d a imm) s = .next (s.stepCtx z fun c => c.put d (y ^^^ imm.signExtend 32)) ∧
      exec (.lui z d imm) s = .next (s.stepCtx z fun c => c.put d (imm.zeroExtend 32 <<< 14)) ∧
      (cond ≠ 15 → exec (.sel z cond d a b) s =
        .next (s.stepCtx z fun c => c.put d (if (s.cx z).cond cond then y else (s.cx z).get b))) ∧
      (cond = 15 → exec (.sel z cond d a b) s = .next ((s.fetched z).raise z.agent 2 0)))

/-- R52, R53: shifts by 0 to 63 as products and quotients by a power of two; C is the last bit shifted out, unchanged for amount 0; the
immediate forms change no flag. That SHL by 33 to 63 leaves C = 0 is the model's choice (log entry 129). -/
def Obligations.ShiftsAndTheirCarry : Prop :=
  ∀ (s : State) (z : Zx) (f : Bool) (d a b : Reg) (sh : BitVec 6), s.mayExecute z →
    let y := (s.cx z).get a
    let n := ((s.cx z).get b).toNat % 64
    let k := sh.toNat
    exec (.shl z f d a b) s = .next (s.stepCtx z fun c =>
      c.setFlags f d (wn (y.toNat * 2 ^ n)) (if n = 0 then c.c else decide (n ≤ 32) && bitOf y (32 - n)) c.v) ∧
    exec (.shr z f d a b) s = .next (s.stepCtx z fun c =>
      c.setFlags f d (wn (y.toNat / 2 ^ n)) (if n = 0 then c.c else bitOf y (n - 1)) c.v) ∧
    exec (.sra z f d a b) s = .next (s.stepCtx z fun c =>
      c.setFlags f d (wi (y.toInt / 2 ^ n)) (if n = 0 then c.c else bitOf y (min (n - 1) 31)) c.v) ∧
    exec (.shli z d a sh) s = .next (s.stepCtx z fun c => c.put d (wn (y.toNat * 2 ^ k))) ∧
    exec (.shri z d a sh) s = .next (s.stepCtx z fun c => c.put d (wn (y.toNat / 2 ^ k))) ∧
    exec (.srai z d a sh) s = .next (s.stepCtx z fun c => c.put d (wi (y.toInt / 2 ^ k)))

/-- R59–R61: branches, calls, returns and loops. A taken BCC closes the levels, innermost first, whose bodies exclude the target; a LOOP
with count zero skips its body as the completion of its last instruction. Each is followed by a flow packet of a traced engine (R480). That
LOOP with two levels open raises its exception even with count 0 is the model's choice (log entry 108).
R60: the end of a loop body. While the innermost count stays above zero after its decrement, execution returns to the first body
instruction and the enclosing level is not counted; when it reaches zero the level closes, which counts for the enclosing level. -/
def Obligations.ControlTransfersAndLoops : Prop :=
  (∀ (s : State) (z : Zx) (cond : BitVec 4) (off : BitVec 22) (a : Reg) (imm : BitVec 18), s.mayExecute z →
      let c := s.cx z
      let t := c.pc + wi (4 * off.toInt)
      let inside (l : LoopLv) : Bool := decide (l.first.toNat ≤ t.toNat) && decide (t.toNat ≤ l.last.toNat)
      (cond ≠ 15 → c.cond cond = true →
        exec (.bcc z cond off) s =
          .next ((s.jumpCtx z fun c => { c with pc := t, loops := c.loops.dropWhile fun l => !inside l }).flow z.agent 0 t) ∧
        exec (.call z cond off) s =
          .next ((s.jumpCtx z fun c => { (c.put 15 (c.pc + 4)) with pc := t }).flow z.agent 1 t)) ∧
      (cond ≠ 15 → c.cond cond = false →
        exec (.bcc z cond off) s = .next (s.stepCtx z id) ∧ exec (.call z cond off) s = .next (s.stepCtx z id)) ∧
      ((c.get a).toNat % 4 = 0 →
        exec (.ret z a) s = .next ((s.jumpCtx z fun x => { x with pc := c.get a }).flow z.agent 2 (c.get a))) ∧
      (imm ≠ 0 → c.loops.length < 2 → c.get a ≠ 0 →
        exec (.loop z a imm) s = .next (s.jumpCtx z fun c =>
          { c with pc := c.pc + 4, loops := ⟨c.pc + 4, c.pc + wn (4 * imm.toNat), c.get a⟩ :: c.loops })) ∧
      (imm ≠ 0 → c.loops.length < 2 → c.get a = 0 →
        exec (.loop z a imm) s = .next (s.stepCtx z fun c => { c with pc := c.pc + wn (4 * imm.toNat) })) ∧
      (imm = 0 ∨ 2 ≤ c.loops.length → exec (.loop z a imm) s = .next ((s.fetched z).raise z.agent 2 0))) ∧
  (∀ (c : Ctx) (l : LoopLv) (r : List LoopLv), c.loops = l :: r →
      (c.pc ≠ l.last → c.advance = { c with pc := c.pc + 4 }) ∧
      (c.pc = l.last → l.count.toNat ≠ 1 →
        c.advance = { c with pc := l.first, loops := ⟨l.first, l.last, l.count - 1⟩ :: r }) ∧
      (c.pc = l.last → l.count.toNat = 1 → c.advance = { c with loops := r }.advance))

/-- R54: the loads. The word is aligned, lies in the agent's memory, is not uncorrectable and meets no outstanding transfer; a single-bit
error is corrected first (R43). -/
def Obligations.LoadsReadLittleEndian : Prop :=
  ∀ (s : State) (z : Zx) (d a : Reg) (imm : BitVec 18) (n : Nat) (pl : Place), s.mayExecute z →
    (n = 1 ∨ n = 2 ∨ n = 4) → s.accessOk z ((s.cx z).get a + imm.signExtend 32) n false pl →
    let u := (s.fetched z).softFix z.agent pl
    let b (k : Nat) : Byte := Mem.get (u.memOf z.agent pl).1 (pl.off + k)
    let after (r : W) : Host.Outcome State Fault Refusal := .next (u.putCtx z.agent ((u.ctxOf z.agent).put d r).advance)
    (n = 4 → exec (.ldW z d a imm) s = after (b 3 ++ b 2 ++ b 1 ++ b 0)) ∧
    (n = 2 → exec (.ldH z d a imm) s = after ((b 1 ++ b 0).zeroExtend 32) ∧
      exec (.ldHs z d a imm) s = after ((b 1 ++ b 0).signExtend 32)) ∧
    (n = 1 → exec (.ldB z d a imm) s = after ((b 0).zeroExtend 32) ∧ exec (.ldBs z d a imm) s = after ((b 0).signExtend 32))

/-- R54: the stores. The bytes of the address computed take the low bytes of d and the agent goes on; a store of w0 of the thermal table by
the ME is then looked at by the thermal unit (R385). What is stored: its own bytes, no other byte of that memory, and nothing of the machine
beside that memory and its error marks. -/
def Obligations.StoresWriteTheirBytesOnly : Prop :=
  ∀ (s : State) (z : Zx) (d a : Reg) (imm : BitVec 18) (pl : Place), s.memsOk → s.mayExecute z →
    let ea := (s.cx z).get a + imm.signExtend 32
    let low (n : Nat) : List Byte := (wordBytes ((s.cx z).get d)).take n
    let after (u : State) (n : Nat) : Host.Outcome State Fault Refusal :=
      let t := (u.storeAt z.agent pl (low n)).putCtx z.agent (u.ctxOf z.agent).advance
      .next (if z.agent = .eng engME ∧ pl.off / 4 = 0x7F00 / 4 then t.thermalTake else t)
    let fixed := (s.fetched z).softFix z.agent pl
    (s.accessOk z ea 4 true pl → exec (.stW z d a imm) s = after (s.fetched z) 4) ∧
    (s.accessOk z ea 2 false pl → exec (.stH z d a imm) s = after fixed 2) ∧
    (s.accessOk z ea 1 false pl → exec (.stB z d a imm) s = after fixed 1) ∧
    (∀ n, n = 1 ∨ n = 2 ∨ n = 4 → let t := s.storeAt z.agent pl (low n)
      (∀ k, k < n → Mem.get (t.memOf z.agent pl).1 (pl.off + k) = ((s.cx z).get d).extractLsb' (8 * k) 8) ∧
      (∀ x, x < pl.off ∨ pl.off + n ≤ x → Mem.get (t.memOf z.agent pl).1 x = Mem.get (s.memOf z.agent pl).1 x) ∧
      ∃ m, t = s.modMemOf z.agent pl fun _ => m)

/-- R54, R69: of every load and store, an access that is misaligned raises exception 0x03, and one outside the agent's memories 0x04; one that
meets an outstanding transfer blocks the context until it completes. That an address which is both misaligned and out of range raises 0x03 is
the model's choice (log entry 187). -/
def Obligations.AccessesTrapOrWait : Prop :=
  ∀ (s : State) (z : Zx) (d a : Reg) (imm : BitVec 18), s.mayExecute z →
    let u := s.fetched z
    let ea := (s.cx z).get a + imm.signExtend 32
    let word (t : State) : Prop := exec (.ldW z d a imm) s = .next t ∧ exec (.stW z d a imm) s = .next t
    let half (t : State) : Prop :=
      exec (.ldH z d a imm) s = .next t ∧ exec (.ldHs z d a imm) s = .next t ∧ exec (.stH z d a imm) s = .next t
    let byte (t : State) : Prop :=
      exec (.ldB z d a imm) s = .next t ∧ exec (.ldBs z d a imm) s = .next t ∧ exec (.stB z d a imm) s = .next t
    let waits (pl : Place) (n : Nat) : State := u.blockOn z.agent (s.cx z) (.interlock pl.off n)
    (ea.toNat % 4 ≠ 0 → word (u.raise z.agent 3 ea)) ∧
    (ea.toNat % 2 ≠ 0 → half (u.raise z.agent 3 ea)) ∧
    (ea.toNat % 4 = 0 → placeAt z.agent ea.toNat 4 = none → word (u.raise z.agent 4 ea)) ∧
    (ea.toNat % 2 = 0 → placeAt z.agent ea.toNat 2 = none → half (u.raise z.agent 4 ea)) ∧
    (placeAt z.agent ea.toNat 1 = none → byte (u.raise z.agent 4 ea)) ∧
    (∀ pl, ea.toNat % 4 = 0 → placeAt z.agent ea.toNat 4 = some pl → u.stalls z.agent pl 4 = true → word (waits pl 4)) ∧
    (∀ pl, ea.toNat % 2 = 0 → placeAt z.agent ea.toNat 2 = some pl → u.stalls z.agent pl 2 = true → half (waits pl 2)) ∧
    (∀ pl, placeAt z.agent ea.toNat 1 = some pl → u.stalls z.agent pl 1 = true → byte (waits pl 1))

/-- R55, R58: an engine's LD.PB reads the field in force, PARAM writes the staging copy with its reserved bits clear and nothing else,
COMMIT copies the whole staging block to
pending, where that of a running port waits (R56, R100). A field that does not exist, or that the
engine may not write, raises exception 0x04. -/
def Obligations.ParametersAreStagedAndCommitted : Prop :=
  ∀ (s : State) (e : Eng) (d a : Reg) (imm : BitVec 18) (blk : BitVec 10) (p : Port), s.mayExecute ⟨.eng e, .none⟩ →
    let z : Zx := ⟨.eng e, .none⟩
    let i := (imm.toNat + ((s.cx z).get a).toNat) % 2 ^ 18
    (fieldExists (i / 256) (i % 256) = true →
      exec (.ldPb z d a imm) s = .next (s.stepCtx z fun c => c.put d ((s.fetched z).force (i / 256) (i % 256)))) ∧
    (fieldExists (i / 256) (i % 256) = false → exec (.ldPb z d a imm) s = .next ((s.fetched z).raise z.agent 4 0)) ∧
    (∀ v, e.val ≠ 5 → fieldInfo (i / 256) (i % 256) = some v → fieldWritable (i / 256) (i % 256) e = true →
      exec (.param z d a imm) s = .next ((s.stepCtx z id).modParams fun q =>
        { q with staging := insertN q.staging i ((s.cx z).get d &&& v.2) })) ∧
    (∀ v, e.val ≠ 5 → fieldInfo (i / 256) (i % 256) = some v → fieldWritable (i / 256) (i % 256) e = false →
      exec (.param z d a imm) s = .next ((s.fetched z).raise z.agent 4 0)) ∧
    (e.val ≠ 5 → blkWritable blk.toNat e = true → blkClass blk.toNat = .p → blkPort blk.toNat = some p → blk ≠ 0 →
      ((s.fetched z).port p).st = .running →
      exec (.commit z blk) s = .next ((s.stepCtx z id).modParams fun q =>
        { q with pending := insertN q.pending blk.toNat (q.staging.block blk.toNat) })) ∧
    (e.val ≠ 5 → blkWritable blk.toNat e = true → blk ≠ 0 →
      exec (.commit z blk) s = .next (((s.stepCtx z id).modParams fun q =>
        { q with pending := insertN q.pending blk.toNat (q.staging.block blk.toNat) }).commitSettle blk.toNat)) ∧
    (e.val ≠ 5 → blkWritable blk.toNat e = false → exec (.commit z blk) s = .next ((s.fetched z).raise z.agent 4 0))

/-- R46, R63: WAIT returns at once for a zero mask or a pending input, the latches it returns cleared; else it blocks, and completes in the same
way once an input of its mask is pending. A lane waits for the tags that its mask names. A context that blocks keeps its registers and leaves
the engine to the next ready one; only the engine and its trace change.
R46, R65: MER answers at once with C = 1 where the port does not run; else it blocks and completes at the meridian captured for it, with
C = 0. YIELD of an engine hands it to the next ready context in the order 0, 1, 2, 3, 0; with no other ready the same resumes.
R64, R75, R156: YIELD of a lane ends the invocation that the lane runs: its results are written back, the lane has none and takes the
next, the group is counted, and clock targets that waited for it are taken (R455). Of a lane in retry, the retry is over with it (R289). -/
def Obligations.WaitsAndYields : Prop :=
  (∀ (s : State) (e : Eng) (l : LaneNo) (c : Fin 4) (d a : Reg) (mask : W),
      (let z : Zx := ⟨.eng e, .none⟩
       let finish (x : Ctx) : Ctx := ({ x with latches := x.latches &&& ~~~mask }.put d (x.latches &&& mask)).advance
       (s.mayExecute z → (s.cx z).get a = mask → (mask = 0 ∨ (s.cx z).latches &&& mask ≠ 0) →
         exec (.wait z d a) s = .next (s.jumpCtx z finish)) ∧
       (s.mayExecute z → (s.cx z).get a = mask → mask ≠ 0 → (s.cx z).latches &&& mask = 0 →
         exec (.wait z d a) s = .next ((s.fetched z).blockOn z.agent (s.cx z) (.wait mask d))) ∧
       (s.live (.eng e) = true → ((s.eng e).ctxs.get c).block = .wait mask d → ((s.eng e).ctxs.get c).latches &&& mask ≠ 0 →
         exec (.waitResume (.eng e) c) s = .next (s.ready e c finish))) ∧
      (let z : Zx := ⟨.lane l, .none⟩
       let complete (x : Ctx) : Prop := ∀ k : Fin 4, bitOf mask (28 + k.val) = true → x.tags.get k = none
       (s.mayExecute z → (s.cx z).get a = mask → fld mask 27 0 = 0 → complete (s.cx z) →
         exec (.wait z d a) s = .next (s.stepCtx z fun x => x.put d mask)) ∧
       (s.live (.lane l) = true → (s.lane l).ctx.block = .wait mask d → complete (s.lane l).ctx →
         exec (.waitResume (.lane l) c) s = .next (s.modLane l fun x =>
           { x with ctx := { (x.ctx.put d mask).advance with block := .ready } }))) ∧
      (∀ (x : Ctx) (b : Blocked), let t := s.blockOn (.eng e) x b
        s.onlyEng t e ∧ ∃ r, t.eng e = { s.eng e with run := r, ctxs := (s.eng e).ctxs.set (s.eng e).run { x with block := b } }) ∧
      (∀ f : Ctx → Ctx, let t := s.ready e c f
        s.onlyEng t e ∧ ∃ r, t.eng e = { s.eng e with run := r, ctxs := upd (s.eng e).ctxs c fun x => { f x with block := .ready } })) ∧
  (∀ (s : State) (e : Eng) (c : Fin 4) (d : Reg) (p : Port) (m : W) (k : Fin 4),
      let z : Zx := ⟨.eng e, .none⟩
      let u := s.fetched z
      let en := (s.stepCtx z id).eng e
      (s.mayExecute z → (u.port (u.merPort p)).st ≠ .running →
        exec (.mer z d (BitVec.ofNat 18 p.val)) s =
          .next (s.stepCtx z fun x => { (x.put d (u.agreedMer (u.merPort p))) with c := true })) ∧
      (s.mayExecute z → (u.port (u.merPort p)).st = .running →
        exec (.mer z d (BitVec.ofNat 18 p.val)) s =
          .next (u.blockOn z.agent { s.cx z with merGot := none } (.mer (u.merPort p) d))) ∧
      (s.live (.eng e) = true → ((s.eng e).ctxs.get c).block = .mer p d → ((s.eng e).ctxs.get c).merGot = some m →
        exec (.merResume e c) s = .next (s.ready e c fun x => ({ (x.put d m) with c := false, merGot := none } : Ctx).advance)) ∧
      (s.mayExecute z → k.val < nCtx e → (en.ctxs.get k).block = .ready →
        (∀ j : Fin 4, j.val < nCtx e → (en.ctxs.get j).block = .ready → (k - en.run - 1).val ≤ (j - en.run - 1).val) →
        ∃ t, exec (.yield z) s = .next t ∧ (s.stepCtx z id).onlyEng t e ∧ t.eng e = { en with run := k })) ∧
  (∀ (s : State) (l : LaneNo) (v : Invoc), s.mayExecute ⟨.lane l, .none⟩ →
      let t := s.stepCtx ⟨.lane l, .none⟩ id
      let ended (u : State) : State := (u.modLane l fun x => { x with invoc := none }).count (96 + l.val) 1
      (∃ w, exec (.yield ⟨.lane l, .none⟩) s = .next w ∧ w = t.invocEnd l) ∧
      ((t.lane l).invoc = none → ((ended t).unit (uLane l)).st = 0 →
        exec (.yield ⟨.lane l, .none⟩) s = .next (ended t).clocksTake) ∧
      ((t.lane l).invoc = some v → ((ended (t.writeBack l v)).unit (uLane l)).st = 0 →
        exec (.yield ⟨.lane l, .none⟩) s = .next (ended (t.writeBack l v)).clocksTake ∧
          ((ended (t.writeBack l v)).clocksTake.lane l).invoc = none) ∧
      ((t.lane l).invoc = some v → ((ended (t.writeBack l v)).unit (uLane l)).st = 3 →
        exec (.yield ⟨.lane l, .none⟩) s =
          .next (((ended (t.writeBack l v)).closeTransient (uLane l)).settleUnit (uLane l)).clocksTake))

/-- R66: SEND puts its word into the outbound buffer with C = 0, answers C = 1 where the link it is addressed to is down, and blocks at the
bound of sixteen words, with source 3; it completes as soon as there is room.
R62, R66, R67: the oldest message for a channel enters it while it holds fewer than four words, and sets W24 of every context of the
receiver; RECV takes the oldest word, RECV.NB answers an empty channel with Z = 1, a blocked RECV takes the word that has come. That W24 is
latched at every word that enters a channel is the model's choice (log entry 99). -/
def Obligations.MessagesGoInOrder : Prop :=
  (∀ (s : State) (e : Eng) (c : Fin 4) (a : Reg) (ch dst : Fin 16) (w : W),
      let z : Zx := ⟨.eng e, .none⟩
      let u := s.fetched z
      (s.mayExecute z → sendCause e dst ch = none → ¬(dst.val = 6 ∧ u.linkUp = false) → u.outstanding e < 16 →
        exec (.send z a ch dst) s = .next ((s.stepCtx z fun x => { x with c := false }).modEng e fun en =>
          { en with out := en.out ++ [⟨dst, ch, (s.cx z).get a, (u.eng e).run⟩] })) ∧
      (s.mayExecute z → sendCause e dst ch = none → ¬(dst.val = 6 ∧ u.linkUp = false) → 16 ≤ u.outstanding e →
        exec (.send z a ch dst) s = .next ((u.blockOn z.agent (s.cx z) (.send ((s.cx z).get a) ch dst)).occur (srcEng e 3))) ∧
      (s.mayExecute z → sendCause e dst ch = none → dst.val = 6 → u.linkUp = false →
        exec (.send z a ch dst) s = .next (s.stepCtx z fun x => { x with c := true })) ∧
      (∀ cause, s.mayExecute z → sendCause e dst ch = some cause → exec (.send z a ch dst) s = .next (u.raise z.agent cause 0)) ∧
      (s.live (.eng e) = true → ((s.eng e).ctxs.get c).block = .send w ch dst → ¬(dst.val = 6 ∧ s.linkUp = false) →
        s.outstanding e < 16 →
        exec (.sendUnblock e c) s = .next ((s.modEng e fun en => { en with out := en.out ++ [⟨dst, ch, w, c⟩] }).ready e c
          fun x => ({ x with c := false } : Ctx).advance))) ∧
  (∀ (s : State) (e f : Eng) (c : Fin 4) (k : Nat) (m : Msg) (d : Reg) (ch : Fin 16) (nb : Bool) (w : W) (r : List W),
      let z : Zx := ⟨.eng e, .none⟩
      (s.thermal.held = false → (s.eng e).out[k]? = some m → (∀ x ∈ (s.eng e).out.take k, ¬(x.dst = m.dst ∧ x.ch = m.ch)) →
        m.dst.val = f.val → ¬(m.dst.val = 0 ∧ m.ch.val = 14) → ((s.eng f).chans.get m.ch).length < 4 → (s.eng e).st = 1 →
        exec (.messageDelivery e k) s =
          .next ((s.modEng e fun en => { en with out := en.out.eraseIdx k }).chanPut f m.ch m.word)) ∧
      (∀ t, t = s.chanPut f ch w → s.onlyEng t f ∧ (t.eng f).chans = upd (s.eng f).chans ch (· ++ [w]) ∧
          (∀ q : Fin 4, q.val < nCtx f → bitOf ((t.eng f).ctxs.get q).latches 24 = true) ∧
          t.eng f = { s.eng f with chans := (t.eng f).chans, ctxs := (t.eng f).ctxs } ∧
          ∀ q : Fin 4, (t.eng f).ctxs.get q = { (s.eng f).ctxs.get q with latches := ((t.eng f).ctxs.get q).latches }) ∧
      (s.mayExecute z → ch.val < 13 → ((s.fetched z).eng e).chans.get ch = w :: r →
        exec (.recv z d ch nb) s = .next ((s.stepCtx z fun x => if nb then { (x.put d w) with z := false } else x.put d w).modEng e fun en =>
          { en with chans := upd en.chans ch fun _ => r })) ∧
      (s.mayExecute z → ((s.fetched z).eng e).chans.get ch = [] →
        exec (.recv z d ch true) s = .next (s.stepCtx z fun x => { x with z := true }) ∧
        exec (.recv z d ch false) s = .next ((s.fetched z).blockOn z.agent (s.cx z) (.recv ch d))) ∧
      (s.live (.eng e) = true → ch.val < 13 → ((s.eng e).ctxs.get c).block = .recv ch d → (s.eng e).chans.get ch = w :: r →
        exec (.recvResume e c) s = .next ((s.ready e c fun x => (x.put d w).advance).modEng e fun en =>
          { en with chans := upd en.chans ch fun _ => r })))

/-- R68, R69, R71: TILE.LD and TILE.ST issue their transfer under the lowest free tag, which d receives; a completed transfer frees its tag,
sets W28 plus the tag and moves the data, a TILE.ST from the local memory to the store; a stall of more than 1,024 cycles raises source 3 of
the lane, and its counter has counted them (R478; log entry 72: the model's choice). -/
def Obligations.TileTransfersUseTags : Prop :=
  ∀ (s : State) (z : Zx) (d a b : Reg) (tag : Fin 4) (l : LaneNo) (x : Xfer) (loc n : Nat),
    (s.mayExecute z →
      let u := s.fetched z
      let issues (y : Xfer) : Prop :=
        u.tileCause z.agent y = none ∧ ((u.xfers z.agent).any fun v => v.meets y.loc (64 * y.units)) = false ∧
        u.tileBadWord z.agent y = none ∧ (s.cx z).tags.get tag = none ∧ ∀ k, k < tag → (s.cx z).tags.get k ≠ none
      let issued (y : Xfer) : Host.Outcome State Fault Refusal :=
        .next (s.stepCtx z fun c => ({ c with tags := c.tags.set tag (some y) } : Ctx).put d (wn tag.val))
      let ld := xferOf true ((s.cx z).get a) ((s.cx z).get b)
      let st := xferOf false ((s.cx z).get a) ((s.cx z).get b)
      (issues ld → exec (.tileLd z d a b) s = issued ld) ∧ (issues st → exec (.tileSt z d a b) s = issued st)) ∧
    (s.thermal.held = false → (s.lane l).ctx.tags.get tag = some x → (s.lane l).ctx.block = .ready →
      exec (.tileTransferComplete (.lane l) 0 tag) s = .next ((s.xferMove (.lane l) x).modLane l fun y =>
        { y with ctx := { y.ctx with tags := y.ctx.tags.set tag none, latches := y.ctx.latches ||| (1 <<< (28 + tag.val) : W) } })) ∧
    (x.load = false → (s.memOf z.agent (tilePlace z.agent x.loc)).2.2 = [] →
      s.xferMove z.agent x = s.storeWrite x.store (Mem.read (s.memOf z.agent (tilePlace z.agent x.loc)).1 x.loc (64 * x.units))) ∧
    (s.thermal.held = false → (s.lane l).ctx.block = .interlock loc n →
      exec (.tileInterlockStall l) s = .next ((s.count l.val 1024).occur (srcLane l 3)))

/-- R71: POST raises the program event its number names, of an engine 0 to 11, of a lane 0 to 3; a larger number is an illegal operand.
R70, R204, R301, R304, R425, R326: the services. The immediate result goes to d, 2 with source 2 of the engine; 0 means that the service
acts: a transit becomes due as requested, a lane that no band is on begins its test, a unit becomes pending for retirement, a record joins
the queue and is sent to the partner. A service that an engine is not permitted raises exception 0x07. That a requested retirement counts and
sets FAULT at its acceptance is the model's choice (log entry 60), and so is that a record is sent as it is queued (log entry 71). -/
def Obligations.ServicesAndPosts : Prop :=
  (∀ (s : State) (z : Zx) (imm : BitVec 18), s.mayExecute z →
      (∀ e, z.agent = .eng e → imm.toNat ≤ 11 → exec (.post z imm) s = .next ((s.stepCtx z id).occur (srcEng e (4 + imm.toNat)))) ∧
      (∀ l, z.agent = .lane l → imm.toNat ≤ 3 → exec (.post z imm) s = .next ((s.stepCtx z id).occur (srcLane l (4 + imm.toNat)))) ∧
      ((11 < imm.toNat ∨ (isLane z.agent = true ∧ 3 < imm.toNat)) → exec (.post z imm) s = .next ((s.fetched z).raise z.agent 2 0))) ∧
  (∀ (s : State) (e : Eng) (d a : Reg) (u : Fin 182) (p : Port) (h : W),
      let z : Zx := ⟨.eng e, .none⟩
      let v := s.fetched z
      let x := (s.cx z).get a
      s.mayExecute z →
      (e.val = 0 → v.svcTransit x = 2 →
        exec (.svcStartTransit z d a) s = .next ((s.stepCtx z fun c => c.put d 2).occur (srcEng e 2))) ∧
      (e.val = 0 → x.toNat = p.val → v.svcTransit x = 0 → (v.transit.queue.any fun q => q.1 = p) = false →
        exec (.svcStartTransit z d a) s = .next ((s.stepCtx z fun c => c.put d 0).modTransit fun t =>
          { t with waiters := t.waiters ++ [((v.eng e).run, p)], queue := t.queue ++ [(p, true)] })) ∧
      (e.val ≠ 0 → exec (.svcStartTransit z d a) s = .next (v.raise z.agent 7 0)) ∧
      (∀ hu : u.val < 96, (e.val = 0 ∨ e.val = 5) → uidSlot x = some u → v.svcTest x = 0 → v.needsRotation u = false → v.anyRunning = true →
        exec (.svcSelfTest z d a) s = .next (((s.stepCtx z fun c => c.put d 0).modUnit u fun y =>
          { y with st := 2, reqTest := some ⟨e, (v.eng e).run⟩, cause := 0xFF, byError := false }).modLane ⟨u.val, hu⟩ fun l =>
            { l with ctx := { l.ctx with tags := Vector.replicate 4 none } })) ∧
      ((e.val = 0 ∨ e.val = 5) → uidSlot x = some u → 120 ≤ u.val → u.val < 128 → v.svcRetire x = 0 → v.anyRunning = true →
        ∃ t, exec (.svcRequestRetirement z d a) s = .next t ∧
          t = (((s.stepCtx z fun c => c.put d 0).modUnit u fun y =>
            { y with st := 4, reqRetire := some ⟨e, (v.eng e).run⟩, cause := 0xFF, byError := false }).fmPermanent).fmDeliver ∧
          (t.unit u).st = 4 ∧ t.fm.permanent = satAdd v.fm.permanent 1 ∧ t.fm.fault = true) ∧
      (noteHeader (v.eng e) e x.toNat = some h → v.svcNote e x.toNat = 0 →
        (∀ q ∈ noteRange (v.eng e) e x.toNat,
          v.stalls z.agent (.data q) 4 = false ∧ v.wordBad z.agent (.data q) = false ∧ (v.eng e).dataSoft.contains (q / 4) = false) →
        exec (.svcNoteRecord z d a) s = .next (((s.stepCtx z fun c => c.put d 0).modNv fun n =>
          { n with queue := n.queue ++ [(v.noteRec e x.toNat h, some ⟨e, (v.eng e).run⟩)] }).sendRecord (v.noteRec e x.toNat h))) ∧
      (a = 0 → exec (.svcReadAgreedTime z d a) s = .next (s.stepCtx z fun c => c.put d (wn v.agreed))))

/-- R72, R74: the vector arithmetic of a lane, element by element with exact intermediate results; elements whose predicate bit is 0 keep
their value, and no flag, scalar register or memory changes. That VMAC u32 reads its accumulator unsigned and that a reserved mode raises 0x01
are the model's choices (log entries 22 and 97). -/
def Obligations.VectorArithmetic : Prop :=
  ∀ (s : State) (l : LaneNo) (p : Fin 4) (vd va vb : Fin 8) (sh s1 s2 : BitVec 5) (mode : Fin 4) (u32 sub : Bool),
    let z : Zx := ⟨.lane l, .none⟩
    s.mayExecute z →
    (mode = 0 → exec (.vadd z p vd va vb mode) s = .next (s.vecStep l p vd va vb fun _ a b => wi (a.toInt + b.toInt)) ∧
      exec (.vsub z p vd va vb mode) s = .next (s.vecStep l p vd va vb fun _ a b => wi (a.toInt - b.toInt))) ∧
    (mode = 1 → exec (.vadd z p vd va vb mode) s = .next (s.vecStep l p vd va vb fun _ a b => wi (satS 32 (a.toInt + b.toInt))) ∧
      exec (.vsub z p vd va vb mode) s = .next (s.vecStep l p vd va vb fun _ a b => wi (satS 32 (a.toInt - b.toInt)))) ∧
    (mode = 2 → exec (.vadd z p vd va vb mode) s = .next (s.vecStep l p vd va vb fun _ a b => wi (satU 32 (a.toNat + b.toNat : Nat))) ∧
      exec (.vsub z p vd va vb mode) s = .next (s.vecStep l p vd va vb fun _ a b => wi (satU 32 ((a.toNat : Int) - b.toNat)))) ∧
    (mode ≠ 3 →
      let prod (a b : W) : Int := (if mode = 1 then (a.toNat : Int) else a.toInt) * (if mode = 0 then b.toInt else b.toNat)
      let sat (x : Int) : W := wi (if u32 then satU 32 x else satS 32 x)
      exec (.vmul z p vd va vb sh mode u32) s = .next (s.vecStep l p vd va vb fun _ a b => sat (rnd (prod a b) sh.toNat)) ∧
      exec (.vmac z p vd va vb sh mode u32 sub) s = .next (s.vecStep l p vd va vb fun d a b =>
        let acc : Int := if u32 then d.toNat else d.toInt
        sat (if sub then acc - rnd (prod a b) sh.toNat else acc + rnd (prod a b) sh.toNat))) ∧
    exec (.vpoly z p vd va vb s1 s2 sub) s = .next (s.vecStep l p vd va vb fun d a b =>
      let x := a.toInt
      let t := rnd ((b.extractLsb' 0 16).toInt * x + (b.extractLsb' 16 16).toInt * min (rnd (x * x) s2.toNat) 0x7FFFFFFF) s1.toNat
      wi (satS 32 (if sub then d.toInt - t else d.toInt + t))) ∧
    (mode = 3 → exec (.vadd z p vd va vb mode) s = .next ((s.fetched z).raise z.agent 1 0) ∧
      exec (.vsub z p vd va vb mode) s = .next ((s.fetched z).raise z.agent 1 0) ∧
      exec (.vmul z p vd va vb sh mode u32) s = .next ((s.fetched z).raise z.agent 1 0) ∧
      exec (.vmac z p vd va vb sh mode u32 sub) s = .next ((s.fetched z).raise z.agent 1 0))

/-- R72, R74: median, clamp, select, compare, shift and saturation of vectors. VSEL and VCMP act on all elements whatever the predicate;
VCMP never writes p0. That the sign bit of VSAT applies to source and result alike is the model's choice (log entry 22). -/
def Obligations.VectorOrderAndShift : Prop :=
  ∀ (s : State) (l : LaneNo) (p : Fin 4) (vd va vb : Fin 8) (sh width : BitVec 5) (cond : Fin 8) (conj sgn : Bool),
    let z : Zx := ⟨.lane l, .none⟩
    let x := (s.fetched z).lane l
    let w := width.toNat + 1
    s.mayExecute z →
    exec (.vmed3 z p vd va vb false) s = .next (s.vecStep l p vd va vb fun d a b =>
      wi (max (min d.toInt a.toInt) (min (max d.toInt a.toInt) b.toInt))) ∧
    exec (.vmed3 z p vd va vb true) s = .next (s.vecStep l p vd va vb fun d a b =>
      wn (max (min d.toNat a.toNat) (min (max d.toNat a.toNat) b.toNat))) ∧
    exec (.vclamp z p vd va vb false) s = .next (s.vecStep l p vd va vb fun d a b => wi (min (max d.toInt a.toInt) b.toInt)) ∧
    exec (.vclamp z p vd va vb true) s = .next (s.vecStep l p vd va vb fun d a b => wn (min (max d.toNat a.toNat) b.toNat)) ∧
    (∃ t, exec (.vsel z p vd va vb) s = .next t ∧ t = (s.fetched z).modLane l (fun _ => t.lane l) ∧
      t.lane l = { x with v := (t.lane l).v, ctx := (s.cx z).advance } ∧
      (∀ i : Fin 8, ((t.lane l).v.get vd).get i = if (x.pget p).getLsbD i.val then (x.v.get va).get i else (x.v.get vb).get i) ∧
      ∀ r, r ≠ vd → (t.lane l).v.get r = x.v.get r) ∧
    (p ≠ 0 → ∃ t, exec (.vcmp z p va vb cond conj) s = .next t ∧ t = (s.fetched z).modLane l (fun _ => t.lane l) ∧
      t.lane l = { x with p := (t.lane l).p, ctx := (s.cx z).advance } ∧
      (∀ i : Fin 8, ((t.lane l).p.get p).getLsbD i.val =
        (vCond cond.val ((x.v.get va).get i) ((x.v.get vb).get i) && (!conj || (x.pget p).getLsbD i.val))) ∧
      ∀ q, q ≠ p → (t.lane l).p.get q = x.p.get q) ∧
    (p = 0 → exec (.vcmp z p va vb cond conj) s = .next ((s.fetched z).raise z.agent 2 0)) ∧
    exec (.vshr z p vd va sh 0 width sgn true) s = .next (s.vecStep l p vd va va fun _ a _ => wi (rnd a.toInt sh.toNat)) ∧
    exec (.vshr z p vd va sh 1 width sgn false) s = .next (s.vecStep l p vd va va fun _ a _ => wn (a.toNat / 2 ^ sh.toNat)) ∧
    exec (.vshr z p vd va sh 2 width sgn false) s = .next (s.vecStep l p vd va va fun _ a _ => wn (a.toNat * 2 ^ sh.toNat)) ∧
    (sh.toNat + w ≤ 32 → exec (.vshr z p vd va sh 3 width false false) s =
      .next (s.vecStep l p vd va va fun _ a _ => wn (a.toNat / 2 ^ sh.toNat % 2 ^ w))) ∧
    (32 < sh.toNat + w → exec (.vshr z p vd va sh 3 width sgn false) s = .next ((s.fetched z).raise z.agent 2 0)) ∧
    exec (.vsat z p vd va width true) s = .next (s.vecStep l p vd va va fun _ a _ => wi (satS w a.toInt)) ∧
    exec (.vsat z p vd va width false) s = .next (s.vecStep l p vd va va fun _ a _ => wn (min a.toNat (2 ^ w - 1)))

/-- R72, R73: VLD and VST of consecutive words in the lane's own memory. The active elements alone are loaded or stored; a load changes no
memory, and a store no byte beside the active elements' words. -/
def Obligations.VectorLoadsAndStores : Prop :=
  ∀ (s : State) (l : LaneNo) (p : Fin 4) (vd : Fin 8) (g : Reg) (off : BitVec 9),
    let z : Zx := ⟨.lane l, .none⟩
    let x := (s.fetched z).lane l
    let a := ((s.cx z).get g).toNat + 4 * off.toNat
    s.memsOk → s.mayExecute z → a % 4 = 0 → a + 32 ≤ 0x2000 → x.locBad = [] → x.locSoft = [] →
    (∃ t, exec (.vld z p vd g 0 off) s = .next t ∧ t = (s.fetched z).modLane l (fun _ => t.lane l) ∧
      t.lane l = { x with v := (t.lane l).v, ctx := (s.cx z).advance } ∧
      (∀ i : Fin 8, ((t.lane l).v.get vd).get i =
        if (x.pget p).getLsbD i.val then Mem.word x.loc (a + 4 * i.val) else (x.v.get vd).get i) ∧
      ∀ r, r ≠ vd → (t.lane l).v.get r = x.v.get r) ∧
    (∃ t, exec (.vst z p vd g 0 off) s = .next t ∧ t = (s.fetched z).modLane l (fun _ => t.lane l) ∧
      t.lane l = { x with loc := (t.lane l).loc, ctx := (s.cx z).advance } ∧
      (∀ i : Fin 8, (x.pget p).getLsbD i.val = true → Mem.word (t.lane l).loc (a + 4 * i.val) = (x.v.get vd).get i) ∧
      ∀ b, (∀ i : Fin 8, (x.pget p).getLsbD i.val = true → b < a + 4 * i.val ∨ a + 4 * i.val + 4 ≤ b) →
        Mem.get (t.lane l).loc b = Mem.get x.loc b)

/-! ### Host port and loader (R81–R111, R396–R421) -/

/-- R398, R400–R403: a frame of the host port. The command byte gives its type. A whole write frame inside one region is admitted into a buffer
and applied later, in the order of the frames; a read frame samples its words in ascending order; a status frame repeats the status byte; a
frame at no multiple of 4 bytes, an unknown command byte and a write before READY are rejected with causes 0x03, 0x01 and 0x08, a frame with a
cut address with cause 0x02. The two buffers and the lowest-numbered of several causes are the model's choices (log entries 10 and 35).
R403, R485, R401: the oldest admitted frame is applied, here to the scratch word; a word that waits for a fill until HRDY_TIMEOUT reads as
ones, is counted and rejects its frame with cause 0x09. -/
def Obligations.HostFramesAreAppliedInOrder : Prop :=
  (∀ (s : State) (addr : W) (w : W) (n : Nat) (cmd : Byte), s.hostUp = true → s.serial.readEnd = none →
      (frameTypeOf 0x02 = some (.write false) ∧ frameTypeOf 0x0B = some (.read false) ∧ frameTypeOf 0x32 = some (.write true) ∧
        frameTypeOf 0xEB = some (.read true) ∧ frameTypeOf 0x05 = some .status) ∧
      (s.serial.bufs = [] → s.hostReady = true → regionOf addr.toNat = some .ident → addr.toNat % 4 = 0 →
        let t := s.framed.modSerial fun x => { x with bufs := [(addr, [w])] }
        exec (.hostWriteSingle addr [w] .whole) s = .next t ∧ exec (.hostWriteQuad addr [w] .whole) s = .next t) ∧
      (s.hostIdle → exec (.hostReadSingle 0x80 1 .whole) s = .next (s.framed.answers [s.scratch]) ∧
        exec (.hostReadQuad 0x80 1 .whole) s = .next (s.framed.answers [s.scratch])) ∧
      exec (.hostStatus n) s = .next (s.framed.answers (List.replicate n (s.statusByte.zeroExtend 32))) ∧
      (frameTypeOf cmd = none → exec (.hostUnknownCommand cmd) s = .next (s.hostBegin.hostReject 1)) ∧
      (s.serial.bufs.length < 2 → addr.toNat % 4 ≠ 0 → exec (.hostWriteSingle addr [w] .whole) s = .next (s.hostBegin.hostReject 3)) ∧
      (s.serial.bufs.length < 2 → exec (.hostWriteSingle addr [w] .address) s = .next (s.hostBegin.hostReject 2)) ∧
      (s.serial.bufs.length < 2 → s.hostReady = false → regionOf addr.toNat = some .ident → addr.toNat % 4 = 0 →
        exec (.hostWriteSingle addr [w] .whole) s = .next (s.hostBegin.hostReject 8))) ∧
  (∀ (s : State) (w : W) (a : Nat) (r : List (W × List W)), s.up →
      (s.serial.bufs = (0x80, [w]) :: r → s.serial.xipWait = [] → s.serial.readEnd = none → s.serial.frameWait = none →
        exec .hostWriteApply s = .next { (s.modSerial fun x => { x with bufs := r }) with scratch := w }) ∧
      (s.serial.xipWait = [a] → regionOf a = some .xip → s.serial.readEnd = some none →
        exec .hrdyTimeout s = .next (((((s.modSerial fun x =>
          { x with timeouts := satAdd x.timeouts 1, wordsOut := x.wordsOut ++ [0xFFFFFFFF], xipWait := [] }).occur (srcSerial 2)).occur
            (srcSerial 7)).modSerial fun x => { x with readEnd := none }).hostReject 9)))

/-- R404, R486, R354, R360, R256, R339, R478: a read of the low word of a pair returns it and latches the high word of the same moment, which
a later read of the high word returns; a read of a Sextant FIFO takes its oldest result, and a read of the last word of ALM_WIN moves the
cursor on. -/
def Obligations.LowWordsLatchTheirHighWords : Prop :=
  ∀ (s : State) (m : Fin 8) (e : BitVec 8) (i : Fin 512) (r : W × W) (q : List (W × W)), s.hostIdle →
    let u := s.framed
    let x := s.mod m
    exec .serialLoRead s = .next ((u.modNv fun n => { n with serialHi := s.serial64.extractLsb' 32 32 }).answers
      [s.serial64.extractLsb' 0 32]) ∧
    exec (.hostReadSingle 0x0C 1 .whole) s = .next (u.answers [s.nv.serialHi]) ∧
    exec .optimeLoRead s = .next ((u.modNv fun n => { n with optimeHi := wn (n.pcc.toNat * 256 + n.optime / 2 ^ 32 % 256) }).answers
      [wn s.nv.optime]) ∧
    (s.twinEn = false → exec .agreedLoRead s = .next ((u.modNv fun n => { n with agreedHi := wn (n.optime / 2 ^ 32 % 256) }).answers
      [wn s.nv.optime])) ∧
    exec .stkCeLoRead s = .next ((u.modStore fun t => { t with ceHi := t.ce.extractLsb' 32 32 }).answers
      [s.store.ce.extractLsb' 0 32]) ∧
    exec .twinPeerSnLoRead s = .next ((u.modTwin fun t => { t with peerSnHi := t.peerSn.extractLsb' 32 32 }).answers
      [s.twin.peerSn.extractLsb' 0 32]) ∧
    exec (.counterLoRead i) s = .next ((u.modEvents fun e =>
      { e with countHi := insertN e.countHi i.val ((u.counter i.val).extractLsb' 32 32) }).answers [(u.counter i.val).extractLsb' 0 32]) ∧
    exec (.accLoRead m) s = .next ((u.modMod m fun x => { x with accHi := wn (x.acc.toNat / 2 ^ 32 + 2 ^ 16 * x.cnt.toNat) }).answers
      [x.acc.extractLsb' 0 32]) ∧
    (bitOf (sxCtl s.params.force m) 5 = false → x.fifo = r :: q →
      exec (.resLoRead m) s = .next ((u.modMod m fun x => { x with fifo := q, resHi := r.2 }).answers [r.1])) ∧
    exec (.lastLoRead e) s = .next ({ u with sextant := { u.sextant with
      lastHi := insertN u.sextant.lastHi e.toNat (getN s.sextant.latest e.toNat (0, 0)).2 } }.answers
        [(getN s.sextant.latest e.toNat (0, 0)).1]) ∧
    (s.nv.readOpen 0 = true → s.nv.bad = [] → s.nv.soft = [] →
      let o := s.nv.cursor.toNat + 252
      exec .almWinLastRead s = .next ((u.modNv fun n => { n with cursor := wn ((n.cursor.toNat + 256) % 2 ^ 19) }).answers
        [word4 (s.nv.logByte o) (s.nv.logByte (o + 1)) (s.nv.logByte (o + 2)) (s.nv.logByte (o + 3))]))

/-- R94, R82, R83, R95: GO begins a load and is ignored while one runs; starting an engine that has stopped puts its contexts at their entry
points; a stop waits for a meridian while a port runs; an abort stops the engine at once and discards what it had outstanding.
R96: a word written through the load window lands in the memory of the stopped engine that LOAD_SEL names, and its error marks are
cleared; nothing else of the machine changes but the frame's own bookkeeping. -/
def Obligations.LoadsIntoEngines : Prop :=
  (∀ (s : State) (code : Fin 16) (e : Eng), s.hostIdle → cepsOf code = some e →
      let u := s.framed
      (s.queue.busy = false → s.boot.boot = true → exec .go s = .next (u.modQueue fun q => { q with busy := true, code := 0 })) ∧
      (s.queue.busy = true → exec .go s = .next (u.modQueue fun q => { q with ignored := true })) ∧
      ((s.eng e).st = 3 ∨ (s.eng e).st = 4 → s.engRetired e = false →
        ∃ t, exec (.startEngine code) s = .next t ∧ t = u.engStart e ∧ (t.eng e).st = 1 ∧
          ∀ c, ((t.eng e).ctxs.get c).pc = entryOf e (s.eng e) c ∧ ((t.eng e).ctxs.get c).block = .ready) ∧
      ((s.eng e).st = 1 → s.anyRunning = true →
        exec (.stopEngine code) s = .next (u.modEng e fun en => { en with st := 2, stopDue := false })) ∧
      ((s.eng e).st = 1 ∨ (s.eng e).st = 2 → ∃ t, exec (.abortStop code) s = .next t ∧
        t = { u with engines := t.engines, events := t.events } ∧ (t.eng e).st = 3 ∧ (t.eng e).out = [] ∧
        (∀ c k, ((t.eng e).ctxs.get c).tags.get k = none) ∧ (t.eng e).prog = (s.eng e).prog ∧ (t.eng e).data = (s.eng e).data ∧
        ∀ d, d ≠ e → t.eng d = u.eng d)) ∧
  (∀ (s : State) (off : BitVec 16) (w : W) (e : Eng) (base size : Nat), s.hostIdle →
      s.loadMap = some (.eng e true base size) → s.loadAdmits = true → off.toNat % 4 = 0 → base + off.toNat + 4 ≤ size →
      exec (.loadWindowWrite off [w]) s = .next (s.framed.modEng e fun en =>
        { en with data := Mem.setWord en.data (base + off.toNat) w, dataBad := freshWords en.dataBad (base + off.toNat) 4,
                  dataSoft := freshWords en.dataSoft (base + off.toNat) 4 }))

/-- R107, R108, R110: a submit frame of four words adds one entry, counted; an entry feeds channel 15 of the CE one word as it has room; an
assembled completion enters the ring at PI and raises source 0; CPL_CI moves forward by at most the unread entries, and any other write of
it only sets CI_INVALID. -/
def Obligations.QueueAndRing : Prop :=
  ∀ (s : State) (a : W) (w0 w1 w2 w3 v : W) (q : List W) (r : List (List W)),
    (s.hostIdle → s.queue.entries.length < 64 → a.toNat % 16 = 0 →
      exec (.cmdSubmit a [w0, w1, w2, w3]) s = .next (s.framed.modQueue fun q =>
        { q with entries := q.entries ++ [[w0, w1, w2, w3]], accepted := q.accepted + 1 })) ∧
    (s.up → s.queue.entries = q :: r → s.queue.given < 4 → s.chanRoom engCE 15 = true →
      exec .cmdEntryDeliver s = .next ((s.chanPut engCE 15 (nthW q s.queue.given)).modQueue fun q => { q with given := q.given + 1 })) ∧
    (s.up → s.queue.waiting = q :: r → s.queue.ringFull = false → (s.eng engCE).st = 1 →
      exec .completionPlace s = .next ((s.modQueue fun x =>
        { x with waiting := r, ring := insertN x.ring (x.pi.toNat % 64) q, pi := x.pi + 1 }).occur (srcSerial 0))) ∧
    (s.hostIdle →
      ((BitVec.ofNat 7 (v.toNat % 128) - s.queue.ci).toNat ≤ (s.queue.pi - s.queue.ci).toNat →
        exec (.cplCiWrite v) s = .next (s.framed.modQueue fun q => { q with ci := BitVec.ofNat 7 (v.toNat % 128) })) ∧
      (¬ (BitVec.ofNat 7 (v.toNat % 128) - s.queue.ci).toNat ≤ (s.queue.pi - s.queue.ci).toNat →
        exec (.cplCiWrite v) s = .next (s.framed.modQueue fun q => { q with ciInvalid := true })))

/-- R420, R408, R419, R482, R354, R307, R429, R433: writes of the control words. A host command of the flash becomes busy; a configuration of
MP0 invalidates the line buffers, a DIV of 0 keeping the old one; software selects take effect at once while both ports are idle; LAENO_CTL
takes its fields; ACC_CLR clears the accumulators it names; the map is cleared at the next boot by its key word; FLUSH and ALM_CLEAR
begin a flush and a clear. -/
def Obligations.ControlWords : Prop :=
  ∀ (s : State) (v : W) (m : Fin 8), s.hostIdle →
    let u := s.framed
    (s.serial.hbusy = false → v.toNat % 512 ≤ 256 →
      exec (.mp0Hgo v) s = .next (u.modSerial fun x => { x with hbusy := true, hlen := v.toNat % 512 })) ∧
    exec (.mp0CfgWrite true v) s = .next (u.modSerial fun x => { x with rdcmd := v, lines := [] }) ∧
    (v.toNat % 16 ≠ 0 → exec (.mp0CfgWrite false v) s = .next (u.modSerial fun x => { x with cfg := v &&& 0xF11F010F, lines := [] })) ∧
    (s.serial.mp0 = none → s.serial.mp1 = none → v &&& 0x300FF = s.serial.swsel &&& 0x300FF →
      exec (.mpSwsel v) s = .next (u.modSerial fun x => { x with swsel := (v &&& 0xFFFFF) ||| (x.swsel &&& ~~~0xFFFFF), swPend := none })) ∧
    (bitOf v 0 = false → fld v 11 8 ≠ 0 →
      exec (.laenoCtlWrite v) s = .next (u.modEvents fun e => { e with ctl := wn (fld v 11 8 * 256 + fld v 6 0) })) ∧
    (∃ t, exec (.sxAccClr v) s = .next t ∧ t = { u with sextant := t.sextant } ∧
      t.mod m = if bitOf v m.val then { s.mod m with acc := 0, cnt := 0 } else s.mod m) ∧
    (s.nv.writeOpen 3 = true → exec (.fmMapClear 0xC1EA9640) s =
      .next ((u.modFm fun m => { m with clearPend := true }).modNv fun n => n.itemWrite itemState 0
        (wordsBytes ((u.modFm fun m => { m with clearPend := true }).stateWords n.stateEnd.1 n.stateEnd.2)) .item)) ∧
    (v ≠ 0xC1EA9640 → exec (.fmMapClear v) s = .next u) ∧
    (s.nv.flushing = false → ∃ t, exec .flush s = .next t ∧
      t = { u with nv := t.nv, events := t.events, engines := t.engines, freeCtr := t.freeCtr } ∧ t.nv.flushing = true ∧ t.nv.flushBegun = s.nv.flushBegun + 1 ∧ t.nv.mem = s.nv.mem) ∧
    (s.nv.flushing = true → exec .flush s = .next (u.modNv fun n => { n with again := true })) ∧
    (s.nv.writeOpen 0 = true → s.nv.flushing = true → exec (.almClear 0xC1EAA100) s = .next (u.modNv fun n => { n with clearWait := true })) ∧
    (s.nv.writeOpen 0 = true → s.nv.flushing = false → ∃ t, exec (.almClear 0xC1EAA100) s = .next t ∧ t = u.almClear ∧
      t.nv.clears = s.nv.clears + 1 ∧ t.nv.logEnd = 0 ∧ t.nv.dirtyStart = 0 ∧ t.nv.lost = 0 ∧ t.nv.flushing = true) ∧
    (v ≠ 0xC1EAA100 → exec (.almClear v) s = .next u)

/-- R436–R438, R440, R441, R447: the NV store behind its passwords. The right password opens its access; a wrong one is counted and locks the
access out until NV_LOCKOUT_END; NV_LOCK closes; a page write queues behind its region's password, and one without it is rejected with cause
0x07; a new password and a word of NV_SEC are written to their protected items while their regions are open. The model's choices are the shape of
the frames (log entry 38), the page write in the queue (log entry 11), and the lockout that no further wrong password lengthens (log entry
70); a password's read checks both copies of its item (log entry 198). -/
def Obligations.NvHostAccess : Prop :=
  ∀ (s : State) (r : Fin 4) (p0 p1 : W) (off : BitVec 8) (w : W), s.hostIdle →
    let u := s.framed
    let v := u.itemCheck itemPasswords
    let m : BitVec 4 := 1 <<< r.val
    (s.nv.lockW.getLsbD r.val = false → wordsBytes [p0, p1] = v.nv.password r true →
      exec (.nvUnlock [wn (r.val + 16), p0, p1]) s = .next ((v.modNv fun n => { n with openW := n.openW ||| m }).occur (srcAlm 11))) ∧
    (s.nv.lockW.getLsbD r.val = true →
      exec (.nvUnlock [wn (r.val + 16), p0, p1]) s = .next (u.modNv fun n => { n with pwbad := satAdd n.pwbad 1 })) ∧
    (s.nv.lockW.getLsbD r.val = false → wordsBytes [p0, p1] ≠ v.nv.password r true →
      exec (.nvUnlock [wn (r.val + 16), p0, p1]) s = .next (((v.modNv fun n =>
        { n with pwbad := satAdd n.pwbad 1, lockW := n.lockW ||| m }).occur (srcAlm 10)).note 0x006 1 suAlmanac [wn (r.val + 16)])) ∧
    exec (.nvLockoutEnd r true) s = .next (s.modNv fun n => { n with lockW := n.lockW &&& ~~~m }) ∧
    exec (.nvLockoutEnd r false) s = .next (s.modNv fun n => { n with lockR := n.lockR &&& ~~~m }) ∧
    (∀ t : State, t = u.modNv (fun n => { n with openR := 0, openW := 0 }) →
      exec (.nvLock 0xFF) s = .next (if s.nv.openR ≠ 0 ∨ s.nv.openW ≠ 0 then t.occur (srcAlm 12) else t)) ∧
    (s.nv.writeOpen r = true → exec (.nvPwset [wn (r.val + 16), p0, p1]) s =
      .next (u.modNv fun n => n.itemWrite itemPasswords (16 * r.val + 8) (wordsBytes [p0, p1]) .item)) ∧
    (s.nv.writeOpen 3 = true → exec (.nvSecWrite 0 [w]) s = .next (u.modNv fun n => n.itemWrite itemSecurity 0 (wordBytes w) .item)) ∧
    (s.nv.writeOpen 3 = false → exec (.nvSecWrite 0 [w]) s = .next (s.hostBegin.hostReject 7)) ∧
    (off.toNat % 4 = 0 → s.nv.page.toNat < 640 → s.nvBusy = false → s.thermal.pfStep = 0 → s.mirrors = false →
      (s.nv.writeOpen (pageRegion s.nv.page.toNat) = true → exec (.nvWinWrite off [w]) s =
        .next (u.nvQueue { page := 1024 + s.nv.page.toNat, off := off.toNat, bytes := wordBytes w, src := .host })) ∧
      (s.nv.writeOpen (pageRegion s.nv.page.toNat) = false → exec (.nvWinWrite off [w]) s = .next (s.hostBegin.hostReject 7))) ∧
    (off.toNat % 4 = 0 → off.toNat < 240 → s.nv.writeOpen 2 = false → exec (.nvPwinWrite off [w]) s = .next (s.hostBegin.hostReject 7)) ∧
    (s.nv.writeOpen 2 = true → s.nvBusy = false → s.mirrors = false → s.thermal.pfStep = 0 →
      ∃ t, exec (.nvPwinWrite 0 [w]) s = .next t ∧ t = { u with nv := t.nv } ∧ t.nv = { s.nv with writes := t.nv.writes } ∧
        s.nv.writes.length < t.nv.writes.length)

/-- R254, R255, R247: the aperture shows the store's addresses of its page. A write of one word lands at its address and at no other byte; a
read returns the word; poison reads as ones and sets POISON_RD. -/
def Obligations.ApertureAccesses : Prop :=
  ∀ (s : State) (addr : W) (w : W), s.hostIdle → s.memsOk → addr.toNat % 4 = 0 →
    let u := s.framed
    let a := s.store.page.toNat * 2 ^ 28 + addr.toNat % 2 ^ 28
    s.unbacked a 4 = false → inReservedRange a = false → s.store.lost = none → s.store.hard = [] → s.store.soft = [] →
    (s.store.poison = [] → s.apertureAdmits (0x10000000 + addr.toNat % 2 ^ 28) 4 = true → s.recordRace a = false →
      ∃ t, exec (.apertureWrite addr [w]) s = .next t ∧
        t = { u with events := t.events, clusters := t.clusters, store := { u.store with mem := t.store.mem } } ∧
        Mem.word t.store.mem a = w ∧ ∀ b, b < a ∨ a + 4 ≤ b → Mem.get t.store.mem b = Mem.get s.store.mem b) ∧
    (s.store.poison = [] → ∃ t, exec (.apertureRead addr 1) s = .next t ∧ t = { u with serial := t.serial, events := t.events } ∧
      t.serial = { u.serial with wordsOut := [Mem.word s.store.mem a] }) ∧
    (s.store.poison = [a / 8] → ∃ t, exec (.apertureRead addr 1) s = .next t ∧
      t = { u with serial := t.serial, events := t.events,
                   store := { u.store with poisonAddr := wn (8 * (a / 8)), poisonRd := true } } ∧
      t.serial = { u.serial with wordsOut := [0xFFFFFFFF] })

/-! ### Clocks, trace, almanac, master ports, outputs (R258–R283, R406–R482) -/

/-- R451, R453, R455, R450, R467, R470: the reference and the PLLs. Losing the reference sets HOLD and source 46 of the clock group; its
return clears HOLD; a PLL that has lost lock raises its source when it loses and when it regains it; a port changes to or from its backup
clock; a retargeted cluster clock restarts with the code of its target; a fence drops when its island has left reset; islands report a
clock out of range. That the first lock after a start raises nothing is the model's choice (log entry 58). -/
def Obligations.ClocksAndResets : Prop :=
  ∀ (s : State) (k : Fin 4) (p : Port) (b : Bool) (c : Fin 12) (i : Fin 23),
    (s.clocks.refOk = true →
      exec .refclkLost s = .next ((s.modClocks fun c => { c with refOk := false, hold := true }).occur (srcClock 46))) ∧
    (s.clocks.refOk = false →
      exec .refclkRestored s = .next ((s.modClocks fun c => { c with refOk := true, hold := false }).occur (srcClock 47))) ∧
    (s.pllRuns k = true → s.clocks.locked k = false → (k = 3 ∨ s.clocks.refOk = true) →
      ∃ t : State, exec (.pllLocked k) s = .next (if s.clocks.lost.getLsbD k.val then t.occur (srcClock (pllSource k)) else t) ∧
        t = { s with clocks := t.clocks } ∧ t.clocks.locked k = true ∧ t.clocks.lost = s.clocks.lost &&& ~~~(1 <<< k.val : BitVec 4) ∧
        ∀ j, j ≠ k → t.clocks.locked j = s.clocks.locked j) ∧
    (s.clocks.locked k = true → ∃ t : State, exec (.pllLockLost k) s = .next (t.occur (srcClock (pllSource k))) ∧
      t = { s with clocks := t.clocks } ∧ t.clocks.locked k = false ∧ t.clocks.lost = s.clocks.lost ||| 1 <<< k.val) ∧
    (s.up → (s.port p).backupClock ≠ b → exec (.portClockSwitch p b) s =
      .next ((s.modPort p fun x => { x with backupClock := b }).occur (srcClock (27 + 2 * p.val)))) ∧
    (s.up → (s.cluster c).stopped = true →
      exec (.dcoRestart c) s = .next ((s.dcoSet c).modCluster c fun x => { x with stopped := false })) ∧
    (s.up → 12 ≤ i.val → s.clocks.fenced.getLsbD i.val = true → s.clocks.inReset.getLsbD i.val = false →
      exec (.islandResetRelease i) s = .next ((s.modClocks fun c =>
        { c with fenced := c.fenced &&& ~~~(1 <<< i.val : BitVec 23) }).occur (srcClock (2 * i.val)))) ∧
    (s.up → exec (.islandClockOutOfRange true) s = .next (s.occur (srcClock 45)) ∧
      exec (.islandClockOutOfRange false) s = .next (s.occur (srcClock 25)))

/-- R473, R476, R478: one occurrence of a source sets its pending bit, or its overrun bit where it is pending already, counts in its group's
counter, and sets the wait latch of every context whose route names it; no other word of the matrix changes, and of the machine beyond
it only wait latches.
R479–R482: with the Laeno port on, the sync timer queues a sync packet of 14 bytes, the sample timer one packet a counter, and packets leave
sync first, then the oldest; a packet that does not fit the 4 KiB FIFO is dropped and counted. -/
def Obligations.EventsPendAndAreTraced : Prop :=
  (∀ (s : State) (g : Fin 48) (k : Fin 32) (e : Eng) (c : Fin 4), ¬ (28 ≤ g.val ∧ g.val < 32) →
      let src := 32 * g.val + k.val
      let was := bitOf (s.events.pend.get g) k.val
      let t := s.occur src
      (t.events.pend.get g = s.events.pend.get g ||| 1 <<< k.val) ∧
      (t.events.ovr.get g = if was then s.events.ovr.get g ||| 1 <<< k.val else s.events.ovr.get g) ∧
      (∀ h, h ≠ g → t.events.pend.get h = s.events.pend.get h ∧ t.events.ovr.get h = s.events.ovr.get h) ∧
      t.counter (416 + g.val) = s.counter (416 + g.val) + 1 ∧
      (∀ n, n ≠ 416 + g.val → t.counter n = s.counter n) ∧
      t = { s with events := t.events, engines := t.engines, freeCtr := t.freeCtr } ∧
      (∀ r ∈ (s.eng e).routes, r.ctx = c → r.src.val = src → bitOf ((t.eng e).ctxs.get c).latches r.input.val = true) ∧
      (t.eng e).ctxs.get c = { (s.eng e).ctxs.get c with latches := ((t.eng e).ctxs.get c).latches } ∧
      ((s.eng e).routes = [] → t.eng e = s.eng e)) ∧
  (∀ (s : State) (p q : Trace) (i : Nat), s.up → s.traceOn = true →
      (fifoBytes s.events.fifo + 14 ≤ 4096 → ∃ t b, exec .laenoSync s = .next t ∧ t = { s with events := t.events, freeCtr := t.freeCtr } ∧
        t.events.fifo = s.events.fifo ++ [⟨true, b⟩] ∧ b.length = 14 ∧ b.head? = some 0x84 ∧
        b.drop 9 = wordBytes (wn s.nv.optime) ++ [BitVec.ofNat 8 (s.nv.optime / 2 ^ 32)]) ∧
      (4096 < fifoBytes s.events.fifo + 14 → ∃ t, exec .laenoSync s = .next t ∧ t.events.fifo = s.events.fifo ∧
        t.events.drop = satAdd s.events.drop 1) ∧
      (s.events.fifo = [p, q] → p.sync = false → q.sync = true →
        exec .laenoPacketSend s = .next (s.modEvents fun e => { e with fifo := [p], sentBytes := q.bytes })) ∧
      (s.events.fifo = [p, q] → p.sync = false → q.sync = false → s.events.dropRun = 0 →
        exec .laenoPacketSend s = .next (s.modEvents fun e => { e with fifo := [q], sentBytes := p.bytes })) ∧
      (i < 512 → s.events.csamp = wn (2 ^ 18 + 512 + i) → fifoBytes s.events.fifo + 13 ≤ 4096 →
        ∃ t b, exec .laenoCounterSample s = .next t ∧ t.events.fifo = s.events.fifo ++ [⟨false, b⟩] ∧ b.head? = some 0x73 ∧
          b.drop 3 = (wordBytes (wn i)).take 2 ++ wordBytes ((s.counter i).extractLsb' 0 32) ++
            wordBytes ((s.counter i).extractLsb' 32 32)))

/-- R426–R428, R435, R443: the oldest queued record reaches the almanac's buffer at its end and raises source 0; the front page write lands in its
page and at no other byte and raises source 7; operating time counts a tick modulo 2^40; the counter record is saved on the
hour, at every 57,600 ticks of it. A page write that wraps within its page leaves the bytes between its end and its start (log entry 183: the
model's choice of how it is written). -/
def Obligations.AlmanacAndNvSteps : Prop :=
  ∀ (s : State) (r : Rec) (q : List (Rec × Option Req)) (w : NvWrite) (l : List NvWrite), s.up → s.memsOk →
    (s.nv.queue = (r, none) :: q → s.nv.last = none → s.nv.lostMark = false → s.nv.almEnd + recSize r ≤ 262144 →
      s.nv.dirty.length + recSize r ≤ 8191 → fld r.w0 15 12 < 3 → fld r.w0 11 0 < 0x100 → bitOf r.w1 16 = false →
      exec .almanacRecordEnter s = .next ((s.queueTake.modNv fun n =>
        { n with last := some (n.almEnd, r), dirty := n.dirty ++ recBytes r }).occur (srcAlm 0))) ∧
    (s.nv.writes = w :: l → w.src = .host → s.thermal.pfStep = 0 → w.off + w.bytes.length ≤ 256 →
      ∃ t : State, exec .nvPageWriteDone s = .next (t.occur (srcAlm 7)) ∧
        t = { s with nv := { s.nv with mem := t.nv.mem, bad := t.nv.bad, soft := t.nv.soft, writes := l } } ∧
        ∀ a, Mem.get t.nv.mem a = if w.covers a then w.bytes.getD (a - (256 * w.page + w.off)) 0 else Mem.get s.nv.mem a) ∧
    (s.boot.step = 3 → exec .optimeTick s = .next (s.modNv fun n => { n with optime := (n.optime + 1) % 2 ^ 40 })) ∧
    (s.nv.savedTicks / 57600 < s.nv.optime / 57600 → exec .counterSave s = .next (s.modNv fun n =>
      { n.itemWrite itemCounters 0 (wordsBytes s.counterWords) .item with savedTicks := n.optime }))

/-- R406, R408–R411, R420: MP0 at a command boundary takes the waiting fill first, then its ring, whose words are read with their single-bit
errors corrected, then the host command, with the transactions that R406 and R410 give each; while a production load runs its fills have the
port (log entry 179: the model's choice of one span); a fill's 64 bytes become its line; the host command ends with code 0x01, or, polling
too long, with code 0x02, and raises its source. A command that is no read invalidates the line buffers, those filling too, and a fill is
counted as it starts (log entry 62: the model's choices). -/
def Obligations.FlashSequencer : Prop :=
  ∀ (s : State) (a i : Nat) (bs : List Byte), s.up → s.serial.swPend = none → s.serial.xipWait = [] → s.serial.readEnd = none →
    let u := if s.engRetired engME then s else s.ringFix engME 0x7E00
    let hostOps := s.xspiOps s.serial.hcmd (fld s.serial.hcmd 15 0) s.serial.haddr.toNat (Mem.read s.serial.hbuf 0 s.serial.hlen) s.serial.hlen
    (s.serial.mp0 = none → s.prodFills = true → exec .mp0CommandStart s = .next s) ∧
    (s.serial.mp0 = none → s.prodFills = false → s.serial.lines = [⟨a, [], true⟩] → s.mp0Soft (a / 2 ^ 32) = false →
      let ctl := wn (a / 2 ^ 32 * 2 ^ 19 + 2 ^ 17 + fld s.serial.cfg 20 16 * 2 ^ 24)
      exec .mp0CommandStart s = .next ((s.modSerial fun x => { x with fills := satAdd x.fills 1 }).mp0Issue ctl (.fill a)
        (s.xspiOps ctl (fld s.serial.rdcmd 15 0) (a % 2 ^ 32) [] 64))) ∧
    (s.serial.mp0 = some (.fill a) → s.serial.lines = [⟨a, [], true⟩] → bs.length = 64 →
      exec (.mp0CommandDone bs) s = .next (s.modSerial fun x => { x with mp0 := none, lines := [⟨a, bs, false⟩] })) ∧
    (s.serial.mp0 = none → s.prodFills = false → s.serial.lines = [] → u.mp0Head = some i → u.mp0Bad i = false →
      s.mp0Soft (fld (ringWord (u.eng engME).data 0x7E00 i 0) 19 19) = false →
      exec .mp0CommandStart s = .next (u.mp0RingStart i)) ∧
    (s.serial.mp0 = none → s.prodFills = false → s.serial.lines = [] → u.mp0Head = none → s.serial.hbusy = true →
      s.mp0Soft (fld s.serial.hcmd 19 19) = false →
      exec .mp0CommandStart s = .next (u.mp0Issue s.serial.hcmd .host hostOps)) ∧
    (s.serial.mp0 = some .host → bitOf s.serial.hcmd 18 = false → bs.length = s.serial.hlen →
      exec (.mp0CommandDone bs) s = .next ((s.modSerial fun x =>
        { x with mp0 := none, hbusy := false, hcode := 1, hbuf := Mem.write x.hbuf 0 bs }).occur (srcSerial 5))) ∧
    (s.serial.mp0 = some .host → bitOf s.serial.hcmd 20 = true →
      exec .mp0PollTimeout s = .next (((s.modSerial fun x => { x with pollto := satAdd x.pollto 1 }).occur (srcSerial 6)).mp0Host 2)) ∧
    (∀ (ctl : W) (c : Mp0Cmd) (ops : List XspiOp),
      s.mp0Issue ctl c ops = s.modSerial fun x =>
        { x with mp0 := some c, mp0Bus := ops, lines := if bitOf ctl 18 then [] else x.lines })

/-- R43, R412–R418, R421: at a transfer boundary MP1 takes the one head that may start, a single-bit error in what it reads being corrected and
reported; the end of a transfer writes the received bytes, status 0x01 and CI and raises the source of its select; a transfer that its slave
never readies ends with status 0x02, counted. A refused descriptor ends with status 0x03. That the command brings the times of the windows
and of the selects is the model's choice (log entry 63). -/
def Obligations.SerialTransfers : Prop :=
  ∀ (s : State) (e : Fin 5) (i : Nat) (d : Mp1Desc) (since : List Nat) (rested : BitVec 8) (rx : List Byte) (x : Mp1Xfer), s.up →
    s.thermal.pfStep = 0 → s.serial.swPend = none →
    (∀ (g : Eng) (a n k : Nat), (s.eng g).dataSoft = [k] → a / 4 ≤ k → 4 * k < a + n →
      s.dataFix g a n = (s.modEng g fun en => { en with dataSoft := [] }).occur (srcEng g 1)) ∧
    ((∀ g, (s.eng g).dataSoft = []) → s.serial.mp1 = none → s.mp1Head e = some (i, d) → (∀ f, f ≠ e → s.mp1Head f = none) → s.mp1Bad e d = false →
      s.mp1May since rested e = true →
      exec (.mp1TransferStart since rested) s = .next (s.modSerial fun y =>
        { y with mp1Served := (y.mp1Served.filter (· != e)) ++ [e],
                 mp1 := some { eng := e, idx := i, live := true, sel := d.sel, query := d.query, rxAddr := d.rx, rx := d.rxOn,
                               driven := !s.mp1Bound, bits := d.rxBits (bitOf (s.selCfg d.sel) 9),
                               tx := Mem.read (s.eng (mp1Eng e)).data d.tx ((d.txBits (bitOf (s.selCfg d.sel) 9) + 7) / 8) } })) ∧
    ((s.eng (mp1Eng e)).dataSoft = [] → s.mp1Head e = some (i, d) → s.mp1Bad e d = true → s.mp1Refuse e =
      ((s.mp1Write e i 3).modSerial fun y => { y with refusedN := satAdd y.refusedN 1 }).occur (srcSerial 19)) ∧
    (s.serial.mp1 = some x → x.live = true → x.driven = true → x.rx = true → x.bits = 8 * rx.length → 4 ≤ x.sel.val →
      ∃ t, exec (.mp1TransferEnd rx false) s = .next t ∧
        t = { s with serial := { s.serial with mp1 := none }, engines := t.engines, events := t.events, freeCtr := t.freeCtr } ∧
        (t.eng (mp1Eng x.eng)).data = ringFinish (Mem.write (s.eng (mp1Eng x.eng)).data x.rxAddr rx) 0x7C00 x.idx 1 ∧
        ∀ f, f ≠ mp1Eng x.eng → t.eng f = { s.eng f with ctxs := (t.eng f).ctxs }) ∧
    (s.serial.mp1 = some x → x.live = true → x.driven = true → bitOf (s.selCfg x.sel) 10 = true → 4 ≤ x.sel.val →
      ∃ t, exec .mp1ReadyTimeout s = .next t ∧
        t = { s with serial := { s.serial with mp1 := none, rdyto := satAdd s.serial.rdyto 1 }, engines := t.engines,
                     events := t.events, freeCtr := t.freeCtr } ∧
        (t.eng (mp1Eng x.eng)).data = ringFinish (s.eng (mp1Eng x.eng)).data 0x7C00 x.idx 2 ∧
        ∀ f, f ≠ mp1Eng x.eng → t.eng f = { s.eng f with ctxs := (t.eng f).ctxs })

/-- R265–R274: a ready frame at the head of a stream begins: it is counted, source 0 rises, and Frame Start and two header lines wait for the
transmitter; a produced line waits behind them; a transmitter sends one packet of the stream served least recently and leaves ULPS for it;
with nothing to send it may enter ULPS. -/
def Obligations.StreamsAndTransmitters : Prop :=
  ∀ (s : State) (st : Fin 8) (f : OutFrame) (rest : List OutFrame) (x : Fin 2) (k : Pkt) (r : List Pkt), s.up →
    ((s.stream st).due = f :: rest → s.frameReady st f = true → (s.stream st).cur = none →
      let g := s.headOf st f
      let old := (s.stream st).prevHead.getD (List.replicate 15 0)
      exec (.streamFrameStart st) s = .next ((s.modStream st fun x =>
        { x with due := rest, cur := some g, frames := x.frames + 1, firstPend := false, failover := false,
                 pkts := x.pkts ++ [framePkt st g.pb 0x00 (csiNumber x.frames), longPkt st g.pb 0x12 (headLine g.head),
                   longPkt st g.pb 0x12 (headLine old)] }).occur (srcStream st 0))) ∧
    (∀ l, l = s.imageLine st f f.nextLine → (s.stream st).cur = some f → f.nextLine + 1 < outLines f.pb st f.tile →
      fld (f.pb.streamCtl st) 7 6 ≠ 3 → bitOf (f.pb.streamCtl st) 22 = false → ((lineRows f.pb st f.nextLine).1.all fun r => s.rowFinal f r.1) = true →
      ringBytes (s.stream st).pkts + l.1.length ≤ 0x500000 → l.2.1 = 0 →
      exec (.streamLineSend st) s = .next ((l.2.2.ringPut st l.1).modStream st fun x =>
        { x with cur := some { f with nextLine := f.nextLine + 1, genRead := none },
                 pkts := x.pkts ++ [longPkt st f.pb (imageDt f.pb st) l.1], srec := recAdd x.srec 6 0 })) ∧
    ((s.txs.get x).on = true → (s.txs.get x).line ≠ 2 → s.clocks.gives ⟨1 + x.val, by omega⟩ = true → s.txNext x = some st → (s.stream st).pkts = k :: r → k.dt ≠ 1 →
      (s.stream st).cur = none →
      let u := if (s.txs.get x).line = 1 then s.occur (srcTx x 1) else s
      exec (.txPacket x) s = .next ((u.modTx x fun t =>
        { t with line := 0, sent := some k, burst := k.wire, sentCount := t.sentCount + 1,
                 served := (t.served.filter (· != st)) ++ [st] }).modStream st fun q => { q with pkts := r })) ∧
    ((s.txs.get x).on = true → (s.txs.get x).line = 0 → bitOf (s.params.force.txCtl x) 7 = true → s.txNext x = none →
      exec (.txUlpsEntry x) s = .next ((s.modTx x fun t => { t with line := 1 }).occur (srcTx x 1)))

/-! ### Boot, parameters, ports, the hearth (R85–R104, R114–R198) -/

/-- R91, R92, R240, R316, R391, R450, R488, R511: leaving reset starts boot, which samples BOOTSEL and ROLE and zeroes the store, or waits
while PFAIL_N is low or a rail is out of range; boot that waited starts when PFAIL_N rises, with the pins as they were sampled; once the
store is initialised, for which the SYS PLL is locked, READY is 1 and an image is awaited, from the partner over the link with BOOTSEL 0b10.
R84, R385: the ME restarts from the copy of its sections in the store, checked by its CRC words; the thermal unit uses its default settings,
in force at once. What fails the check leaves the ME stopped by exception, with FAULT and a record (log entry 24: the model's choice). -/
def Obligations.BootAndRestart : Prop :=
  (∀ (s : State) (bootsel : BitVec 2) (role ok : Bool),
      let m := s.modThermal fun t => { t with pfail := true, rails := if ok then 0x1F else t.rails, vio := t.vio || ok }
      let i := s.modBoot fun b => { b with step := if s.boot.bootsel = 3 then 4 else 2, ready := true }
      (s.thermal.resetN = false → s.thermal.shutdown = false → s.thermal.pfStep = 0 → s.thermal.handCause = 0 → s.boot.step = 0 →
        (s.thermal.pfail = true → s.railsUp = true → ∃ t, exec (.resetRelease bootsel role) s = .next t ∧
          t = (s.modThermal fun h => { h with resetN := true }).bootStart bootsel role ∧ t.boot.step = 1 ∧ t.boot.bootsel = bootsel ∧
          t.twin.strap = role ∧ t.thermal.resetN = true ∧ t.store.mem = [] ∧ t.store.poison = []) ∧
        (s.thermal.pfail = false ∨ s.railsUp = false → exec (.resetRelease bootsel role) s =
          .next { s with
                  thermal := { s.thermal with resetN := true }
                  boot := { s.boot with step := 5, bootsel := bootsel }
                  twin := { s.twin with strap := role } })) ∧
      (s.boot.step = 5 → s.thermal.pfStep = 0 → s.thermal.shutdown = false → m.railsUp = true →
        ∃ t, exec (.pfailNRise bootsel role ok) s = .next t ∧ t = m.bootStart s.boot.bootsel s.twin.strap ∧
          t.boot.step = 1 ∧ t.boot.bootsel = s.boot.bootsel ∧ t.twin.strap = s.twin.strap ∧ t.thermal.pfail = true ∧ t.store.mem = []) ∧
      (s.boot.step ≠ 5 ∨ m.railsUp = false → exec (.pfailNRise bootsel role ok) s = .next m) ∧
      (s.boot.step = 1 → s.clocks.sysLk = true →
        exec .storeInitDone s = .next (if s.boot.bootsel = 2 then i.linkRetrain else i)) ∧
      (s.boot.step = 1 → s.clocks.sysLk = false → exec .storeInitDone s = .next s)) ∧
  (∀ s : State, s.up → s.boot.meRestarting = true → s.engRetired engME = false →
      let p := (s.modBoot fun b => { b with meRestarting := false }).storeRead meCopyBase 0x8000
      let d := p.2.storeRead (meCopyBase + 0x8000) 0x8000
      let c := d.2.storeRead (meCopyBase + 0x10000) 8
      c.2.engRetired engME = false →
      ([crc32c p.1, crc32c d.1] = bytesWords c.1 →
        let u := c.2.modEng engME fun en =>
          { en with prog := Mem.write [] 0 p.1, data := Mem.write [] 0 d.1, progBad := [], progSoft := [], dataBad := [], dataSoft := [] }
        ∃ t, exec .meRestartDone s = .next t ∧ t = ((u.thermalApply thermalDefaults 0).engReset engME).modEng engME (fun en => { en with st := 1 }) ∧
          (t.eng engME).st = 1 ∧ (t.eng engME).prog = Mem.write [] 0 p.1 ∧ (t.eng engME).data = Mem.write [] 0 d.1 ∧
          t.thermal.table = thermalDefaults ∧ t.thermal.seq = 0) ∧
      ([crc32c p.1, crc32c d.1] ≠ bytesWords c.1 →
        let u := (c.2.modEng engME fun en => { en with st := 4 }).setFault
        exec .meRestartDone s = .next (u.note 0x101 3 (uEng engME).val [slotUid (uEng engME), 0xFD, u.decisionMer])))

/-- R85–R92, R94, R95, R441: an image with a sound header, sections and CRCs is loaded and entered, and BOOT is set, the second flash copy being
taken where the first has no header; two copies without one leave the code 0x10 and the device without BOOT; no image within 2 s
leaves 0x1B; a GO ends with its code, its sections loaded only where the code says so. The check puts the enforce flag of item 4 in force.
With no image COPY reads 0: the model's choice (log entry 146). -/
def Obligations.ImagesBoot : Prop :=
  ∀ (s : State) (img c0 c1 : List Byte), s.up →
    (s.boot.step = 2 → s.boot.bootsel = 0 →
      (∀ copy : Bool, (s.imgCheck img).1.toNat ≤ 3 → c0.length < 64 →
        let c := s.imgCheck img
        let u := s.imgChecked.modBoot fun b => { b with code := BitVec.ofNat 7 c.1.toNat, copy := copy }
        ∃ t, exec (.bootLoadComplete (if copy then c0 else img) (if copy then img else c1)) s = .next t ∧
          t = (u.imgInstall img c.2.1 c.2.2).bootEnter ∧ t.boot.step = 3 ∧ t.boot.boot = true) ∧
      (c0.length < 64 → c1.length < 64 →
        exec (.bootLoadComplete c0 c1) s = .next (s.imgChecked.modBoot fun b => { b with step := 4, code := 0x10, copy := true }))) ∧
    (s.boot.step = 2 → s.boot.bootsel ≠ 1 →
      exec .bootImageTimeout s = .next (s.modBoot fun b => { b with step := 4, code := 0x1B, copy := false })) ∧
    (s.queue.busy = true → s.boot.boot = true →
      let v := s.imgBuffer.2
      let c := v.imgCheck s.imgBuffer.1
      let u := v.imgChecked.modQueue fun q => { q with busy := false, code := c.1 }
      (3 < c.1.toNat → exec .loadGoDone s = .next u) ∧
      (c.1.toNat ≤ 3 → exec .loadGoDone s = .next (u.imgInstall s.imgBuffer.1 c.2.1 c.2.2)))

/-- R100–R103, R200, R338, R347, R364, R414: at its unit's idle point the pending copy of a class I block takes effect whole, with one more commit
generation and with what that block's taking effect does, or is refused whole, with its block, the count and the failing field shown and the
copy in force unchanged; before that point it waits. -/
def Obligations.CopiesTakeEffectWholeOrNot : Prop :=
  ∀ (s : State) (blk : BitVec 10) (c : PMap), s.up → s.readyI blk.toNat = some c →
    let b := blk.toNat
    let o := s.params.force
    let v := o.setBlock b c
    let q := if lookupN s.params.pending b = some c then
        { s.params with pending := eraseN s.params.pending b, streamTie := eraseN s.params.streamTie b } else s.params
    let w := { s.twin with agreedI := eraseN s.twin.agreedI b }
    let u : State := { s with params := { q with force := v, gens := insertN s.params.gens b (getN s.params.gens b 0 + 1) }, twin := w }
    let idle : Prop := (b = 1 ∧ s.anyRunning = false ∧ s.transitIdle = true) ∨ (b = 2 ∧ s.twinAtOnce = true) ∨
      (∃ k : Fin 8, b = 0x1C0 + k.val ∧ bitOf (sxCtl o k) 0 = false) ∨ b = 0x1C8 ∨ b = 0x1C9 ∨ (∃ k : Fin 8, b = 0x1D0 + k.val) ∨
      (b = 0x1E0 ∧ s.serial.mp1 = none)
    (checkBlock s.chkEnv v o b = none → idle →
      (b = 1 → exec (.paramBlockIdleApply blk) s = .next u.transitBlock) ∧
      (b = 2 → exec (.paramBlockIdleApply blk) s = .next (u.twinBlock o)) ∧
      (∀ k : Fin 8, b = 0x1C0 + k.val → exec (.paramBlockIdleApply blk) s = .next (u.sxBlock k o)) ∧
      (b = 0x1C8 ∨ b = 0x1C9 ∨ b = 0x1E0 → exec (.paramBlockIdleApply blk) s = .next u) ∧
      (∀ k : Fin 8, b = 0x1D0 + k.val → exec (.paramBlockIdleApply blk) s = .next (u.blwBlock k o))) ∧
    (∀ i, checkBlock s.chkEnv v o b = some i → idle →
      exec (.paramBlockIdleApply blk) s =
        .next ({ s with params := { q with lastRefused := b, lastIndex := wn i, refusals := satAdd s.params.refusals 1 },
                        twin := w }.noteRefused b i)) ∧
    (¬ idle → exec (.paramBlockIdleApply blk) s = .next s)

/-- R23, R125, R126, R128, R137: frames of a running port. A Frame Start opens the frame that waits for it; a Frame End or the timeout is the
port's meridian; without a Frame Start in time the port stalls and its streams raise source 3 (R277, R283); a packet outside a frame raises
source 16, one of another virtual channel source 15, and neither changes the port.
R23, R24, R136: a meridian ends the frame that is open, whatever it holds: the port's meridian count becomes the frame's, the frame is kept
as the one that ended last, and the frames counted since entry are one more. The frame that then opens, if the port still runs, carries the
next count and nothing received. -/
def Obligations.FramesAndMeridians : Prop :=
  (∀ (s : State) (p : Port) (vc other : BitVec 2) (fno : BitVec 16) (fr : Frame), s.hears p vc → (s.port p).frame = some fr →
      ((s.port p).st = .running → fr.started = false →
        (∃ t, exec (.frameStart p vc .ok fno) s = .next t ∧ (t.port p).frame = some { fr with started := true, fsNum := fno } ∧
          (t.port p).mer = (s.port p).mer ∧
          t = { s with ports := t.ports, streams := t.streams, transit := t.transit, events := t.events, engines := t.engines,
                       freeCtr := t.freeCtr }) ∧
        exec (.frameEnd p vc .ok fno) s = .next (s.occur (srcPort p 16)) ∧
        exec (.stallTimeout p) s = .next ((forEach (allFin 8) (fun st t =>
          if (t.stream st).on ∧ (t.stream st).srcPort = p then t.occur (srcStream st 3) else t)
            ((s.portLeave p .stalled).occur (srcPort p 4))).portFollow p).afterStop) ∧
      (fr.started = true → exec (.frameEnd p vc .ok fno) s = .next (s.meridian p 0 (some fno)) ∧
        (fld (fr.pb.portF p 2 0) 23 0 ≠ 0 → exec (.frameTimeout p) s = .next (s.meridian p 1 none))) ∧
      (other ≠ vc → exec (.frameEnd p other .ok fno) s = .next (s.occur (srcPort p 15)))) ∧
  (∀ (s : State) (p : Port) (why : Nat) (fe : Option (BitVec 16)) (fr : Frame),
      ((s.port p).frame = some fr →
        let t := s.frameOver p why fe
        (t.port p).mer = fr.m ∧ (t.port p).frame = none ∧ (t.port p).fCount = (s.port p).fCount + 1 ∧
          (t.port p).tail.map (fun g => (g.m, g.ended, g.feNum, g.pb)) = some (fr.m, true, fe, fr.pb)) ∧
      (let t := s.openFrame p
       (∃ g, (t.port p).frame = some g ∧ g.m = (s.port p).mer + 1 ∧ g.rows = [] ∧ g.pix = [] ∧ g.started = false ∧ g.pb = s.portView p) ∧
         (t.port p).mer = (s.port p).mer ∧ t = { s with ports := t.ports }) ∧
      ((s.port p).frame = some fr → s.twinning = false →
        let t := s.meridian p why fe
        (t.port p).mer = fr.m ∧ (t.port p).tail.map (fun g => (g.m, g.ended, g.feNum, g.pb)) = some (fr.m, true, fe, fr.pb) ∧
          ((t.port p).st = .running → ∃ g, (t.port p).frame = some g ∧ g.m = fr.m + 1 ∧ g.started = false ∧ g.rows = [])))

/-- R21, R114, R115, R119, R121, R128, R136: what a port does with the packets inside a frame. A whole row packet of the one data type of its
order takes the next position, its samples enter the accumulator, and an active row gives its offset; a line number waits for its
packet; embedded data are kept for the frame's meridian; a packet of another data type raises source 14; a lost sync raises source 19
and loses the row, calibration source 21, ULPS source 31.
R131, R133, R138: a settings window that closes after a batch of transfers moves the settings count by one and raises source 25, and without
one changes no count; a port's requested test begins in a blanking. -/
def Obligations.PortsReceiveFrames : Prop :=
  (∀ (s : State) (p : Port) (vc : BitVec 2) (fr : Frame) (k : RowPkt) (num : BitVec 16) (r : Nat), s.hears p vc →
      (s.port p).frame = some fr → fr.started = true → k.vc = vc → k.ecc = .ok → k.crcOk = true → k.fifo = none →
      (fr.pb.orderB p = false → k.dt.toNat = fr.pb.dt p → fr.pb.lineNum p = false → getN fr.nextRow 0 0 = r → r < fr.pb.lines p →
        k.payload.length = wordCount fr.pb p →
        let u := s.modFrame p false fun fr => { fr with lastSub := 0 }
        let xs := packetSamples k.dt.toNat k.payload
        let n := min (fr.pb.linePixels p) (xs.length / perPacket fr.pb p)
        let t := (u.storeWrite (sampleAddr fr.pb p fr.f r 0 0) ((xs.take (n * perPacket fr.pb p)).flatMap fun x =>
          (wordBytes (wn x)).take 2)).modFrame p false fun fr =>
            { fr with rows := fr.rows ++ [⟨0, r, n, false⟩], waitNum := none, nextRow := insertN fr.nextRow 0 (r + 1) }
        (u.rowConflict p (rowSpan fr.pb p fr.f r 0) = false → exec (.rowPacket p k) s = .next (t.rowArrived p r)) ∧
        (r < fr.pb.blindRows p → t.rowArrived p r = t)) ∧
      (fr.pb.lineNum p = true → exec (.lineStart p vc .ok num) s = .next (s.modFrame p false fun fr => { fr with waitNum := some num })) ∧
      (fr.pb.embEn p = true → fr.arr.embBytes + k.payload.length ≤ 8192 →
        exec (.embeddedData p k) s = .next (s.modFrame p false fun fr =>
          { fr with waitNum := none, emb := fr.emb ++ k.payload,
                    arr := { fr.arr with embBytes := fr.arr.embBytes + k.payload.length } })) ∧
      (fr.pb.orderB p = false → k.dt.toNat ≠ fr.pb.dt p →
        exec (.rowPacket p k) s = .next (s.occur (srcPort p 14))) ∧
      (∀ d : BitVec 6, fr.pb.orderB p = false → ((s.portEvent p 19).port p).frame = some fr →
        exec (.hsSyncError p false d) s =
          .next (if d.toNat = fr.pb.dt p then (s.portEvent p 19).rowLost p 0 else s.portEvent p 19)) ∧
      exec (.skewCalibration p) s = .next ((s.modPort p fun x => { x with skewSeen := true }).occur (srcPort p 21)) ∧
      exec (.ulpsTransition p) s = .next (s.occur (srcPort p 31))) ∧
  (∀ (s : State) (p : Port), s.up → s.serial.mp1 = none → (s.port p).windowOpen = true →
      let n := (s.port p).sgenCount
      let f (m : BitVec 15) (x : PortS) : PortS :=
        { x with sgenCount := m, sgenNext := m.zeroExtend 16 ||| (if x.unsettled then 0x8000 else 0), windowOpen := false, batch := 0,
                 unsettled := false }
      ((s.port p).batch = 0 → exec (.settingsWindowClose p) s = .next (s.modPort p (f n))) ∧
      ((s.port p).batch ≠ 0 → exec (.settingsWindowClose p) s = .next ((s.modPort p (f (n + 1))).occur (srcPort p 25))) ∧
      ((s.port p).frame = none → (s.port p).selfTest = false → s.thermal.shutdown = false → (s.unit (uPort p)).st = 2 →
        exec (.portSelfTest p) s = .next (s.modPort p fun x => { x with selfTest := true })))

/-- R75, R97, R158–R161, R291: a lane that may take the group runs it, whole by the reference arithmetic or by the loaded kernel from its entry
point, with the constants placed and the invocation's registers set; an invocation that does not end in time is a detected error of its
lane with cause 0xFE; a stall of a lane past 1,024 cycles raises source 3. The model's choices are the invocation taken whole (log entry 8),
which has no timeout (log entry 52), the flags and loops it starts with (log entry 142) and an entry's low bits, which are cleared (log
entry 177). -/
def Obligations.HearthInvocations : Prop :=
  ∀ (s : State) (p : Port) (tail : Bool) (l : LaneNo) (row col : Nat) (fr : Frame), s.up →
    ((s.port p).fr tail = some fr → s.mayInvoke p fr l row col = true →
      let b := fr.bandOf l
      let u := (s.kernelTake (clusterOf l)).constsPlace l p fr b row
      exec (.hearthInvocation p tail l row col true) s =
        .next (((u.modLane l fun x => { x with ctx := x.ctx.setRegs (hearthRegs l row col b.first) }).groupRun p tail row col).count
          (96 + l.val) 1).clocksTake ∧
      ∃ t, exec (.hearthInvocation p tail l row col false) s = .next t ∧ t = u.invocStart l p tail fr row col ∧
        (∃ v, (t.lane l).invoc = some v ∧ v.port = p ∧ v.tail = tail ∧ v.row = row ∧ v.col = col) ∧
        (t.lane l).ctx.pc = wn (t.cluster (clusterOf l)).entry.toNat &&& 0xFFFFFFFC ∧ (t.lane l).ctx.block = .ready ∧
        (t.lane l).ctx.get 1 = wn row ∧ (t.lane l).ctx.get 2 = wn col) ∧
    ((s.lane l).invoc.isSome = true →
      let t := s.detect (uLane l) 0xFE
      exec (.invocationTimeout l) s = .next ((if (t.unit (uLane l)).st = 0 then t.dropInvoc l else t).settleUnit (uLane l))) ∧
    (∀ a n : Nat, (s.lane l).ctx.block = .interlock a n →
      exec (.tileInterlockStall l) s = .next ((s.count l.val 1024).occur (srcLane l 3)))

/-- R24, R186, R191, R297: a band's words of a row leave the radiometric unit once its lanes have completed it, each the corrected word of its
element; a pending notification enters channel 15 of its engine and is cleared; a deadline has its frame patched and completed, and one
that finds it finished, or not processed, only passes. That one band's words go at once is the model's choice (log entry 9). -/
def Obligations.FramesLeaveTheHearth : Prop :=
  ∀ (s : State) (p : Port) (tail : Bool) (l : LaneNo) (row : Nat) (fr : Frame) (b : Band) (e : Eng), s.up →
    ((s.port p).fr tail = some fr → fr.bands.find? (fun b => b.lane == l) = some b → fr.processed = true → row < fr.pb.rows p →
      (∀ i, i < b.width → (fr.px p row (b.first + i)).doneC = true ∧ (fr.px p row (b.first + i)).word = none) →
      exec (.radiometricRow p tail l row) s = .next (((forEach ((List.range (b.width / 8)).map fun g => b.first + 8 * g)
        (fun a t => t.groupOut p tail row a) s).earlyZones p tail).tryComplete p tail |>.earlyZones p false)) ∧
    ((s.port p).fr tail = some fr → fr.bands = [b] → b.lane = l → b.width = 8 → fr.processed = true → fr.profile ≠ 1 → fr.ended = false →
      row < fr.pb.rows p → b.first + 8 ≤ fr.pb.cols p →
      (∀ i, i < 8 → (fr.px p row (b.first + i)).doneC = true ∧ (fr.px p row (b.first + i)).word = none ∧
        (fr.px p row (b.first + i)).lost = false) →
      ∃ t, exec (.radiometricRow p tail l row) s = .next t ∧ ∃ g, (t.port p).fr tail = some g ∧
        ∀ i, i < 8 → ((g.px p row (b.first + i)).word).isSome = true) ∧
    (e.val = p.val + 1 → (s.port p).notify &&& 0xFFFF0003 ≠ 0 → ((s.eng e).chans.get 15).length < 4 →
      exec (.statsNotifyDeliver p) s = .next (((s.modEng e fun en => { en with chans := upd en.chans 15 (· ++ [(s.port p).notify]) }).latch
        e 0 24).modPort p fun x => { x with notify := 0 })) ∧
    exec (.frameDeadline p) s = .next ((s.deadline p).earlyZones p false).clocksTake ∧
    ((s.port p).tail = some fr → fr.deadlinePassed = false →
      (∃ g, ((s.deadline p).port p).tail = some g ∧ g.deadlinePassed = true) ∧
      ((∀ l, (s.lane l).abandoned = none) → fr.processed = false ∨ fr.statDone = true →
        s.deadline p = s.modFrame p true fun fr => { fr with deadlinePassed := true }))

/-! ### Transits, production loads, trims (R199–R233) -/

/-- R208, R212–R215, R218, R220, R229, R424: a transit that waits in vain for its dome is abandoned with code 1 (closing) or 3 (opening), and the holds that
wait end; a group of a flat frame enters its accumulators once; a finished group enters the staging entries; the flat check decides
between code 2 and the opening of the dome; the merge copies each row once and ends with the last, a restore's with the record 0x302. -/
def Obligations.TransitSteps : Prop :=
  ∀ (s : State) (c : Transit), s.up → s.transit.cur = some c →
    let p := c.port
    let pb := s.params.force
    let waits (q : Port) : Bool := (s.port q).transitHold && !(s.port q).holdEnds && decide (p ≠ q)
    (c.step = 2 → c.dome = false → exec .transitCloseTimeout s = .next (s.transitAbandon 1 false)) ∧
    (c.step = 6 → c.dome = false → (∀ q, waits q = false) → exec .transitOpenTimeout s = .next (s.transitAbandon 3 false)) ∧
    (∀ q, waits q = true → exec .transitOpenTimeout s =
      .next (forEach ((allFin 4).filter waits) (fun q t => t.modPort q fun x => { x with holdEnds := true }) s)) ∧
    (∀ (l : LaneNo) (row col : Nat) (fr : Frame), s.transitLane l = true → row < pb.rows p → col % 8 = 0 → col + 8 ≤ pb.cols p →
      (∀ k : Nat, s.accFrame c row col = some (fr, k) → c.step = 4 ∨ c.step = 5 → row < fr.pb.rows p → col + 8 ≤ fr.pb.cols p →
        c.accDone.contains (k, row, col) = false ∧
        ∃ (u : State) (old : Nat × List Byte × List Nat), exec (.transitAccumulate l row col) s = .next ((forEach (List.range 8) (fun i t =>
            t.accElem { c with flats := k } fr row (col + i)) u).modCur fun c =>
              { c with accDone := (k, row, col) :: c.accDone, accOld := if fr.ended then c.accOld else old :: c.accOld }) ∧
          u.ports = s.ports ∧ u.transit = s.transit ∧ u.params = s.params ∧ u.nv.mem = s.nv.mem) ∧
      (c.step = 5 → c.finDone.contains (row, col) = false →
        (∀ r, r < pb.rows p → ∀ g, g < pb.cols p / 8 → ∀ k, k < c.flats → c.accDone.contains (k + 1, r, 8 * g) = true) →
        ∃ u : State, exec (.transitFinish l row col) s = .next ((forEach (List.range 8) (fun i t =>
            t.finishElem c (s.cdomeOf c pb) row (col + i)) u).modCur fun c => { c with finDone := (row, col) :: c.finDone }) ∧
          u.ports = s.ports ∧ u.transit = s.transit ∧ u.params = s.params ∧ u.nv.mem = s.nv.mem)) ∧
    (∀ (fr : Frame) (row a : Nat), s.sampleBad p fr (fr.pb.blindRows p + row) (fr.pb.left p + a) = false → c.flats = 1 →
      let xs := s.samplesOf fr.pb p fr.f (fr.pb.blindRows p + row) (fr.pb.left p + a)
      let x := satS 32 (trimMean (fld (fr.pb.portF p 5 0) 9 8) xs - fr.colOff p a - fr.rowOffOf p row)
      let ad := accAddr fr.pb p row a
      s.accElem c fr row a = s.storeWrite ad (wordsBytes (accStep true x xs (s.storeWords ad 4)))) ∧
    (c.step = 5 → (∀ r, r < pb.rows p → ∀ g, g < pb.cols p / 8 → c.finDone.contains (r, 8 * g) = true) →
      let t := forEach (List.range (pb.rows p)) (fun r t => t.storeCheck (recordAddr pb p r 0) (64 * pb.cols p))
        (s.maskPass (pb.rows p) (pb.cols p) 16 (stageAddr pb p) fun r a => stageAddr pb p r a + 8)
      exec .transitStagingComplete s = .next
        (if t.flatFails p then t.transitAbandon 2 false
         else (t.modCur fun c => { c with step := 6, dome := false }).blwRelease (domeOf p))) ∧
    (∀ row, s.transit.mergePort = some p → row < pb.rows p → s.transit.mergedRows.contains row = false → s.rowAwaits p row = false →
      let t := (s.mergeRow p row).modTransit fun x => { x with mergedRows := row :: x.mergedRows }
      exec (.transitMergeRow p row) s =
        .next (if t.params.force.rows p ≤ t.transit.mergedRows.length then t.mergeEnd else t) ∧ t.mergeEnd.transit.mergePort = none ∧
        (c.merging = false → t.mergeEnd = (t.noteLoaded p 0).modTransit fun x =>
          { x with mergePort := none, mergedRows := [], cur := if x.cur.any (·.merging) then none else x.cur }))

/-- R226, R227, R230–R233, R355, R424: a production load ends with a code for each port it names: a running port refused with 0x13 and nothing of it
changed, a sound section written, its masks set, with a new error generation and the code 0; a load answers with its sequence number, each
port's outcome in a record 0x302.
A self-trim pass counts, asks each modulator for its measurements and writes its record; a modulator's offset is its mean raw code at shorted
inputs, its gain trim 2^22 over the difference. The model's choices are where the sections stand (log entry 158), the fills of a load as one span (log entry 179), the measurements
of a pass in one gap (log entry 159) and the free gain trim where the difference has no quotient (log entry 3). -/
def Obligations.ProductionLoadsAndTrims : Prop :=
  (∀ (s : State) (flash : List (Nat × List Byte)) (e : Option (Fin 4)), s.up → s.transit.prodBusy = true → s.serial.mp0 = none →
    s.mp0Soft 0 = false →
    let q := s.prodPorts (prodSections (s.t1 9).toNat flash) e ((allFin 4).filter fun p => s.transit.prodPorts.getLsbD p.val) false
    exec (.productionLoadDone flash e) s = .next ((forEach q.2 (fun e t => t.noteLoaded e.1 e.2) q.1).modTransit fun t =>
      { t with
        prodBusy := false
        prodDone := t.prodSeq
        prodCode := ((q.2.find? fun e => e.2 ≠ 0).map (·.2)).getD 0
        prodP := updAll t.prodP fun p x => ((q.2.find? fun e => e.1 = p).map (·.2)).getD x })) ∧
  (∀ (s : State) (p : Port) (sec : List Byte) (lost : Bool),
    let pb := s.params.force
    let es := (sec.drop 64).take (pb.cols p * pb.rows p * 6)
    let h := bytesWords (sec.take 64)
    ((s.port p).st = .running → s.prodPort p sec lost = (s, 0x13)) ∧
    ((s.port p).st ≠ .running → s.prodPort p sec true = (s, 0x14)) ∧
    ((s.port p).st ≠ .running → prodHeader pb p h = none → crc32c es = nthW h 7 →
      s.prodPort p sec false = ((((s.prodWrite p h es).maskPass (pb.rows p) (pb.cols p) 64 (recordAddr pb p)
        fun r a => recordAddr pb p r a + 12).egenInc p).startAgain p, 0))) ∧
  (∀ (s : State) (m : TrimMeas), s.up → s.boot.step = 3 → s.clocks.refOk = true → (s.eng engME).st = 1 → s.trimDue = true →
    let a := forEach (allFin 12) (fun k t => t.trimCluster m k) s
    let b := if 500 < ((m.rcCount : Int) - 100000).natAbs then a.occur (srcClock 41) else a
    let c := b.setTrim 12 (m.rcCode.zeroExtend 32)
    let d := forEach (allFin 8) (fun k t => t.modTrimAsk k)
      (c.modTransit fun t => { t with islandTemps := updAll t.islandTemps fun j _ => c.islandTemp j })
    exec (.selfTrimPass m) s = .next (d.refDue.modTransit fun t =>
      { t with trimcount := t.trimcount + 1, trimTicks := d.agreed, trimPcc := d.nv.pcc, trimAsk := false }).trimRecord) ∧
  (∀ (s : State) (k : Fin 8), (s.sextant.stopped = false → s.modRetired k = false →
      s.modTrimAsk k = (s.modMod k fun x => { x with trimDue := true }).sxNext k none) ∧
    (s.sextant.stopped = true ∨ s.modRetired k = true → s.modTrimAsk k = s)) ∧
  (∀ (s : State) (k : Fin 8) (a b : Int), let o := rndDiv a 16
    let f := (14 + k.val, wn (BitVec.ofInt 24 (satS 24 o)).toNat)
    (16 * o < b → s.trimMod k a b = (s.setTrim f.1 f.2).setTrim (22 + k.val) (wi (satU 32 (rndDiv (2 ^ 56) (b - 16 * o).toNat)))) ∧
    (b ≤ 16 * o → s.trimMod k a b = (s.free.2.setTrim f.1 f.2).setTrim (22 + k.val) s.free.1))

/-! ### The store and the tests of units (R245–R250, R287–R296) -/

/-- R245–R248, R250, R256, R257: a row's copy ends and its march begins, every word of the row checked; a row copied back leaves the sequence;
the migration moves one block below its pointer, its words corrected or carried as poison, and ends, in 15-channel mode, with block 0;
the scrubber checks one word a read, skips a poisoned one and counts a pass with the last; a late pass raises source 7 of every channel
in service. That the scrubber goes by ascending addresses is the model's choice (log entry 40). -/
def Obligations.RowsMigrationAndScrub : Prop :=
  ∀ (s : State) (ch bank : Fin 16) (row : BitVec 13) (q : RowSeq) (addr : W), s.up →
    (s.seqAt ch bank row.toNat 0 = some q →
      exec (.rowCopyDone ch bank row) s = .next
        ((forEach (s.store.flawed fun w => s.inRow q w) (fun w t => t.checkWord w) s).modStore fun t =>
          { t with seqs := t.seqs.map fun x =>
              if x.ch = q.ch ∧ x.bank = q.bank ∧ x.row = q.row then { x with phase := 1 } else x })) ∧
    (s.seqAt ch bank row.toNat 2 = some q →
      exec (.rowCopyBackDone ch bank row) s = .next (s.modStore fun t => { t with seqs := t.seqs.erase q })) ∧
    (s.store.mig = true →
      let n := s.store.migNext - 1
      let u := (s.copyWords fun w => blockOf (8 * w) == n).modStore fun t => { t with migNext := n }
      (n ≠ 0 → exec .migrationBlockMove s = .next u) ∧
      (n = 0 → exec .migrationBlockMove s =
        .next ((u.modStore fun t => { t with mig := false, ch15 := true }).occur (srcChan u.store.retch 6)))) ∧
    (∀ w, w ∈ s.store.poison → s.copyWord w = s.modStore fun x => { x with poisonAddr := wn (8 * w) }) ∧
    (∀ w, w ∉ s.store.poison →
      (w ∈ s.store.hard → ∃ t : State, s.copyWord w = t.occur (srcChan (wordLoc s w).1 1) ∧
        t = s.modStore fun x => { x.poisonWord w with ue := satAdd x.ue 1, poisonAddr := wn (8 * w) }) ∧
      (w ∉ s.store.hard → w ∈ s.store.soft → ∃ t : State, s.copyWord w = t.occur (srcChan (wordLoc s w).1 0) ∧
        w ∉ t.store.soft ∧ t.store.mem = s.store.mem ∧ t.store.ce = s.store.ce + 1)) ∧
    (2 ≤ s.boot.step.val → s.boot.step ≠ 5 → s.unbacked (8 * (addr.toNat / 8)) 8 = false →
      let w := addr.toNat / 8
      let u := if s.store.poison.contains w then
          s.modStore fun t => { t with skippedPoison := t.skippedPoison + 1, poisonAddr := wn (8 * w) } else s.checkWord w
      exec (.scrubRead addr) s = .next (if w = u.scrubLast then u.modStore fun t => { t with passes := t.passes + 1 } else u)) ∧
    exec .scrubLate s = .next (forEach ((allFin 16).filter fun c => !(s.store.ch15 && c == s.store.retch))
      (fun c t => t.occur (srcChan c 7)) s)

/-- R249, R287, R288, R292, R293, R295, R296: an isolated unit that has drained is tested; a passed requested test returns it to service with
the outcome 0, a failed one, requested or after an error, is permanent: counted, FAULT set, the unit pending retirement; a row's march
that passes copies its row back, one that finds faults in several rows has its bank decided (log entry 114: the model's choice of how the
march tells it, and of that record's cause), and one whose retry overruns is permanent. -/
def Obligations.UnitTestsDecide : Prop :=
  ∀ (s : State) (i : Fin 182) (left : Nat), s.up → s.thermal.shutdown = false →
    ((s.unit i).st = 1 → s.drained i = true →
      exec (.unitDrained (slotUid i)) s = .next (s.testBegin i)) ∧
    (∀ pass wide : Bool, (s.unit i).st = 2 →
      (i.val < 108 ∨ (128 ≤ i.val ∧ i.val < 134) ∨ (∃ p : Port, i.val = 108 + p.val ∧ (s.port p).selfTest = true) →
        exec (.selfTestDone (slotUid i) pass left wide) s = .next (s.testOver i pass left).fmDeliver) ∧
      (∀ t : Fin 48, i = uSensor t → 44 ≤ t.val →
        exec (.selfTestDone (slotUid i) false left wide) s = .next (s.sensorTest t false))) ∧
    ((s.unit i).byError = false → i.val < 96 → let t := s.testDecide i true left
      ((s.unit i).st ≠ 6 → (t.unit i).st = 0) ∧ ((s.unit i).st = 6 → (t.unit i).st = 6 ∧ (t.unit i).backAtMer = true) ∧
        t.fm.lastOut = 0 ∧ t.fm.last = slotUid i ∧ t.fm.permanent = s.fm.permanent ∧ t.fm.fault = s.fm.fault) ∧
    (i.val < 134 → s.anyRunning = true → let t := s.testOver i false left
      ((s.unit i).st ≠ 6 → (t.unit i).st = 4) ∧ ((s.unit i).st = 6 → (t.unit i).st = 6 ∧ (t.unit i).failAtMer = true) ∧
        t.fm.permanent = satAdd s.fm.permanent 1 ∧ t.fm.fault = true ∧ t.fm.lastOut = 1 ∧ t.fm.last = slotUid i ∧
        t.fm.lastCause = (s.unit i).cause) ∧
    (let t := s.fmPermanent.fmDecide (slotUid i) (s.unit i).cause 1;
      t.fm.permanent = satAdd s.fm.permanent 1 ∧ t.fm.fault = true ∧ t.fm.lastOut = 1 ∧ t.fm.last = slotUid i ∧
        t.fm.lastCause = (s.unit i).cause) ∧
    (∀ q ∈ s.store.seqs, q.phase = 1 → s.store.seqs = [q] → q.row < 8192 → let u := rowUid q.ch.val q.bank.val q.row
      exec (.retryBudgetOverrun u) s = .next (s.rowTestOver q false).fmDeliver ∧
      (∀ wide : Bool, exec (.selfTestDone u true left wide) s = .next (s.rowTestOver q true).fmDeliver) ∧
      exec (.selfTestDone u false left false) s = .next (s.rowTestOver q false).fmDeliver ∧
      exec (.selfTestDone u false left true) s = .next (s.rowTestWide q).fmDeliver)

/-! ### Twin operation (R311–R340) -/

/-- R313–R316, R330, R335, R337, R66: frames on the link. Heartbeats carry the state and a running number, a gap raises source 16; an
acknowledgement is cumulative; unacknowledged frames go again, each counted; what is received in order is acknowledged next, what is not
is discarded, counted and acknowledged again; a message enters its channel of the ME, a record is entered as mirrored, the image's
bytes land in the buffer in order. The model's choices: a received frame as a command with its header (log entry 29), the count of frames out
of sequence (log entry 162) and the places in an NVWRITE (log entry 33). -/
def Obligations.LinkFrames : Prop :=
  ∀ s : State, s.up →
    (s.linkUp = true →
      (∃ w0, exec .heartbeatSend s = .next (s.modTwin fun x =>
          { x with
            heartNo := x.heartNo + 1
            lastSent := some ⟨0x01, 0, x.ackNo, 0, 0, [w0, x.heartNo, wn s.nv.optime, wn (s.nv.optime / 2 ^ 32 % 256)]⟩
            ackDue := false }) ∧
        fld w0 3 0 = s.twin.st.val ∧ bitOf w0 4 = s.twin.prime ∧ bitOf w0 5 = s.twin.owner ∧ bitOf w0 7 = s.fm.fault)) ∧
    (∀ (h : RxHdr) (w0 w1 w2 w3 : W), s.twin.trained = true → h.crcOk = true →
      let v := s.rxAck h.ack
      v.linkUp = true → bitOf w0 7 = false → fld w0 10 8 ≤ v.thermal.stage → v.twin.lastHeart ≠ Vector.replicate 4 0 →
      let u := if w1 = v.twin.lastHeart.get 1 + 1 then v else v.occur (srcLink 16)
      exec (.heartbeat w0 w1 w2 w3 h) s = .next ((u.heartState w0).modTwin fun x =>
        { x with lastHeart := #v[w0, w1, w2, w3], peerStage := fld w0 10 8, peerFault := false })) ∧
    (∀ h : RxHdr, s.heard h → let v := s.rxAck h.ack
      let u := v.linkRx
      (∀ (ch : Fin 16) (w : W), v.linkUp = true → v.chanRoom engME ch = true → exec (.msg ch w h) s = .next (u.chanPut engME ch w)) ∧
      (∀ ws : List W, v.linkUp = true → exec (.almanac ws h) s = .next (u.queueRec
        { w0 := nthW ws 0, w1 := nthW ws 1 ||| 0x00010000, w2 := nthW ws 2, w3 := nthW ws 3,
          payload := (ws.drop 4).take (fld (nthW ws 0) 23 16 / 4) } none)) ∧
      (∀ (page : Fin 768) (off : BitVec 8) (bs : List Byte), v.linkUp = true →
        let x := if u.twin.prime then u.linkSend 0x09 3 0 (nvFrame page.val off.toNat bs) else u
        exec (.nvwrite page off bs h) s = .next ((x.modNv fun n => { n with sent := n.sent.erase (page.val, off.toNat, bs) }).nvQueue
          { page := 1024 + page.val, off := off.toNat, bytes := bs.take (256 - off.toNat), src := .hostMirrored })) ∧
      (∀ bs : List Byte, v.boot.step = 2 → v.boot.bootsel = 2 → v.twin.imgAsked = true →
        let n := u.twin.imgLen
        let x := (u.storeWrite (imgBufBase + n) (bs.take (2 ^ 24 - n))).modTwin fun t => { t with imgLen := t.imgLen + bs.length }
        let total := (x.storeWord (imgBufBase + 8)).toNat
        exec (.image bs h) s =
          .next (if 12 ≤ x.twin.imgLen ∧ n < total ∧ total ≤ x.twin.imgLen then x.occur (srcLink 21) else x))) ∧
    (∀ (h : RxHdr) (ch : Fin 16) (w : W), s.twin.trained = true → h.crcOk = true → h.seq ≠ (s.rxAck h.ack).twin.rxSeq →
      exec (.msg ch w h) s = .next ((s.rxAck h.ack).modTwin fun t => { t with crcerr := satAdd t.crcerr 1, ackDue := true })) ∧
    (s.twin.trained = true →
      (∀ h : RxHdr, h.crcOk = true → exec (.ack h) s = .next (s.rxAck h.ack)) ∧
      (∀ a : Byte, s.twin.queue = [] → s.rxAck a = s.modTwin fun t =>
        { t with badRun := 0, unacked := t.unacked.filter fun f => 128 ≤ (a - f.seq).toNat }) ∧
      (s.twin.ackDue = true → exec .ackSend s = .next (s.modTwin fun t =>
        { t with ackDue := false, lastSent := some ⟨0x0C, 0, t.ackNo, 0, 0, []⟩ })) ∧
      (s.twin.unacked ≠ [] → exec .linkResend s = .next (forEach (List.range s.twin.unacked.length) (fun _ u => u.occur (srcLink 18))
        (s.modTwin fun x => { x with retx := satAdd x.retx x.unacked.length, lastSent := x.unacked.getLast?, ackDue := false })))) ∧
    (∀ (ty : Byte) (k : Nat) (p : Port) (ws : List W), s.twin.queue = [] → s.twin.unacked.length < 128 → ws.length < 512 →
      let t := s.linkSend ty k p ws
      t.twin.txSeq = s.twin.txSeq + 1 ∧ t.twin.unacked = s.twin.unacked ++ [⟨ty, s.twin.txSeq, s.twin.ackNo, k, p, pad8 ws⟩] ∧
        t.twin.queue = [])

/-- R313, R315–R318, R331, R466: the states of the twin unit. A link trained sends HELLO and pairs, asks for the image under the mask ROM, and
serves a partner that asks for it besides; one that trains again while the pair works goes on where it was; a HELLO of another image is refused; one that matches begins RESYNC with every port out of step; a timeout,
or the loss of the partner, leaves the device ALONE, and the owner keeps OWNER; a link that retrains tells it by source 1. The model's choices are
how the image is asked for (log entry 34) and what a link trained again does (log entry 175). -/
def Obligations.PairsFormAndPart : Prop :=
  ∀ s : State, s.up →
    (s.twin.trained = false →
      (s.twinEn = true → s.boot.step ≠ 2 →
        let pair := ((((s.linkDiscard.modTwin Twin.fresh).occur (srcLink 0)).twinState 2).linkSend 0x02 1 0 s.helloWords)
        let on := (s.modTwin fun t => { t with trained := true, lock := 0xF, badRun := 0 }).occur (srcLink 0)
        let joins : Prop := s.twin.st = 1 ∨ s.twin.st = 2 ∨ (s.twin.st = 5 ∧ bitOf (s.params.force.fld 2 0) 2 = true)
        (joins → exec (.linkTrained none) s = .next pair ∧ (∀ bs : List Byte, exec (.linkTrained (some bs)) s = .next (pair.serveImage bs)) ∧
          pair.twin.st = 2 ∧ pair.twin.trained = true ∧ pair.twin.txSeq = 1 ∧ pair.twin.rxSeq = 0 ∧
          ∃ f, pair.twin.lastSent = some f ∧ f.type = 0x02 ∧ f.seq = 0) ∧
        (¬ joins → exec (.linkTrained none) s = .next on ∧ ∀ bs : List Byte, exec (.linkTrained (some bs)) s = .next (on.serveImage bs))) ∧
      (s.boot.step = 2 → s.boot.bootsel = 2 → exec (.linkTrained none) s =
        .next ((s.modTwin fun t => { t.fresh with imgAsked := true }).occur (srcLink 0)))) ∧
    (s.twin.trained = true → exec .linkRetrain s = .next s.linkRetrain ∧ s.linkRetrain.twin.trained = false ∧
      s.linkRetrain.twin.lock = 0 ∧ (s.twin.st ≠ 5 → s.linkRetrain.twin.st = s.twin.st)) ∧
    (∀ (h : RxHdr) (ws : List W), s.heard h → (s.rxAck h.ack).twin.st = 2 →
      let u := (s.rxAck h.ack).linkRx.modTwin fun t => { t with peerSn := nthW ws 1 ++ nthW ws 0 }
      (nthW ws 3 = idWord → nthW ws 4 = u.imageDigest → exec (.hello ws h) s = .next (u.paired ws)) ∧
      (nthW ws 3 ≠ idWord ∨ nthW ws 4 ≠ u.imageDigest → exec (.hello ws h) s = .next ((u.alone 6).occur (srcLink 3)))) ∧
    (s.twin.st = 1 → exec .pairingTimeout s = .next (s.alone 5)) ∧
    (s.linkUp = true → exec .partnerLost s = .next
      ((((s.occur (srcLink 7)).noteTwin 7).modTwin fun t => { t with lastHeart := Vector.replicate 4 0 }).alone 5)) ∧
    (s.twin.owner = true → s.twin.laterD = none → s.nv.sent = [] → ∀ n : Fin 7, let t := s.alone n
      t.twin.st = n ∧ t.twin.owner = true ∧ t.twin.prime = true ∧ t.twin.unacked = [] ∧ t.twin.sweep = false ∧
        t.twin.peerMap = s.twin.peerMap)

/-- R322–R329, R333, R334: agreement and resync. The prime keeps the latest PROPOSE of a port and sends AGREE once the settings window has
closed; the shadow holds an AGREE for the next meridian of its port; digests are compared as both become known; a row received is
installed only after the receiver's own processing of it and in the frame it was sent for, and waits for that frame; the source sends the
rows of its sweep in order and those of its tiles, each after its own write-back. What the prime finds out of step it tells the shadow by
withholding that AGREE. These are the model's choices: log entry 166, what is captured when (log entry 13), an AGREE that merges into the
next (log entry 95) and what the first AGREE of a pair lists (log entry 163). -/
def Obligations.AgreementAndResync : Prop :=
  ∀ (s : State) (p : Port) (row : Nat), s.up →
    (∀ h : RxHdr, s.heard h → (s.rxAck h.ack).linkUp = true → (s.rxAck h.ack).twinning = true →
      let u := (s.rxAck h.ack).linkRx
      (∀ ws : List W, u.twin.prime = true → fld (nthW ws 0) 1 0 = p.val →
        let q : Proposal :=
          { port := p, m := nthW ws 1, stage := fld (nthW ws 0) 6 4, fstate := fld (nthW ws 0) 9 8, fno := (nthW ws 2).extractLsb' 0 16,
            entries := (List.range (fld (nthW ws 0) 31 16)).map fun i => (nthW ws (3 + 2 * i), nthW ws (4 + 2 * i)), used := false }
        let v := u.modTwin fun t => { t with proposals := (t.proposals.filter fun x => x.port ≠ p) ++ [q], propStage := q.stage }
        (u.twin.captured.any (fun a => a.port == p) = true ∨ q.m ≠ v.agreedMer p → exec (.propose ws h) s = .next v) ∧
        (u.twin.captured.any (fun a => a.port == p) = false → q.m = v.agreedMer p →
          exec (.propose ws h) s = .next (v.proposeCheck p))) ∧
      (∀ ws : List W, u.twin.prime = false → ws.length < 512 → u.twin.agreeIn = [] → u.anyRunning = true → let a := readAgree ws
        exec (.agree ws h) s = .next (u.modTwin fun t =>
          { t with
            agreeIn := []
            held := (t.held.filter fun x => x.port ≠ a.port) ++ [a]
            offsets := if t.offsetDue.get a.port then upd t.offsets a.port fun _ => a.m - (u.port a.port).mer else t.offsets
            offsetDue := upd t.offsetDue a.port fun _ => false })) ∧
      (∀ (frame : W) (es : List DigestEntry), exec (.digest p frame es none h) s = .next (u.modTwin fun t =>
        let new := es.map fun e => (p.val * 65536 + e.tile, frame.toNat, e.crc, e.flags)
        { t with peerTiles := (t.peerTiles.filter fun e => !(new.any fun n => n.1 == e.1)) ++ new }).digestSettle) ∧
      (∀ (tile frame : W) (a b : Bool), exec (.outcome p tile frame a b h) s = .next ((u.modTwin fun t =>
        { t with tests := t.tests.map fun e =>
            if e.key = p.val * 65536 + tile.toNat % 65536 ∧ e.frame = frame.toNat then { e with peer := some (a || b) } else e }).occur
              (srcLink 12)).testSettle) ∧
      exec (.state none h) s = .next u ∧
      (∀ r : ResyncRow, r.portState = none → exec (.state (some r) h) s = .next (u.modTwin fun t =>
        { t with rowsIn := (t.rowsIn.filter fun x => !(x.port == r.port && x.row == r.row)) ++ [r] }))) ∧
    (s.twinning = true →
      (∀ a : Agreement, s.twin.prime = true → (s.port p).windowOpen = false → (s.twin.captured.find? fun a => a.port = p) = some a →
        let v := s.proposeCheck p
        let sends := !v.twin.agreeHold.get p
        let b := v.agreeLists
          { a with stage := max v.thermal.stage v.twin.propStage, sgen := (v.port p).sgenNext, swap := a.swap && sends }
        ∃ t : State, exec (.agreeSend p) s = .next (if sends then t.linkSend 0x04 1 p (agreeWords b) else t) ∧
          t = { v with twin := t.twin } ∧ t.twin.captured = v.twin.captured.filter (fun x => x.port ≠ p) ∧
          t.twin.held = v.twin.held.filter (fun x => x.port ≠ p) ++ [b] ∧ t.twin.agreeHold.get p = false) ∧
      (∀ r : ResyncRow, (s.twin.rowsIn.find? fun r => r.port = p ∧ r.row = row) = some r →
        let u := s.modTwin fun t => { t with rowsIn := t.rowsIn.erase r }
        let now := (s.rowPlace p row).any fun e => e.1 == r.frame
        let ahead := (r.frame - s.agreedMer p).toNat
        let early : Prop := (1 ≤ ahead ∧ ahead < 2 ^ 31) ∨ (ahead = 0 ∧ s.rowDone p row = false)
        (now = true → exec (.resyncRowInstall p row) s = .next ((u.installRow r).rowInstalled p row)) ∧
        (now = false → early → exec (.resyncRowInstall p row) s = .next s) ∧
        (now = false → ¬ early → exec (.resyncRowInstall p row) s = .next u)) ∧
      (row < s.params.force.rows p → (s.rowPlace p row).isSome = true →
        (s.twin.sweep = true → s.twin.sweepPort = p → s.twin.isSource p = true →
          (row = s.twin.sweepRow → exec (.resyncRowSend p row) s = .next (s.sweepSend p row)) ∧
          (row < s.twin.sweepRow → exec (.resyncRowSend p row) s = .next (s.sendRow p row))) ∧
        (s.twin.sweep = false → ((tilesAt s.params.force p row).any fun k => s.twin.sendTiles.contains (p.val, k)) = true →
          exec (.resyncRowSend p row) s = .next (s.sendRow p row))) ∧
      (s.rowPlace p row = none → exec (.resyncRowSend p row) s = .next s))

/-- R84, R311, R331, R332: OWNER. The watchdog that expires drops OWNER with source 9; a device that runs alone takes OWNER again with the
refresh; PEER_OWNER is pin 15, raises source 24 when it changes, and its fall gives OWNER to a shadow; an owner has no takeover. The model's
choices are what PEER_OWNER shows without EN (log entry 48) and the roles that follow it (log entry 49). -/
def Obligations.OwnershipChanges : Prop :=
  ∀ s : State,
    (s.fmRefreshes = false → exec .ownerWatchdogExpire s = .next ((s.modTwin fun t => { t with watchdog := true }).dropOwner)) ∧
    (s.twin.owner = true → s.dropOwner.twin.owner = false) ∧
    (s.up → (s.eng engME).st = 1 ∨ s.fmRefreshes = true →
      let u := s.modTwin fun t => { t with watchdog := false }
      (s.twinEn = true → exec .ownerWatchdogRefresh s = .next u) ∧
      (s.twinEn = false → u.mayOwn = true → exec .ownerWatchdogRefresh s = .next u.gainOwner ∧ u.gainOwner.twin.owner = true)) ∧
    (∀ level : Bool,
      let u := s.modSerial fun x => { x with gpio := (x.gpio &&& 0x7FFF) ||| (if level then 0x8000 else 0) }
      (s.twinEn = false → exec (.peerOwnerChange level) s = .next u) ∧
      (s.twinEn = true → s.serial.gpio.getLsbD 15 ≠ level → s.twin.owner = true →
        exec (.peerOwnerChange level) s = .next (u.occur (srcLink 24))) ∧
      (s.up → s.twinEn = true → s.serial.gpio.getLsbD 15 = true → s.twin.owner = false → s.twin.st = 5 → level = false →
        exec (.peerOwnerChange level) s = .next (u.occur (srcLink 24)).wantOwner))

/-! ### The Sextant, the bellows, temperature and power (R341–R395, R443–R446, R463, R464) -/

/-- R342–R344, R349–R355, R357: a trigger puts an idle modulator into its delay, a second one waits, a third is an overrun; a sequence starts with
the chain of its table; each conversion, of the input and against the reference that its entry selects, adds the corrected code, and the
entry's last one forms its record; a failed residue check, or the internal reference outside its window, is an error; a record drains into
channel 12 of the CE as a pair of words. The one conversion of a self-test decides it; the conversions of a self-trim pass give sums of raw
codes. The model's choices are the modulator's own error in the operand (log entry 204), the free code without a reference voltage (log entry 3)
and a pass's 32 conversions in one gap (log entry 159). -/
def Obligations.SextantSequences : Prop :=
  (∀ (s : State) (m : Fin 8) (tm : Nat), s.sextant.stopped = false → s.clocks.refOk = true → (s.unit (uMod m)).st = 0 →
    (s.mod m).testing = false → (s.mod m).inGap = false →
    let ctl := sxCtl s.params.force m
    (bitOf ctl 0 = true → sxTrig ctl = 1 → s.modRetired m = false →
      ((s.mod m).cond = .idle → exec (.sextantTrigger m tm) s = .next (s.modMod m fun x =>
        { x with cond := .delaying, startAt := tm + s.sxDelay m, late := false })) ∧
      ((s.mod m).cond ≠ .idle → (s.mod m).pend = none →
        exec (.sextantTrigger m tm) s = .next (s.modMod m fun x => { x with pend := some tm })) ∧
      ((s.mod m).cond ≠ .idle → (s.mod m).pend.isSome = true → exec (.sextantTrigger m tm) s = .next
        ((s.modMod m fun x => { x with overrun := satAdd x.overrun 1 }).occur (srcMod m 4)))) ∧
    ((s.mod m).cond = .delaying → ∃ u : State, exec (.sequenceStart m) s = .next (u.occur (srcMod m 0)) ∧
      u = { s with sextant := u.sextant } ∧ (∀ k, k ≠ m → u.mod k = s.mod k) ∧ (u.mod m).cond = .converting ∧
      (u.mod m).chain.map (·.no) = ((sxChainOf s.params.force m).getD []).map (BitVec.ofNat 8) ∧ (u.mod m).sum = 0 ∧
      (u.mod m).conv = 0) ∧
    (∀ (c : RawConv) (e : SxEntry) (r : List SxEntry), (s.mod m).cond = .converting → (s.mod m).chain = e :: r →
      let bad := c.residueFail || (sxOutside c && fld e.w0 9 8 == 0)
      let i := sxInput (fld e.w0 5 0) c.pins
      let q := sxReference (fld e.w0 9 8) c.pins
      let f := if q = 0 then s.free.2 else s
      let raw := if q = 0 then s.free.1.toInt
        else rndDiv (i.1 * q.sign * 2 ^ (fld e.w0 14 12 + 23)) (q.natAbs * 2 ^ i.2) + c.err
      let clip := c.overload || decide (sxFull < raw) || decide (raw < -sxFull)
      let u := f.modMod m fun x =>
        { x with
          conv := x.conv + 1
          sum := x.sum + s.sxCode m (clampI raw (-sxFull) sxFull)
          clip := x.clip || clip
          compl := x.compl || c.compliance }
      let v := (u.sxRecord m e).modMod m fun x =>
        { x with chain := r, conv := 0, sum := 0, clip := false, compl := false, startAt := x.startAt + e.dur }
      (bad = true → ((s.sxError m).unit (uMod m)).st = 1 → exec (.sextantConversion m c) s = .next (s.sxError m)) ∧
      (bad = false → (s.mod m).conv + 1 < e.reps → exec (.sextantConversion m c) s = .next u) ∧
      (bad = false → (s.mod m).conv + 1 = e.reps → r ≠ [] → exec (.sextantConversion m c) s = .next v) ∧
      (bad = false → (s.mod m).conv + 1 = e.reps → r = [] → exec (.sextantConversion m c) s = .next (v.sxEnd m).fmDeliver)) ∧
    (∀ (a b : W) (l : List (W × W)), s.up → bitOf ctl 5 = true → ((s.eng engCE).chans.get 12).length ≤ 2 → (s.mod m).fifo = (a, b) :: l →
      exec (.sextantDrain m) s = .next (forEach (allFin 4) (fun c t => t.latch engCE c 24)
        ((s.modMod m fun x => { x with fifo := l }).modEng engCE fun en => { en with chans := upd en.chans 12 (· ++ [a, b]) })))) ∧
  ∀ (s : State) (m : Fin 8) (c : RawConv), s.sextant.stopped = false → s.clocks.refOk = true →
    let raw (inp : Nat) : Int :=
      let i := sxInput inp c.pins
      clampI (rndDiv (i.1 * 2 ^ 23) (c.pins.vint.toNat * 2 ^ i.2) + c.err) (-sxFull) sxFull
    ((s.mod m).testing = true → (s.unit (uMod m)).st = 2 → s.thermal.shutdown = false → s.up →
      exec (.sextantConversion m c) s = .next (s.sxTestConv m c)) ∧
    (c.residueFail = false → sxOutside c = false →
      let pass := decide ((s.sxCode m (raw 0x3A) - 2 ^ 22).natAbs ≤ 2097)
      s.sxTestConv m c = ((s.testOver (uMod m) pass 0).sxNext m (some (((s.mod m).gapAt.map (· + 3000)).getD c.endUs))).fmDeliver) ∧
    (∀ (n : Nat) (a b : Int), (s.unit (uMod m)).st = 0 → (s.mod m).testing = false → (s.mod m).checking = none →
      (s.mod m).trimming = some (n, a, b) → n < 31 → c.residueFail = false → sxOutside c = false →
      exec (.sextantConversion m c) s = .next (s.modMod m fun x =>
        { x with trimming := some (n + 1, if n < 16 then (a + raw 0x30, b) else (a, b + raw 0x3A)) }))

/-- R289, R362–R372: the phases of a bellows channel. A loop period measures the current and is the channel's idle point; pull-in ends in hold, a
pulse's hold in release, release in off; the settled opening and the position detector report a dome; a test pulse is decided, a failed
switch fails both of its channels; overcurrent and a switch fault cut at once, a regulation error releases; low VACT ends every action. A
retry of a failed phase ends with it. The model's choices: a device that does not drive the pins answers their reports alike (log entry 132), a
release's peak and a waiting action's hold (log entry 18), and a retry's hold of a dome whose transit is over (log entry 112). -/
def Obligations.BellowsPhases : Prop :=
  ∀ (s : State) (c : Fin 8),
    (∀ ma : BitVec 16,
      let n := if blwActive (s.blw c) then 1 else 0
      let u := s.modBlw c fun b => { b with measured := ma, periods := b.periods + n, phasePeriods := b.phasePeriods + n }
      let v := if (s.unit (uBlw c)).st ≠ 3 then u else if (s.blw c).st = 3 then (if u.domeLone c then u.blwRelease c else u)
        else if (s.blw c).st = 0 then u.blwRetryDone c else u
      (s.up → exec (.bellowsLoopPeriod c ma) s = .next (v.applyI (0x1D0 + c.val) fun o s => s.blwBlock c o)) ∧
      (s.up → v.readyI (0x1D0 + c.val) = none → exec (.bellowsLoopPeriod c ma) s = .next v) ∧
      (s.thermal.held = true → exec (.bellowsLoopPeriod c ma) s = .next u)) ∧
    (∀ ma : BitVec 16, (s.blw c).st = 2 →
      let b := s.blw c
      let u := (s.modBlw c fun b => { b with st := 3, target := b.act.ihold, phasePeriods := 0, measured := ma }).blwReeval c
      let fin (v : State) : State :=
        if (v.unit (uBlw c)).st = 3 ∧ v.domeLone c = true then (v.blwRetryDone c).blwRelease c else v.blwRetryDone c
      (4 ≤ c.val → exec (.pullInEnd c ma) s = .next (fin (u.blwOccur c 1))) ∧
      (c.val < 4 → b.wantClosed = false → exec (.pullInEnd c ma) s = .next (fin u)) ∧
      (c.val < 4 → b.wantClosed = true → b.act.pos = false → 100 ≤ b.act.ipull →
        (9 * b.act.ipull ≤ 10 * ma.toNat ∧ 10 * ma.toNat ≤ 11 * b.act.ipull) ∨ u.drives = false → u.blwFree c = true →
        exec (.pullInEnd c ma) s = .next (fin (u.blwClosed c)))) ∧
    ((s.blw c).st = 3 → (s.blw c).act.pulse = true → exec (.holdEnd c) s = .next ((s.blwRelease c).blwRetryDone c) ∧
      ((s.unit (uBlw c)).st = 0 → (s.blw (otherBlw c)).req = none → ((s.blwRelease c).blw c).st = 4)) ∧
    ((s.blw c).st = 4 →
      let u := s.modBlw c fun b => { b with st := if b.req.isSome then 1 else s.blwRest c, target := 0 }
      let v := if 4 ≤ c.val then u.blwOccur c 2 else u
      exec (.releaseEnd c) s = .next (((v.blwReeval c).parFollow c).blwRetryDone c)) ∧
    (s.blwRest c = if (s.unit (uBlw c)).st = 0 ∨ (s.unit (uBlw c)).st = 3 then 0 else 6) ∧
    ((s.blw c).wantOpen = true → (s.blw c).act.pos = false →
      (s.blw c).st = 0 ∨ (s.blw c).st = 1 ∨ (s.blw c).st = 5 ∨ (s.blw c).st = 6 →
      exec (.openSettleEnd c) s = .next (s.blwOpened c)) ∧
    (∀ level : Bool, (s.blw c).act.pos = true →
      let g : BitVec 16 := 1 <<< (s.blw c).act.pgpio.val
      let u := s.modSerial fun x => { x with gpio := if level then x.gpio ||| g else x.gpio &&& ~~~g }
      (s.drives = false → exec (.positionReport c level) s = .next u) ∧
      (s.drives = true → (s.blw c).wantClosed = true → (s.blw c).st = 2 ∨ (s.blw c).st = 3 → level = (s.blw c).act.plevel →
        exec (.positionReport c level) s = .next (u.blwClosed c)) ∧
      (s.drives = true → (s.blw c).wantClosed = false → (s.blw c).wantOpen = true → level ≠ (s.blw c).act.plevel →
        exec (.positionReport c level) s = .next (u.blwOpened c))) ∧
    (∀ r : PulseResult, (pulsePass r = true ↔ 85 ≤ r.low ∧ r.high ≤ 115 ∧ r.after < 5 ∧ r.apart ≤ 20) ∧
      ((s.blw c).st = 5 →
        let o := otherBlw c
        let x := ((s.modBlw c fun b => { b with st := 6, target := 0 }).blwReeval c).blwTestOver c (pulsePass r)
        (r.apart ≤ 20 ∨ (x.unit (uBlw o)).st = 4 ∨ (x.unit (uBlw o)).st = 5 → exec (.testPulseEnd c r) s = .next x.fmDeliver) ∧
        (20 < r.apart → (x.unit (uBlw o)).st ≠ 4 → (x.unit (uBlw o)).st ≠ 5 →
          let y := (x.modUnit (uBlw o) fun z => { z with byError := true, cause := (x.unit (uBlw c)).cause }).blwRelease o
          let w := if (y.blw o).st = 0 ∨ (y.blw o).st = 7 then y.modBlw o fun b => { b with st := 6 } else y
          exec (.testPulseEnd c r) s = .next (w.blwTestOver o false).fmDeliver))) ∧
    (s.drives = true → s.blwLive c = true →
      let k := s.blwDriver c
      exec (.bellowsOvercurrent c) s = .next (((s.blwOccur c 5).blwDetect c 5).blwCutTest k).fmDeliver ∧
      ((s.blw k).st ≠ 4 →
        exec (.bellowsRegulationError c) s = .next (((s.blwOccur c 6).blwDetect c 6).blwRelease k).fmDeliver)) ∧
    (∀ (k : Fin 4) (a b : Fin 8), a.val = 2 * k.val → b.val = 2 * k.val + 1 →
      let u := { s with bellows := { s.bellows with hsFault := s.bellows.hsFault ||| 1#4 <<< k.val } }
      let v := ((u.blwOccur a 7).detect (uBlw a) 7).blwOccur b 7
      let w := ((v.detect (uBlw b) 7).settleUnit (uBlw a)).settleUnit (uBlw b)
      let x := if (w.blw a).st = 0 ∨ (w.blw a).st = 7 then w else w.blwCutTest a
      (s.drives = false → exec (.switchFault k) s = .next s) ∧
      (s.drives = true →
        exec (.switchFault k) s = .next (if (x.blw b).st = 0 ∨ (x.blw b).st = 7 then x else x.blwCutTest b).fmDeliver)) ∧
    (∀ low : Bool,
      let u := { s.modThermal (fun t => { t with vact := !low }) with bellows := { s.bellows with lowVact := low } }
      (low = false ∨ s.bellows.lowVact = true → exec (.vactUndervoltage low) s = .next u) ∧
      (low = true → s.bellows.lowVact = false → exec (.vactUndervoltage low) s = .next u.blwLowVact))

/-- R17, R377–R384, R390: a reading in reach, near its neighbours, is the sensor's value and moves its peaks and conditions; one out of reach
makes the sensor suspect, as a missing one does; a zone that stays hot steps up to stage 4 at most, a cool one down; the ME sets
VDD_CORE within its range, at most once a second; a broken sensor that fails its check again stays broken. With the logic die down the
analog die's own sensors reach the comparators. The model's choices: what an update of VDD_CORE out of range does (log entry 16), that a
reading missed under test fails the test (log entry 50), and what finding a sensor broken or sound again records (log entry 115). -/
def Obligations.TemperatureReadings : Prop :=
  (∀ (s : State) (t : Fin 48) (x : BitVec 16), s.thermalUp = false → 40 ≤ t.val → t.val < 44 →
    exec (.sensorReading t x) s = .next (s.shutCheck t x)) ∧
  ∀ (s : State) (t : Fin 48) (x : BitVec 16) (z : Fin 4), s.thermalUp = true →
    (t.val < 44 → exec (.sensorReading t x) s = .next (s.sensorReading t x)) ∧
    (s.thermal.shutdown = false → s.sensorVal t = 0 → x.toInt < 11200 → x.toInt < shutOf s.thermal (zoneOfSensor t) → t.val < 44 →
      s.neighbourReads t = [] →
      (-3840 ≤ x.toInt → ∃ u : State, exec (.sensorReading t x) s = .next (u.sensorAccept t x) ∧
        let w := u.sensorAccept t x
        u.thermal.shutdown = false ∧ (w.sensor t).read = x ∧ (w.sensor t).everRead = true ∧ (w.sensor t).low.toInt ≤ x.toInt ∧
          x.toInt ≤ (w.sensor t).high.toInt) ∧
      (x.toInt < -3840 → ∃ u : State, exec (.sensorReading t x) s = .next (u.sensorDetect t x) ∧ u.thermal.shutdown = false)) ∧
    ((s.unit (uSensor t)).st ≠ 2 → exec (.sensorReadingMissing t) s = .next (s.sensorDetect t (s.sensor t).read)) ∧
    ((s.unit (uSensor t)).st = 2 → exec (.sensorReadingMissing t) s = .next (s.sensorTest t false)) ∧
    ((s.unit (uSensor t)).st = 7 →
      let u := (s.sensor t).underTest.toInt
      let ok := if t.val < 44 then s.crossCheck t x.toInt else decide (u - 128 ≤ x.toInt) && decide (x.toInt ≤ u + 128)
      (ok = false →
        exec (.sensorRecheck t x) s = .next (s.modSensor t fun y => { y with underTest := x })) ∧
      (ok = true → exec (.sensorRecheck t x) s = .next
        ((s.fmDecide (slotUid (uSensor t)) (s.unit (uSensor t)).cause 0).inService (uSensor t)).refreshSet)) ∧
    (∀ k : Fin 5, s.zoneHot z = true → k.val = (s.thermal.zones.get z).val + 1 → exec (.stageUp z) s = .next (s.setZone z k)) ∧
    (∀ k : Fin 5, s.zoneHot z = false → s.zoneSuspect z = false → s.zoneBroken z = false →
      k.val + 1 = (s.thermal.zones.get z).val → 1 ≤ k.val ∨ s.zoneWarm z = false → exec (.stageDown z) s = .next (s.setZone z k)) ∧
    (∀ k : Fin 5, ((s.setZone z k).thermal.zones.get z) = k ∧
      ∀ y, y ≠ z → (s.setZone z k).thermal.zones.get y = s.thermal.zones.get y) ∧
    (∀ mv : BitVec 10, (s.eng engME).st = 1 → (∀ t, s.thermal.vcoreTicks = some t → t + 16 ≤ s.ticks) →
      (720 ≤ mv.toNat → mv.toNat ≤ 800 →
        exec (.pwrVcoreUpdate mv) s = .next (s.modThermal fun h => { h with vcore := mv, vcoreTicks := some s.ticks })) ∧
      (mv.toNat < 720 ∨ 800 < mv.toNat → exec (.pwrVcoreUpdate mv) s = .next s))

/-- R15, R389, R392, R393, R443–R446, R463, R464, R509, R510: power fails once, with the cause of its pin or rail; VDD_CORE takes OWNER with it,
the stack's rails its contents; the hand-over that is done enters every queued record; power lost before it tells what arrived; only a
finished sequence is released (R511); RESET_N holds the logic die after a hand-over of its own; a power-on reset leaves the flash and the
queue of commands and nothing else, with the rails and PFAIL_N still to rise. The model's choices: the cause's number (log entry 118), what
the analog die keeps (log entry 113), the lost contents (log entry 151), the queue (log entry 1) and the mark of an incomplete hand-over
that stays (log entry 185). -/
def Obligations.PowerAndResets : Prop :=
  ∀ s : State,
    (s.thermal.pfail = true → exec .powerFail s = .next ((s.modThermal fun t => { t with pfail := false }).powerFailStart 0)) ∧
    (∀ r : Fin 9,
      let u := ((s.modThermal fun t => { t with rails := s.thermal.rails &&& ~~~(1#5 <<< r.val) }).powerFailStart (r.val + 1)).storeLose r
      (r.val = 0 → exec (.railUndervoltage r) s = .next u.dropOwner) ∧
      (1 ≤ r.val → r.val < 4 → exec (.railUndervoltage r) s = .next u) ∧
      (4 ≤ r.val → r.val < 8 → exec (.railUndervoltage r) s =
        .next ((s.modThermal fun t => { t with vio := false }).powerFailStart (r.val + 2))) ∧
      (r.val = 8 → exec (.railUndervoltage r) s = .next (s.modThermal fun t => { t with rails := s.thermal.rails &&& 0xF })) ∧
      (r.val = 1 ∨ r.val = 2 → (s.storeLose r).store.mem = [] ∧ (s.storeLose r).store.lost.isSome = true) ∧
      (r.val ≠ 1 → r.val ≠ 2 → s.storeLose r = s)) ∧
    (s.dropOwner.twin.owner = false) ∧
    (s.thermal.pfStep = 0 → s.thermal.shutdown = false → ∀ cause, let t := s.powerFailStart cause
      t.thermal.pfStep = 2 ∧ t.thermal.pfCause = cause ∧ t.nv.openR = 0 ∧ t.nv.openW = 0) ∧
    (s.thermal.pfStep ≠ 0 → ∀ cause, s.powerFailStart cause = s) ∧
    (s.thermal.handCause = 1 → s.thermal.pfStep = 2 →
      let a := (s.modNv fun n => { n with handed := true, handWords := s.counterWords }).enterAll s.nv.queue.length
      let b := a.handRecords.handFlush.modThermal fun t => { t with pfStep := 4, handCause := 0 }
      exec .handoverDone s = .next (if b.thermal.shutdown then b.dropOwner.logicReset else b) ∧ b.thermal.pfStep = 4 ∧ b.thermal.handCause = 0) ∧
    (s.thermal.handCause = 2 → s.thermal.pfStep = 0 →
      let a := (s.modNv fun n => { n with handWords := s.counterWords }).enterAll s.nv.queue.length
      let b := a.handFlush.dropOwner.blwShutdown
      let c := (b.modThermal fun t => { t with handCause := 0 }).logicReset
      exec .handoverDone s = .next (if c.thermal.resetN ∧ c.thermal.pfail ∧ c.railsUp then c.bootStart c.boot.bootsel b.twin.strap
        else if c.thermal.resetN then c.modBoot fun x => { x with step := 5 } else c)) ∧
    (∀ (c : Bool) (n : Nat),
      (s.thermal.pfStep = 0 → exec (.logicDiePowerLoss c n) s = .next s) ∧
      (s.thermal.pfStep = 2 → ∃ u : State, exec (.logicDiePowerLoss c n) s = .next (u.logicReset.modBoot fun b => { b with cold := true }) ∧
        u.nv.handed = c ∧ u.nv.incomplete = true ∧ u.twin.owner = false ∧ u.thermal.pfStep = 4 ∧ u.store.mem = s.store.mem) ∧
      (3 ≤ s.thermal.pfStep.val →
        exec (.logicDiePowerLoss c n) s = .next (s.dropOwner.logicReset.modBoot fun b => { b with cold := true })) ∧
      s.logicReset.boot.step = 0 ∧ s.logicReset.twin.owner = false ∧ s.logicReset.store.mem = s.store.mem ∧
      s.logicReset.sextant = s.sextant ∧ s.logicReset.nv.mem = s.nv.mem) ∧
    (∀ (bs : BitVec 2) (role : Bool), s.thermal.pfStep = 5 → s.thermal.shutdown = false →
      let u := (s.modThermal fun t => { t with pfStep := 0, rails := 0x1F, vio := true, pfail := true }).logicReset.modBoot
        fun b => { b with cold := true }
      (s.thermal.resetN = true → exec (.powerFailRelease bs role) s = .next (u.bootStart bs role) ∧ (u.bootStart bs role).boot.step = 1) ∧
      (s.thermal.resetN = false → exec (.powerFailRelease bs role) s = .next u)) ∧
    (∀ n : Nat, s.nv.writes = [] → ∃ t, exec (.powerOnReset n) s = .next t ∧ t.nv.mem = s.nv.mem ∧ t.pending = s.pending ∧
      t.freeCtr = s.freeCtr ∧ t.thermal.rails = 0 ∧ t.thermal.vio = false ∧ t.thermal.pfail = false ∧
      t = { State.reset with pending := t.pending, freeCtr := t.freeCtr, nv := t.nv, thermal :=
              { State.reset.thermal with rails := 0, vio := false, pfail := false, vact := s.thermal.vact } } ∧
      t.nv = { State.reset.nv with mem := s.nv.mem, bad := s.nv.bad, soft := s.nv.soft, incomplete := s.nv.incomplete }) ∧
    (s.thermal.resetN = true →
      exec .deviceReset s = .next (s.modThermal fun t =>
        { t with resetN := false, handCause := if t.pfail && t.pfStep == 0 && !t.shutdown then 2 else t.handCause }))

/-! ### Rules stated whole (R51, R203, R359, R437) -/

/-- R51: the condition codes as functions of the flags; code 15 raises an illegal-operand exception in BCC, CALL and SEL. -/
def Obligations.ConditionCodes : Prop :=
  (∀ c : Ctx, (c.cond 0 ↔ c.z) ∧ (c.cond 1 ↔ ¬ c.z) ∧ (c.cond 2 ↔ c.c) ∧ (c.cond 3 ↔ ¬ c.c) ∧ (c.cond 4 ↔ c.n) ∧ (c.cond 5 ↔ ¬ c.n) ∧
    (c.cond 6 ↔ c.v) ∧ (c.cond 7 ↔ ¬ c.v) ∧ (c.cond 8 ↔ c.c ∧ ¬ c.z) ∧ (c.cond 9 ↔ ¬ c.c ∨ c.z) ∧ (c.cond 10 ↔ c.n = c.v) ∧
    (c.cond 11 ↔ c.n ≠ c.v) ∧ (c.cond 12 ↔ ¬ c.z ∧ c.n = c.v) ∧ (c.cond 13 ↔ c.z ∨ c.n ≠ c.v) ∧ c.cond 14) ∧
  (∀ (s : State) (z : Zx) (off : BitVec 22) (d a b : Reg), s.mayExecute z →
    exec (.bcc z 15 off) s = .next ((s.fetched z).raise z.agent 2 0) ∧ exec (.call z 15 off) s = .next ((s.fetched z).raise z.agent 2 0) ∧
    exec (.sel z 15 d a b) s = .next ((s.fetched z).raise z.agent 2 0))

/-- R359: when the thermal shutdown latch sets or PFAIL_N falls, every modulator stops at once, with no record placed and its pending trigger
discarded; it stays stopped until the next boot, whatever is commanded of it. -/
def Obligations.TheSextantStops : Prop :=
  ∀ (s : State) (m : Fin 8),
    (∀ t : State, (s.thermal.pfail = true ∧ s.thermal.pfStep = 0 ∧ s.thermal.shutdown = false ∧ exec .powerFail s = .next t) ∨
        (∃ (n : Fin 48) (x : BitVec 16) (k : Nat), s.thermal.shutdown = false ∧ t = s.thermalShutdown n x k) →
      t.sextant.stopped = true ∧ (t.mod m).cond = .idle ∧ (t.mod m).pend = none ∧ (t.mod m).fifo = (s.mod m).fifo ∧
        t.sextant.latest = s.sextant.latest) ∧
    (s.sextant.stopped = true → ∀ (tm : Nat) (r : RawConv),
      exec (.sextantTrigger m tm) s = .next s ∧ exec (.sequenceStart m) s = .next s ∧ exec (.sextantConversion m r) s = .next s) ∧
    (∀ (bs : BitVec 2) (role : Bool), (s.bootStart bs role).sextant.stopped = false)

/-- R437: each region has a read and a write password of 64 bits in the device region; a password of 0 leaves its access open; a region open for
writing is also open for reading. -/
def Obligations.PasswordsOpenRegions : Prop :=
  ∀ (n : Nv) (r : Fin 4),
    (∀ w : Bool, n.password r w = ((n.itemRead itemPasswords).drop (16 * r.val + if w then 8 else 0)).take 8 ∧
      ((n.itemRead itemPasswords).length = 64 → (n.password r w).length = 8)) ∧
    ((∀ b ∈ n.password r false, b = 0) → n.readOpen r = true) ∧ ((∀ b ∈ n.password r true, b = 0) → n.writeOpen r = true) ∧
    (n.writeOpen r = true → n.readOpen r = true) ∧
    (itemPasswords.a = devPage 8 ∧ itemPasswords.b = devPage 9)

/-- R203: the effective interval of a port is MAXINT, in ASSAY at most 120 s (16 ticks a second); OVERDUE is read as set as soon as the
interval has passed since the last commit, is kept from the meridian that finds it so, and is cleared at a commit. -/
def Obligations.OverdueFollowsTheInterval : Prop :=
  ∀ (s : State) (p : Port) (c : Transit),
    ((s.port p).profile ≠ 2 → s.effInterval p = 16 * fld (s.params.force.fld 1 2) 31 16) ∧
    ((s.port p).profile = 2 → s.effInterval p = 16 * min (fld (s.params.force.fld 1 2) 31 16) 120) ∧
    (s.effInterval p ≤ s.sinceCommit p → ((s.transitTriggers p).tport p).overdue = true) ∧
    (s.sinceCommit p < s.effInterval p → ((s.transitTriggers p).tport p).overdue = (s.tport p).overdue) ∧
    (s.transitShown.ports.get p).overdue = ((s.tport p).overdue || decide (s.effInterval p ≤ s.sinceCommit p)) ∧
    (s.transit.cur = some c → ((s.transitCommit p).tport p).overdue = false)
end

