-- ==== Sys2Proof/Laws/State.lean ====
section
/-! SUPPORT. What each update of the state leaves and what it changes, field by field. -/
namespace Sys2Proof.Machine

/-! ### One element of a fixed table -/

@[simp] theorem upd_get {α : Type} {n : Nat} (v : Vector α n) (i : Fin n) (f : α → α) : (upd v i f).get i = f (v.get i) := by
  show ((v.set i (f (v.get i)))[i.val]) = _
  rw [Vector.getElem_set_self]

theorem upd_get_ne {α : Type} {n : Nat} (v : Vector α n) (i j : Fin n) (f : α → α) (h : j ≠ i) : (upd v i f).get j = v.get j := by
  have : i.val ≠ j.val := fun e => h (Fin.ext e.symm)
  show ((v.set i (f (v.get i)))[j.val]) = v[j.val]
  rw [Vector.getElem_set_ne _ _ this]

/-! ### modEng -/

@[simp] theorem modEng_pending (s : State) (e : Eng) (f : Engine → Engine) : (s.modEng e f).pending = s.pending := rfl
@[simp] theorem modEng_lanes (s : State) (e : Eng) (f : Engine → Engine) : (s.modEng e f).lanes = s.lanes := rfl
@[simp] theorem modEng_clusters (s : State) (e : Eng) (f : Engine → Engine) : (s.modEng e f).clusters = s.clusters := rfl
@[simp] theorem modEng_params (s : State) (e : Eng) (f : Engine → Engine) : (s.modEng e f).params = s.params := rfl
@[simp] theorem modEng_queue (s : State) (e : Eng) (f : Engine → Engine) : (s.modEng e f).queue = s.queue := rfl
@[simp] theorem modEng_boot (s : State) (e : Eng) (f : Engine → Engine) : (s.modEng e f).boot = s.boot := rfl
@[simp] theorem modEng_ports (s : State) (e : Eng) (f : Engine → Engine) : (s.modEng e f).ports = s.ports := rfl
@[simp] theorem modEng_transit (s : State) (e : Eng) (f : Engine → Engine) : (s.modEng e f).transit = s.transit := rfl
@[simp] theorem modEng_store (s : State) (e : Eng) (f : Engine → Engine) : (s.modEng e f).store = s.store := rfl
@[simp] theorem modEng_streams (s : State) (e : Eng) (f : Engine → Engine) : (s.modEng e f).streams = s.streams := rfl
@[simp] theorem modEng_txs (s : State) (e : Eng) (f : Engine → Engine) : (s.modEng e f).txs = s.txs := rfl
@[simp] theorem modEng_fm (s : State) (e : Eng) (f : Engine → Engine) : (s.modEng e f).fm = s.fm := rfl
@[simp] theorem modEng_twin (s : State) (e : Eng) (f : Engine → Engine) : (s.modEng e f).twin = s.twin := rfl
@[simp] theorem modEng_sextant (s : State) (e : Eng) (f : Engine → Engine) : (s.modEng e f).sextant = s.sextant := rfl
@[simp] theorem modEng_bellows (s : State) (e : Eng) (f : Engine → Engine) : (s.modEng e f).bellows = s.bellows := rfl
@[simp] theorem modEng_thermal (s : State) (e : Eng) (f : Engine → Engine) : (s.modEng e f).thermal = s.thermal := rfl
@[simp] theorem modEng_serial (s : State) (e : Eng) (f : Engine → Engine) : (s.modEng e f).serial = s.serial := rfl
@[simp] theorem modEng_nv (s : State) (e : Eng) (f : Engine → Engine) : (s.modEng e f).nv = s.nv := rfl
@[simp] theorem modEng_clocks (s : State) (e : Eng) (f : Engine → Engine) : (s.modEng e f).clocks = s.clocks := rfl
@[simp] theorem modEng_events (s : State) (e : Eng) (f : Engine → Engine) : (s.modEng e f).events = s.events := rfl
@[simp] theorem modEng_scratch (s : State) (e : Eng) (f : Engine → Engine) : (s.modEng e f).scratch = s.scratch := rfl
@[simp] theorem modEng_freeCtr (s : State) (e : Eng) (f : Engine → Engine) : (s.modEng e f).freeCtr = s.freeCtr := rfl

/-! ### modLane -/

@[simp] theorem modLane_pending (s : State) (l : LaneNo) (f : Lane → Lane) : (s.modLane l f).pending = s.pending := rfl
@[simp] theorem modLane_engines (s : State) (l : LaneNo) (f : Lane → Lane) : (s.modLane l f).engines = s.engines := rfl
@[simp] theorem modLane_clusters (s : State) (l : LaneNo) (f : Lane → Lane) : (s.modLane l f).clusters = s.clusters := rfl
@[simp] theorem modLane_params (s : State) (l : LaneNo) (f : Lane → Lane) : (s.modLane l f).params = s.params := rfl
@[simp] theorem modLane_queue (s : State) (l : LaneNo) (f : Lane → Lane) : (s.modLane l f).queue = s.queue := rfl
@[simp] theorem modLane_boot (s : State) (l : LaneNo) (f : Lane → Lane) : (s.modLane l f).boot = s.boot := rfl
@[simp] theorem modLane_ports (s : State) (l : LaneNo) (f : Lane → Lane) : (s.modLane l f).ports = s.ports := rfl
@[simp] theorem modLane_transit (s : State) (l : LaneNo) (f : Lane → Lane) : (s.modLane l f).transit = s.transit := rfl
@[simp] theorem modLane_store (s : State) (l : LaneNo) (f : Lane → Lane) : (s.modLane l f).store = s.store := rfl
@[simp] theorem modLane_streams (s : State) (l : LaneNo) (f : Lane → Lane) : (s.modLane l f).streams = s.streams := rfl
@[simp] theorem modLane_txs (s : State) (l : LaneNo) (f : Lane → Lane) : (s.modLane l f).txs = s.txs := rfl
@[simp] theorem modLane_fm (s : State) (l : LaneNo) (f : Lane → Lane) : (s.modLane l f).fm = s.fm := rfl
@[simp] theorem modLane_twin (s : State) (l : LaneNo) (f : Lane → Lane) : (s.modLane l f).twin = s.twin := rfl
@[simp] theorem modLane_sextant (s : State) (l : LaneNo) (f : Lane → Lane) : (s.modLane l f).sextant = s.sextant := rfl
@[simp] theorem modLane_bellows (s : State) (l : LaneNo) (f : Lane → Lane) : (s.modLane l f).bellows = s.bellows := rfl
@[simp] theorem modLane_thermal (s : State) (l : LaneNo) (f : Lane → Lane) : (s.modLane l f).thermal = s.thermal := rfl
@[simp] theorem modLane_serial (s : State) (l : LaneNo) (f : Lane → Lane) : (s.modLane l f).serial = s.serial := rfl
@[simp] theorem modLane_nv (s : State) (l : LaneNo) (f : Lane → Lane) : (s.modLane l f).nv = s.nv := rfl
@[simp] theorem modLane_clocks (s : State) (l : LaneNo) (f : Lane → Lane) : (s.modLane l f).clocks = s.clocks := rfl
@[simp] theorem modLane_events (s : State) (l : LaneNo) (f : Lane → Lane) : (s.modLane l f).events = s.events := rfl
@[simp] theorem modLane_scratch (s : State) (l : LaneNo) (f : Lane → Lane) : (s.modLane l f).scratch = s.scratch := rfl
@[simp] theorem modLane_freeCtr (s : State) (l : LaneNo) (f : Lane → Lane) : (s.modLane l f).freeCtr = s.freeCtr := rfl

/-! ### modCluster -/

@[simp] theorem modCluster_pending (s : State) (k : Fin 12) (f : Cluster → Cluster) : (s.modCluster k f).pending = s.pending := rfl
@[simp] theorem modCluster_engines (s : State) (k : Fin 12) (f : Cluster → Cluster) : (s.modCluster k f).engines = s.engines := rfl
@[simp] theorem modCluster_lanes (s : State) (k : Fin 12) (f : Cluster → Cluster) : (s.modCluster k f).lanes = s.lanes := rfl
@[simp] theorem modCluster_params (s : State) (k : Fin 12) (f : Cluster → Cluster) : (s.modCluster k f).params = s.params := rfl
@[simp] theorem modCluster_queue (s : State) (k : Fin 12) (f : Cluster → Cluster) : (s.modCluster k f).queue = s.queue := rfl
@[simp] theorem modCluster_boot (s : State) (k : Fin 12) (f : Cluster → Cluster) : (s.modCluster k f).boot = s.boot := rfl
@[simp] theorem modCluster_ports (s : State) (k : Fin 12) (f : Cluster → Cluster) : (s.modCluster k f).ports = s.ports := rfl
@[simp] theorem modCluster_transit (s : State) (k : Fin 12) (f : Cluster → Cluster) : (s.modCluster k f).transit = s.transit := rfl
@[simp] theorem modCluster_store (s : State) (k : Fin 12) (f : Cluster → Cluster) : (s.modCluster k f).store = s.store := rfl
@[simp] theorem modCluster_streams (s : State) (k : Fin 12) (f : Cluster → Cluster) : (s.modCluster k f).streams = s.streams := rfl
@[simp] theorem modCluster_txs (s : State) (k : Fin 12) (f : Cluster → Cluster) : (s.modCluster k f).txs = s.txs := rfl
@[simp] theorem modCluster_fm (s : State) (k : Fin 12) (f : Cluster → Cluster) : (s.modCluster k f).fm = s.fm := rfl
@[simp] theorem modCluster_twin (s : State) (k : Fin 12) (f : Cluster → Cluster) : (s.modCluster k f).twin = s.twin := rfl
@[simp] theorem modCluster_sextant (s : State) (k : Fin 12) (f : Cluster → Cluster) : (s.modCluster k f).sextant = s.sextant := rfl
@[simp] theorem modCluster_bellows (s : State) (k : Fin 12) (f : Cluster → Cluster) : (s.modCluster k f).bellows = s.bellows := rfl
@[simp] theorem modCluster_thermal (s : State) (k : Fin 12) (f : Cluster → Cluster) : (s.modCluster k f).thermal = s.thermal := rfl
@[simp] theorem modCluster_serial (s : State) (k : Fin 12) (f : Cluster → Cluster) : (s.modCluster k f).serial = s.serial := rfl
@[simp] theorem modCluster_nv (s : State) (k : Fin 12) (f : Cluster → Cluster) : (s.modCluster k f).nv = s.nv := rfl
@[simp] theorem modCluster_clocks (s : State) (k : Fin 12) (f : Cluster → Cluster) : (s.modCluster k f).clocks = s.clocks := rfl
@[simp] theorem modCluster_events (s : State) (k : Fin 12) (f : Cluster → Cluster) : (s.modCluster k f).events = s.events := rfl
@[simp] theorem modCluster_scratch (s : State) (k : Fin 12) (f : Cluster → Cluster) : (s.modCluster k f).scratch = s.scratch := rfl
@[simp] theorem modCluster_freeCtr (s : State) (k : Fin 12) (f : Cluster → Cluster) : (s.modCluster k f).freeCtr = s.freeCtr := rfl

/-! ### modPort -/

@[simp] theorem modPort_pending (s : State) (p : Port) (f : PortS → PortS) : (s.modPort p f).pending = s.pending := rfl
@[simp] theorem modPort_engines (s : State) (p : Port) (f : PortS → PortS) : (s.modPort p f).engines = s.engines := rfl
@[simp] theorem modPort_lanes (s : State) (p : Port) (f : PortS → PortS) : (s.modPort p f).lanes = s.lanes := rfl
@[simp] theorem modPort_clusters (s : State) (p : Port) (f : PortS → PortS) : (s.modPort p f).clusters = s.clusters := rfl
@[simp] theorem modPort_params (s : State) (p : Port) (f : PortS → PortS) : (s.modPort p f).params = s.params := rfl
@[simp] theorem modPort_queue (s : State) (p : Port) (f : PortS → PortS) : (s.modPort p f).queue = s.queue := rfl
@[simp] theorem modPort_boot (s : State) (p : Port) (f : PortS → PortS) : (s.modPort p f).boot = s.boot := rfl
@[simp] theorem modPort_transit (s : State) (p : Port) (f : PortS → PortS) : (s.modPort p f).transit = s.transit := rfl
@[simp] theorem modPort_store (s : State) (p : Port) (f : PortS → PortS) : (s.modPort p f).store = s.store := rfl
@[simp] theorem modPort_streams (s : State) (p : Port) (f : PortS → PortS) : (s.modPort p f).streams = s.streams := rfl
@[simp] theorem modPort_txs (s : State) (p : Port) (f : PortS → PortS) : (s.modPort p f).txs = s.txs := rfl
@[simp] theorem modPort_fm (s : State) (p : Port) (f : PortS → PortS) : (s.modPort p f).fm = s.fm := rfl
@[simp] theorem modPort_twin (s : State) (p : Port) (f : PortS → PortS) : (s.modPort p f).twin = s.twin := rfl
@[simp] theorem modPort_sextant (s : State) (p : Port) (f : PortS → PortS) : (s.modPort p f).sextant = s.sextant := rfl
@[simp] theorem modPort_bellows (s : State) (p : Port) (f : PortS → PortS) : (s.modPort p f).bellows = s.bellows := rfl
@[simp] theorem modPort_thermal (s : State) (p : Port) (f : PortS → PortS) : (s.modPort p f).thermal = s.thermal := rfl
@[simp] theorem modPort_serial (s : State) (p : Port) (f : PortS → PortS) : (s.modPort p f).serial = s.serial := rfl
@[simp] theorem modPort_nv (s : State) (p : Port) (f : PortS → PortS) : (s.modPort p f).nv = s.nv := rfl
@[simp] theorem modPort_clocks (s : State) (p : Port) (f : PortS → PortS) : (s.modPort p f).clocks = s.clocks := rfl
@[simp] theorem modPort_events (s : State) (p : Port) (f : PortS → PortS) : (s.modPort p f).events = s.events := rfl
@[simp] theorem modPort_scratch (s : State) (p : Port) (f : PortS → PortS) : (s.modPort p f).scratch = s.scratch := rfl
@[simp] theorem modPort_freeCtr (s : State) (p : Port) (f : PortS → PortS) : (s.modPort p f).freeCtr = s.freeCtr := rfl

/-! ### modStream -/

@[simp] theorem modStream_pending (s : State) (i : Fin 8) (f : Stream → Stream) : (s.modStream i f).pending = s.pending := rfl
@[simp] theorem modStream_engines (s : State) (i : Fin 8) (f : Stream → Stream) : (s.modStream i f).engines = s.engines := rfl
@[simp] theorem modStream_lanes (s : State) (i : Fin 8) (f : Stream → Stream) : (s.modStream i f).lanes = s.lanes := rfl
@[simp] theorem modStream_clusters (s : State) (i : Fin 8) (f : Stream → Stream) : (s.modStream i f).clusters = s.clusters := rfl
@[simp] theorem modStream_params (s : State) (i : Fin 8) (f : Stream → Stream) : (s.modStream i f).params = s.params := rfl
@[simp] theorem modStream_queue (s : State) (i : Fin 8) (f : Stream → Stream) : (s.modStream i f).queue = s.queue := rfl
@[simp] theorem modStream_boot (s : State) (i : Fin 8) (f : Stream → Stream) : (s.modStream i f).boot = s.boot := rfl
@[simp] theorem modStream_ports (s : State) (i : Fin 8) (f : Stream → Stream) : (s.modStream i f).ports = s.ports := rfl
@[simp] theorem modStream_transit (s : State) (i : Fin 8) (f : Stream → Stream) : (s.modStream i f).transit = s.transit := rfl
@[simp] theorem modStream_store (s : State) (i : Fin 8) (f : Stream → Stream) : (s.modStream i f).store = s.store := rfl
@[simp] theorem modStream_txs (s : State) (i : Fin 8) (f : Stream → Stream) : (s.modStream i f).txs = s.txs := rfl
@[simp] theorem modStream_fm (s : State) (i : Fin 8) (f : Stream → Stream) : (s.modStream i f).fm = s.fm := rfl
@[simp] theorem modStream_twin (s : State) (i : Fin 8) (f : Stream → Stream) : (s.modStream i f).twin = s.twin := rfl
@[simp] theorem modStream_sextant (s : State) (i : Fin 8) (f : Stream → Stream) : (s.modStream i f).sextant = s.sextant := rfl
@[simp] theorem modStream_bellows (s : State) (i : Fin 8) (f : Stream → Stream) : (s.modStream i f).bellows = s.bellows := rfl
@[simp] theorem modStream_thermal (s : State) (i : Fin 8) (f : Stream → Stream) : (s.modStream i f).thermal = s.thermal := rfl
@[simp] theorem modStream_serial (s : State) (i : Fin 8) (f : Stream → Stream) : (s.modStream i f).serial = s.serial := rfl
@[simp] theorem modStream_nv (s : State) (i : Fin 8) (f : Stream → Stream) : (s.modStream i f).nv = s.nv := rfl
@[simp] theorem modStream_clocks (s : State) (i : Fin 8) (f : Stream → Stream) : (s.modStream i f).clocks = s.clocks := rfl
@[simp] theorem modStream_events (s : State) (i : Fin 8) (f : Stream → Stream) : (s.modStream i f).events = s.events := rfl
@[simp] theorem modStream_scratch (s : State) (i : Fin 8) (f : Stream → Stream) : (s.modStream i f).scratch = s.scratch := rfl
@[simp] theorem modStream_freeCtr (s : State) (i : Fin 8) (f : Stream → Stream) : (s.modStream i f).freeCtr = s.freeCtr := rfl

/-! ### modTx -/

@[simp] theorem modTx_pending (s : State) (x : Fin 2) (f : Tx → Tx) : (s.modTx x f).pending = s.pending := rfl
@[simp] theorem modTx_engines (s : State) (x : Fin 2) (f : Tx → Tx) : (s.modTx x f).engines = s.engines := rfl
@[simp] theorem modTx_lanes (s : State) (x : Fin 2) (f : Tx → Tx) : (s.modTx x f).lanes = s.lanes := rfl
@[simp] theorem modTx_clusters (s : State) (x : Fin 2) (f : Tx → Tx) : (s.modTx x f).clusters = s.clusters := rfl
@[simp] theorem modTx_params (s : State) (x : Fin 2) (f : Tx → Tx) : (s.modTx x f).params = s.params := rfl
@[simp] theorem modTx_queue (s : State) (x : Fin 2) (f : Tx → Tx) : (s.modTx x f).queue = s.queue := rfl
@[simp] theorem modTx_boot (s : State) (x : Fin 2) (f : Tx → Tx) : (s.modTx x f).boot = s.boot := rfl
@[simp] theorem modTx_ports (s : State) (x : Fin 2) (f : Tx → Tx) : (s.modTx x f).ports = s.ports := rfl
@[simp] theorem modTx_transit (s : State) (x : Fin 2) (f : Tx → Tx) : (s.modTx x f).transit = s.transit := rfl
@[simp] theorem modTx_store (s : State) (x : Fin 2) (f : Tx → Tx) : (s.modTx x f).store = s.store := rfl
@[simp] theorem modTx_streams (s : State) (x : Fin 2) (f : Tx → Tx) : (s.modTx x f).streams = s.streams := rfl
@[simp] theorem modTx_fm (s : State) (x : Fin 2) (f : Tx → Tx) : (s.modTx x f).fm = s.fm := rfl
@[simp] theorem modTx_twin (s : State) (x : Fin 2) (f : Tx → Tx) : (s.modTx x f).twin = s.twin := rfl
@[simp] theorem modTx_sextant (s : State) (x : Fin 2) (f : Tx → Tx) : (s.modTx x f).sextant = s.sextant := rfl
@[simp] theorem modTx_bellows (s : State) (x : Fin 2) (f : Tx → Tx) : (s.modTx x f).bellows = s.bellows := rfl
@[simp] theorem modTx_thermal (s : State) (x : Fin 2) (f : Tx → Tx) : (s.modTx x f).thermal = s.thermal := rfl
@[simp] theorem modTx_serial (s : State) (x : Fin 2) (f : Tx → Tx) : (s.modTx x f).serial = s.serial := rfl
@[simp] theorem modTx_nv (s : State) (x : Fin 2) (f : Tx → Tx) : (s.modTx x f).nv = s.nv := rfl
@[simp] theorem modTx_clocks (s : State) (x : Fin 2) (f : Tx → Tx) : (s.modTx x f).clocks = s.clocks := rfl
@[simp] theorem modTx_events (s : State) (x : Fin 2) (f : Tx → Tx) : (s.modTx x f).events = s.events := rfl
@[simp] theorem modTx_scratch (s : State) (x : Fin 2) (f : Tx → Tx) : (s.modTx x f).scratch = s.scratch := rfl
@[simp] theorem modTx_freeCtr (s : State) (x : Fin 2) (f : Tx → Tx) : (s.modTx x f).freeCtr = s.freeCtr := rfl

/-! ### modFm -/

@[simp] theorem modFm_pending (s : State) (f : Fm → Fm) : (s.modFm f).pending = s.pending := rfl
@[simp] theorem modFm_engines (s : State) (f : Fm → Fm) : (s.modFm f).engines = s.engines := rfl
@[simp] theorem modFm_lanes (s : State) (f : Fm → Fm) : (s.modFm f).lanes = s.lanes := rfl
@[simp] theorem modFm_clusters (s : State) (f : Fm → Fm) : (s.modFm f).clusters = s.clusters := rfl
@[simp] theorem modFm_params (s : State) (f : Fm → Fm) : (s.modFm f).params = s.params := rfl
@[simp] theorem modFm_queue (s : State) (f : Fm → Fm) : (s.modFm f).queue = s.queue := rfl
@[simp] theorem modFm_boot (s : State) (f : Fm → Fm) : (s.modFm f).boot = s.boot := rfl
@[simp] theorem modFm_ports (s : State) (f : Fm → Fm) : (s.modFm f).ports = s.ports := rfl
@[simp] theorem modFm_transit (s : State) (f : Fm → Fm) : (s.modFm f).transit = s.transit := rfl
@[simp] theorem modFm_store (s : State) (f : Fm → Fm) : (s.modFm f).store = s.store := rfl
@[simp] theorem modFm_streams (s : State) (f : Fm → Fm) : (s.modFm f).streams = s.streams := rfl
@[simp] theorem modFm_txs (s : State) (f : Fm → Fm) : (s.modFm f).txs = s.txs := rfl
@[simp] theorem modFm_fm (s : State) (f : Fm → Fm) : (s.modFm f).fm = f s.fm := rfl
@[simp] theorem modFm_twin (s : State) (f : Fm → Fm) : (s.modFm f).twin = s.twin := rfl
@[simp] theorem modFm_sextant (s : State) (f : Fm → Fm) : (s.modFm f).sextant = s.sextant := rfl
@[simp] theorem modFm_bellows (s : State) (f : Fm → Fm) : (s.modFm f).bellows = s.bellows := rfl
@[simp] theorem modFm_thermal (s : State) (f : Fm → Fm) : (s.modFm f).thermal = s.thermal := rfl
@[simp] theorem modFm_serial (s : State) (f : Fm → Fm) : (s.modFm f).serial = s.serial := rfl
@[simp] theorem modFm_nv (s : State) (f : Fm → Fm) : (s.modFm f).nv = s.nv := rfl
@[simp] theorem modFm_clocks (s : State) (f : Fm → Fm) : (s.modFm f).clocks = s.clocks := rfl
@[simp] theorem modFm_events (s : State) (f : Fm → Fm) : (s.modFm f).events = s.events := rfl
@[simp] theorem modFm_scratch (s : State) (f : Fm → Fm) : (s.modFm f).scratch = s.scratch := rfl
@[simp] theorem modFm_freeCtr (s : State) (f : Fm → Fm) : (s.modFm f).freeCtr = s.freeCtr := rfl

/-! ### modUnit -/

@[simp] theorem modUnit_pending (s : State) (u : Fin 182) (f : UnitS → UnitS) : (s.modUnit u f).pending = s.pending := rfl
@[simp] theorem modUnit_engines (s : State) (u : Fin 182) (f : UnitS → UnitS) : (s.modUnit u f).engines = s.engines := rfl
@[simp] theorem modUnit_lanes (s : State) (u : Fin 182) (f : UnitS → UnitS) : (s.modUnit u f).lanes = s.lanes := rfl
@[simp] theorem modUnit_clusters (s : State) (u : Fin 182) (f : UnitS → UnitS) : (s.modUnit u f).clusters = s.clusters := rfl
@[simp] theorem modUnit_params (s : State) (u : Fin 182) (f : UnitS → UnitS) : (s.modUnit u f).params = s.params := rfl
@[simp] theorem modUnit_queue (s : State) (u : Fin 182) (f : UnitS → UnitS) : (s.modUnit u f).queue = s.queue := rfl
@[simp] theorem modUnit_boot (s : State) (u : Fin 182) (f : UnitS → UnitS) : (s.modUnit u f).boot = s.boot := rfl
@[simp] theorem modUnit_ports (s : State) (u : Fin 182) (f : UnitS → UnitS) : (s.modUnit u f).ports = s.ports := rfl
@[simp] theorem modUnit_transit (s : State) (u : Fin 182) (f : UnitS → UnitS) : (s.modUnit u f).transit = s.transit := rfl
@[simp] theorem modUnit_store (s : State) (u : Fin 182) (f : UnitS → UnitS) : (s.modUnit u f).store = s.store := rfl
@[simp] theorem modUnit_streams (s : State) (u : Fin 182) (f : UnitS → UnitS) : (s.modUnit u f).streams = s.streams := rfl
@[simp] theorem modUnit_txs (s : State) (u : Fin 182) (f : UnitS → UnitS) : (s.modUnit u f).txs = s.txs := rfl
@[simp] theorem modUnit_twin (s : State) (u : Fin 182) (f : UnitS → UnitS) : (s.modUnit u f).twin = s.twin := rfl
@[simp] theorem modUnit_sextant (s : State) (u : Fin 182) (f : UnitS → UnitS) : (s.modUnit u f).sextant = s.sextant := rfl
@[simp] theorem modUnit_bellows (s : State) (u : Fin 182) (f : UnitS → UnitS) : (s.modUnit u f).bellows = s.bellows := rfl
@[simp] theorem modUnit_thermal (s : State) (u : Fin 182) (f : UnitS → UnitS) : (s.modUnit u f).thermal = s.thermal := rfl
@[simp] theorem modUnit_serial (s : State) (u : Fin 182) (f : UnitS → UnitS) : (s.modUnit u f).serial = s.serial := rfl
@[simp] theorem modUnit_nv (s : State) (u : Fin 182) (f : UnitS → UnitS) : (s.modUnit u f).nv = s.nv := rfl
@[simp] theorem modUnit_clocks (s : State) (u : Fin 182) (f : UnitS → UnitS) : (s.modUnit u f).clocks = s.clocks := rfl
@[simp] theorem modUnit_events (s : State) (u : Fin 182) (f : UnitS → UnitS) : (s.modUnit u f).events = s.events := rfl
@[simp] theorem modUnit_scratch (s : State) (u : Fin 182) (f : UnitS → UnitS) : (s.modUnit u f).scratch = s.scratch := rfl
@[simp] theorem modUnit_freeCtr (s : State) (u : Fin 182) (f : UnitS → UnitS) : (s.modUnit u f).freeCtr = s.freeCtr := rfl

/-! ### modMod -/

@[simp] theorem modMod_pending (s : State) (m : Fin 8) (f : SxMod → SxMod) : (s.modMod m f).pending = s.pending := rfl
@[simp] theorem modMod_engines (s : State) (m : Fin 8) (f : SxMod → SxMod) : (s.modMod m f).engines = s.engines := rfl
@[simp] theorem modMod_lanes (s : State) (m : Fin 8) (f : SxMod → SxMod) : (s.modMod m f).lanes = s.lanes := rfl
@[simp] theorem modMod_clusters (s : State) (m : Fin 8) (f : SxMod → SxMod) : (s.modMod m f).clusters = s.clusters := rfl
@[simp] theorem modMod_params (s : State) (m : Fin 8) (f : SxMod → SxMod) : (s.modMod m f).params = s.params := rfl
@[simp] theorem modMod_queue (s : State) (m : Fin 8) (f : SxMod → SxMod) : (s.modMod m f).queue = s.queue := rfl
@[simp] theorem modMod_boot (s : State) (m : Fin 8) (f : SxMod → SxMod) : (s.modMod m f).boot = s.boot := rfl
@[simp] theorem modMod_ports (s : State) (m : Fin 8) (f : SxMod → SxMod) : (s.modMod m f).ports = s.ports := rfl
@[simp] theorem modMod_transit (s : State) (m : Fin 8) (f : SxMod → SxMod) : (s.modMod m f).transit = s.transit := rfl
@[simp] theorem modMod_store (s : State) (m : Fin 8) (f : SxMod → SxMod) : (s.modMod m f).store = s.store := rfl
@[simp] theorem modMod_streams (s : State) (m : Fin 8) (f : SxMod → SxMod) : (s.modMod m f).streams = s.streams := rfl
@[simp] theorem modMod_txs (s : State) (m : Fin 8) (f : SxMod → SxMod) : (s.modMod m f).txs = s.txs := rfl
@[simp] theorem modMod_fm (s : State) (m : Fin 8) (f : SxMod → SxMod) : (s.modMod m f).fm = s.fm := rfl
@[simp] theorem modMod_twin (s : State) (m : Fin 8) (f : SxMod → SxMod) : (s.modMod m f).twin = s.twin := rfl
@[simp] theorem modMod_bellows (s : State) (m : Fin 8) (f : SxMod → SxMod) : (s.modMod m f).bellows = s.bellows := rfl
@[simp] theorem modMod_thermal (s : State) (m : Fin 8) (f : SxMod → SxMod) : (s.modMod m f).thermal = s.thermal := rfl
@[simp] theorem modMod_serial (s : State) (m : Fin 8) (f : SxMod → SxMod) : (s.modMod m f).serial = s.serial := rfl
@[simp] theorem modMod_nv (s : State) (m : Fin 8) (f : SxMod → SxMod) : (s.modMod m f).nv = s.nv := rfl
@[simp] theorem modMod_clocks (s : State) (m : Fin 8) (f : SxMod → SxMod) : (s.modMod m f).clocks = s.clocks := rfl
@[simp] theorem modMod_events (s : State) (m : Fin 8) (f : SxMod → SxMod) : (s.modMod m f).events = s.events := rfl
@[simp] theorem modMod_scratch (s : State) (m : Fin 8) (f : SxMod → SxMod) : (s.modMod m f).scratch = s.scratch := rfl
@[simp] theorem modMod_freeCtr (s : State) (m : Fin 8) (f : SxMod → SxMod) : (s.modMod m f).freeCtr = s.freeCtr := rfl

/-! ### modBlw -/

@[simp] theorem modBlw_pending (s : State) (c : Fin 8) (f : Blw → Blw) : (s.modBlw c f).pending = s.pending := rfl
@[simp] theorem modBlw_engines (s : State) (c : Fin 8) (f : Blw → Blw) : (s.modBlw c f).engines = s.engines := rfl
@[simp] theorem modBlw_lanes (s : State) (c : Fin 8) (f : Blw → Blw) : (s.modBlw c f).lanes = s.lanes := rfl
@[simp] theorem modBlw_clusters (s : State) (c : Fin 8) (f : Blw → Blw) : (s.modBlw c f).clusters = s.clusters := rfl
@[simp] theorem modBlw_params (s : State) (c : Fin 8) (f : Blw → Blw) : (s.modBlw c f).params = s.params := rfl
@[simp] theorem modBlw_queue (s : State) (c : Fin 8) (f : Blw → Blw) : (s.modBlw c f).queue = s.queue := rfl
@[simp] theorem modBlw_boot (s : State) (c : Fin 8) (f : Blw → Blw) : (s.modBlw c f).boot = s.boot := rfl
@[simp] theorem modBlw_ports (s : State) (c : Fin 8) (f : Blw → Blw) : (s.modBlw c f).ports = s.ports := rfl
@[simp] theorem modBlw_transit (s : State) (c : Fin 8) (f : Blw → Blw) : (s.modBlw c f).transit = s.transit := rfl
@[simp] theorem modBlw_store (s : State) (c : Fin 8) (f : Blw → Blw) : (s.modBlw c f).store = s.store := rfl
@[simp] theorem modBlw_streams (s : State) (c : Fin 8) (f : Blw → Blw) : (s.modBlw c f).streams = s.streams := rfl
@[simp] theorem modBlw_txs (s : State) (c : Fin 8) (f : Blw → Blw) : (s.modBlw c f).txs = s.txs := rfl
@[simp] theorem modBlw_fm (s : State) (c : Fin 8) (f : Blw → Blw) : (s.modBlw c f).fm = s.fm := rfl
@[simp] theorem modBlw_twin (s : State) (c : Fin 8) (f : Blw → Blw) : (s.modBlw c f).twin = s.twin := rfl
@[simp] theorem modBlw_sextant (s : State) (c : Fin 8) (f : Blw → Blw) : (s.modBlw c f).sextant = s.sextant := rfl
@[simp] theorem modBlw_thermal (s : State) (c : Fin 8) (f : Blw → Blw) : (s.modBlw c f).thermal = s.thermal := rfl
@[simp] theorem modBlw_serial (s : State) (c : Fin 8) (f : Blw → Blw) : (s.modBlw c f).serial = s.serial := rfl
@[simp] theorem modBlw_nv (s : State) (c : Fin 8) (f : Blw → Blw) : (s.modBlw c f).nv = s.nv := rfl
@[simp] theorem modBlw_clocks (s : State) (c : Fin 8) (f : Blw → Blw) : (s.modBlw c f).clocks = s.clocks := rfl
@[simp] theorem modBlw_events (s : State) (c : Fin 8) (f : Blw → Blw) : (s.modBlw c f).events = s.events := rfl
@[simp] theorem modBlw_scratch (s : State) (c : Fin 8) (f : Blw → Blw) : (s.modBlw c f).scratch = s.scratch := rfl
@[simp] theorem modBlw_freeCtr (s : State) (c : Fin 8) (f : Blw → Blw) : (s.modBlw c f).freeCtr = s.freeCtr := rfl

/-! ### modSensor -/

@[simp] theorem modSensor_pending (s : State) (t : Fin 48) (f : Sensor → Sensor) : (s.modSensor t f).pending = s.pending := rfl
@[simp] theorem modSensor_engines (s : State) (t : Fin 48) (f : Sensor → Sensor) : (s.modSensor t f).engines = s.engines := rfl
@[simp] theorem modSensor_lanes (s : State) (t : Fin 48) (f : Sensor → Sensor) : (s.modSensor t f).lanes = s.lanes := rfl
@[simp] theorem modSensor_clusters (s : State) (t : Fin 48) (f : Sensor → Sensor) : (s.modSensor t f).clusters = s.clusters := rfl
@[simp] theorem modSensor_params (s : State) (t : Fin 48) (f : Sensor → Sensor) : (s.modSensor t f).params = s.params := rfl
@[simp] theorem modSensor_queue (s : State) (t : Fin 48) (f : Sensor → Sensor) : (s.modSensor t f).queue = s.queue := rfl
@[simp] theorem modSensor_boot (s : State) (t : Fin 48) (f : Sensor → Sensor) : (s.modSensor t f).boot = s.boot := rfl
@[simp] theorem modSensor_ports (s : State) (t : Fin 48) (f : Sensor → Sensor) : (s.modSensor t f).ports = s.ports := rfl
@[simp] theorem modSensor_transit (s : State) (t : Fin 48) (f : Sensor → Sensor) : (s.modSensor t f).transit = s.transit := rfl
@[simp] theorem modSensor_store (s : State) (t : Fin 48) (f : Sensor → Sensor) : (s.modSensor t f).store = s.store := rfl
@[simp] theorem modSensor_streams (s : State) (t : Fin 48) (f : Sensor → Sensor) : (s.modSensor t f).streams = s.streams := rfl
@[simp] theorem modSensor_txs (s : State) (t : Fin 48) (f : Sensor → Sensor) : (s.modSensor t f).txs = s.txs := rfl
@[simp] theorem modSensor_fm (s : State) (t : Fin 48) (f : Sensor → Sensor) : (s.modSensor t f).fm = s.fm := rfl
@[simp] theorem modSensor_twin (s : State) (t : Fin 48) (f : Sensor → Sensor) : (s.modSensor t f).twin = s.twin := rfl
@[simp] theorem modSensor_sextant (s : State) (t : Fin 48) (f : Sensor → Sensor) : (s.modSensor t f).sextant = s.sextant := rfl
@[simp] theorem modSensor_bellows (s : State) (t : Fin 48) (f : Sensor → Sensor) : (s.modSensor t f).bellows = s.bellows := rfl
@[simp] theorem modSensor_serial (s : State) (t : Fin 48) (f : Sensor → Sensor) : (s.modSensor t f).serial = s.serial := rfl
@[simp] theorem modSensor_nv (s : State) (t : Fin 48) (f : Sensor → Sensor) : (s.modSensor t f).nv = s.nv := rfl
@[simp] theorem modSensor_clocks (s : State) (t : Fin 48) (f : Sensor → Sensor) : (s.modSensor t f).clocks = s.clocks := rfl
@[simp] theorem modSensor_events (s : State) (t : Fin 48) (f : Sensor → Sensor) : (s.modSensor t f).events = s.events := rfl
@[simp] theorem modSensor_scratch (s : State) (t : Fin 48) (f : Sensor → Sensor) : (s.modSensor t f).scratch = s.scratch := rfl
@[simp] theorem modSensor_freeCtr (s : State) (t : Fin 48) (f : Sensor → Sensor) : (s.modSensor t f).freeCtr = s.freeCtr := rfl

/-! ### modTransit -/

@[simp] theorem modTransit_pending (s : State) (f : TransitU → TransitU) : (s.modTransit f).pending = s.pending := rfl
@[simp] theorem modTransit_engines (s : State) (f : TransitU → TransitU) : (s.modTransit f).engines = s.engines := rfl
@[simp] theorem modTransit_lanes (s : State) (f : TransitU → TransitU) : (s.modTransit f).lanes = s.lanes := rfl
@[simp] theorem modTransit_clusters (s : State) (f : TransitU → TransitU) : (s.modTransit f).clusters = s.clusters := rfl
@[simp] theorem modTransit_params (s : State) (f : TransitU → TransitU) : (s.modTransit f).params = s.params := rfl
@[simp] theorem modTransit_queue (s : State) (f : TransitU → TransitU) : (s.modTransit f).queue = s.queue := rfl
@[simp] theorem modTransit_boot (s : State) (f : TransitU → TransitU) : (s.modTransit f).boot = s.boot := rfl
@[simp] theorem modTransit_ports (s : State) (f : TransitU → TransitU) : (s.modTransit f).ports = s.ports := rfl
@[simp] theorem modTransit_transit (s : State) (f : TransitU → TransitU) : (s.modTransit f).transit = f s.transit := rfl
@[simp] theorem modTransit_store (s : State) (f : TransitU → TransitU) : (s.modTransit f).store = s.store := rfl
@[simp] theorem modTransit_streams (s : State) (f : TransitU → TransitU) : (s.modTransit f).streams = s.streams := rfl
@[simp] theorem modTransit_txs (s : State) (f : TransitU → TransitU) : (s.modTransit f).txs = s.txs := rfl
@[simp] theorem modTransit_fm (s : State) (f : TransitU → TransitU) : (s.modTransit f).fm = s.fm := rfl
@[simp] theorem modTransit_twin (s : State) (f : TransitU → TransitU) : (s.modTransit f).twin = s.twin := rfl
@[simp] theorem modTransit_sextant (s : State) (f : TransitU → TransitU) : (s.modTransit f).sextant = s.sextant := rfl
@[simp] theorem modTransit_bellows (s : State) (f : TransitU → TransitU) : (s.modTransit f).bellows = s.bellows := rfl
@[simp] theorem modTransit_thermal (s : State) (f : TransitU → TransitU) : (s.modTransit f).thermal = s.thermal := rfl
@[simp] theorem modTransit_serial (s : State) (f : TransitU → TransitU) : (s.modTransit f).serial = s.serial := rfl
@[simp] theorem modTransit_nv (s : State) (f : TransitU → TransitU) : (s.modTransit f).nv = s.nv := rfl
@[simp] theorem modTransit_clocks (s : State) (f : TransitU → TransitU) : (s.modTransit f).clocks = s.clocks := rfl
@[simp] theorem modTransit_events (s : State) (f : TransitU → TransitU) : (s.modTransit f).events = s.events := rfl
@[simp] theorem modTransit_scratch (s : State) (f : TransitU → TransitU) : (s.modTransit f).scratch = s.scratch := rfl
@[simp] theorem modTransit_freeCtr (s : State) (f : TransitU → TransitU) : (s.modTransit f).freeCtr = s.freeCtr := rfl

/-! ### modTPort -/

@[simp] theorem modTPort_pending (s : State) (p : Port) (f : TransitPort → TransitPort) : (s.modTPort p f).pending = s.pending := rfl
@[simp] theorem modTPort_engines (s : State) (p : Port) (f : TransitPort → TransitPort) : (s.modTPort p f).engines = s.engines := rfl
@[simp] theorem modTPort_lanes (s : State) (p : Port) (f : TransitPort → TransitPort) : (s.modTPort p f).lanes = s.lanes := rfl
@[simp] theorem modTPort_clusters (s : State) (p : Port) (f : TransitPort → TransitPort) : (s.modTPort p f).clusters = s.clusters := rfl
@[simp] theorem modTPort_params (s : State) (p : Port) (f : TransitPort → TransitPort) : (s.modTPort p f).params = s.params := rfl
@[simp] theorem modTPort_queue (s : State) (p : Port) (f : TransitPort → TransitPort) : (s.modTPort p f).queue = s.queue := rfl
@[simp] theorem modTPort_boot (s : State) (p : Port) (f : TransitPort → TransitPort) : (s.modTPort p f).boot = s.boot := rfl
@[simp] theorem modTPort_ports (s : State) (p : Port) (f : TransitPort → TransitPort) : (s.modTPort p f).ports = s.ports := rfl
@[simp] theorem modTPort_store (s : State) (p : Port) (f : TransitPort → TransitPort) : (s.modTPort p f).store = s.store := rfl
@[simp] theorem modTPort_streams (s : State) (p : Port) (f : TransitPort → TransitPort) : (s.modTPort p f).streams = s.streams := rfl
@[simp] theorem modTPort_txs (s : State) (p : Port) (f : TransitPort → TransitPort) : (s.modTPort p f).txs = s.txs := rfl
@[simp] theorem modTPort_fm (s : State) (p : Port) (f : TransitPort → TransitPort) : (s.modTPort p f).fm = s.fm := rfl
@[simp] theorem modTPort_twin (s : State) (p : Port) (f : TransitPort → TransitPort) : (s.modTPort p f).twin = s.twin := rfl
@[simp] theorem modTPort_sextant (s : State) (p : Port) (f : TransitPort → TransitPort) : (s.modTPort p f).sextant = s.sextant := rfl
@[simp] theorem modTPort_bellows (s : State) (p : Port) (f : TransitPort → TransitPort) : (s.modTPort p f).bellows = s.bellows := rfl
@[simp] theorem modTPort_thermal (s : State) (p : Port) (f : TransitPort → TransitPort) : (s.modTPort p f).thermal = s.thermal := rfl
@[simp] theorem modTPort_serial (s : State) (p : Port) (f : TransitPort → TransitPort) : (s.modTPort p f).serial = s.serial := rfl
@[simp] theorem modTPort_nv (s : State) (p : Port) (f : TransitPort → TransitPort) : (s.modTPort p f).nv = s.nv := rfl
@[simp] theorem modTPort_clocks (s : State) (p : Port) (f : TransitPort → TransitPort) : (s.modTPort p f).clocks = s.clocks := rfl
@[simp] theorem modTPort_events (s : State) (p : Port) (f : TransitPort → TransitPort) : (s.modTPort p f).events = s.events := rfl
@[simp] theorem modTPort_scratch (s : State) (p : Port) (f : TransitPort → TransitPort) : (s.modTPort p f).scratch = s.scratch := rfl
@[simp] theorem modTPort_freeCtr (s : State) (p : Port) (f : TransitPort → TransitPort) : (s.modTPort p f).freeCtr = s.freeCtr := rfl

/-! ### modStore -/

@[simp] theorem modStore_pending (s : State) (f : Store → Store) : (s.modStore f).pending = s.pending := rfl
@[simp] theorem modStore_engines (s : State) (f : Store → Store) : (s.modStore f).engines = s.engines := rfl
@[simp] theorem modStore_lanes (s : State) (f : Store → Store) : (s.modStore f).lanes = s.lanes := rfl
@[simp] theorem modStore_clusters (s : State) (f : Store → Store) : (s.modStore f).clusters = s.clusters := rfl
@[simp] theorem modStore_params (s : State) (f : Store → Store) : (s.modStore f).params = s.params := rfl
@[simp] theorem modStore_queue (s : State) (f : Store → Store) : (s.modStore f).queue = s.queue := rfl
@[simp] theorem modStore_boot (s : State) (f : Store → Store) : (s.modStore f).boot = s.boot := rfl
@[simp] theorem modStore_ports (s : State) (f : Store → Store) : (s.modStore f).ports = s.ports := rfl
@[simp] theorem modStore_transit (s : State) (f : Store → Store) : (s.modStore f).transit = s.transit := rfl
@[simp] theorem modStore_store (s : State) (f : Store → Store) : (s.modStore f).store = f s.store := rfl
@[simp] theorem modStore_streams (s : State) (f : Store → Store) : (s.modStore f).streams = s.streams := rfl
@[simp] theorem modStore_txs (s : State) (f : Store → Store) : (s.modStore f).txs = s.txs := rfl
@[simp] theorem modStore_fm (s : State) (f : Store → Store) : (s.modStore f).fm = s.fm := rfl
@[simp] theorem modStore_twin (s : State) (f : Store → Store) : (s.modStore f).twin = s.twin := rfl
@[simp] theorem modStore_sextant (s : State) (f : Store → Store) : (s.modStore f).sextant = s.sextant := rfl
@[simp] theorem modStore_bellows (s : State) (f : Store → Store) : (s.modStore f).bellows = s.bellows := rfl
@[simp] theorem modStore_thermal (s : State) (f : Store → Store) : (s.modStore f).thermal = s.thermal := rfl
@[simp] theorem modStore_serial (s : State) (f : Store → Store) : (s.modStore f).serial = s.serial := rfl
@[simp] theorem modStore_nv (s : State) (f : Store → Store) : (s.modStore f).nv = s.nv := rfl
@[simp] theorem modStore_clocks (s : State) (f : Store → Store) : (s.modStore f).clocks = s.clocks := rfl
@[simp] theorem modStore_events (s : State) (f : Store → Store) : (s.modStore f).events = s.events := rfl
@[simp] theorem modStore_scratch (s : State) (f : Store → Store) : (s.modStore f).scratch = s.scratch := rfl
@[simp] theorem modStore_freeCtr (s : State) (f : Store → Store) : (s.modStore f).freeCtr = s.freeCtr := rfl

/-! ### modTwin -/

@[simp] theorem modTwin_pending (s : State) (f : Twin → Twin) : (s.modTwin f).pending = s.pending := rfl
@[simp] theorem modTwin_engines (s : State) (f : Twin → Twin) : (s.modTwin f).engines = s.engines := rfl
@[simp] theorem modTwin_lanes (s : State) (f : Twin → Twin) : (s.modTwin f).lanes = s.lanes := rfl
@[simp] theorem modTwin_clusters (s : State) (f : Twin → Twin) : (s.modTwin f).clusters = s.clusters := rfl
@[simp] theorem modTwin_params (s : State) (f : Twin → Twin) : (s.modTwin f).params = s.params := rfl
@[simp] theorem modTwin_queue (s : State) (f : Twin → Twin) : (s.modTwin f).queue = s.queue := rfl
@[simp] theorem modTwin_boot (s : State) (f : Twin → Twin) : (s.modTwin f).boot = s.boot := rfl
@[simp] theorem modTwin_ports (s : State) (f : Twin → Twin) : (s.modTwin f).ports = s.ports := rfl
@[simp] theorem modTwin_transit (s : State) (f : Twin → Twin) : (s.modTwin f).transit = s.transit := rfl
@[simp] theorem modTwin_store (s : State) (f : Twin → Twin) : (s.modTwin f).store = s.store := rfl
@[simp] theorem modTwin_streams (s : State) (f : Twin → Twin) : (s.modTwin f).streams = s.streams := rfl
@[simp] theorem modTwin_txs (s : State) (f : Twin → Twin) : (s.modTwin f).txs = s.txs := rfl
@[simp] theorem modTwin_fm (s : State) (f : Twin → Twin) : (s.modTwin f).fm = s.fm := rfl
@[simp] theorem modTwin_twin (s : State) (f : Twin → Twin) : (s.modTwin f).twin = f s.twin := rfl
@[simp] theorem modTwin_sextant (s : State) (f : Twin → Twin) : (s.modTwin f).sextant = s.sextant := rfl
@[simp] theorem modTwin_bellows (s : State) (f : Twin → Twin) : (s.modTwin f).bellows = s.bellows := rfl
@[simp] theorem modTwin_thermal (s : State) (f : Twin → Twin) : (s.modTwin f).thermal = s.thermal := rfl
@[simp] theorem modTwin_serial (s : State) (f : Twin → Twin) : (s.modTwin f).serial = s.serial := rfl
@[simp] theorem modTwin_nv (s : State) (f : Twin → Twin) : (s.modTwin f).nv = s.nv := rfl
@[simp] theorem modTwin_clocks (s : State) (f : Twin → Twin) : (s.modTwin f).clocks = s.clocks := rfl
@[simp] theorem modTwin_events (s : State) (f : Twin → Twin) : (s.modTwin f).events = s.events := rfl
@[simp] theorem modTwin_scratch (s : State) (f : Twin → Twin) : (s.modTwin f).scratch = s.scratch := rfl
@[simp] theorem modTwin_freeCtr (s : State) (f : Twin → Twin) : (s.modTwin f).freeCtr = s.freeCtr := rfl

/-! ### modNv -/

@[simp] theorem modNv_pending (s : State) (f : Nv → Nv) : (s.modNv f).pending = s.pending := rfl
@[simp] theorem modNv_engines (s : State) (f : Nv → Nv) : (s.modNv f).engines = s.engines := rfl
@[simp] theorem modNv_lanes (s : State) (f : Nv → Nv) : (s.modNv f).lanes = s.lanes := rfl
@[simp] theorem modNv_clusters (s : State) (f : Nv → Nv) : (s.modNv f).clusters = s.clusters := rfl
@[simp] theorem modNv_params (s : State) (f : Nv → Nv) : (s.modNv f).params = s.params := rfl
@[simp] theorem modNv_queue (s : State) (f : Nv → Nv) : (s.modNv f).queue = s.queue := rfl
@[simp] theorem modNv_boot (s : State) (f : Nv → Nv) : (s.modNv f).boot = s.boot := rfl
@[simp] theorem modNv_ports (s : State) (f : Nv → Nv) : (s.modNv f).ports = s.ports := rfl
@[simp] theorem modNv_transit (s : State) (f : Nv → Nv) : (s.modNv f).transit = s.transit := rfl
@[simp] theorem modNv_store (s : State) (f : Nv → Nv) : (s.modNv f).store = s.store := rfl
@[simp] theorem modNv_streams (s : State) (f : Nv → Nv) : (s.modNv f).streams = s.streams := rfl
@[simp] theorem modNv_txs (s : State) (f : Nv → Nv) : (s.modNv f).txs = s.txs := rfl
@[simp] theorem modNv_fm (s : State) (f : Nv → Nv) : (s.modNv f).fm = s.fm := rfl
@[simp] theorem modNv_twin (s : State) (f : Nv → Nv) : (s.modNv f).twin = s.twin := rfl
@[simp] theorem modNv_sextant (s : State) (f : Nv → Nv) : (s.modNv f).sextant = s.sextant := rfl
@[simp] theorem modNv_bellows (s : State) (f : Nv → Nv) : (s.modNv f).bellows = s.bellows := rfl
@[simp] theorem modNv_thermal (s : State) (f : Nv → Nv) : (s.modNv f).thermal = s.thermal := rfl
@[simp] theorem modNv_serial (s : State) (f : Nv → Nv) : (s.modNv f).serial = s.serial := rfl
@[simp] theorem modNv_nv (s : State) (f : Nv → Nv) : (s.modNv f).nv = f s.nv := rfl
@[simp] theorem modNv_clocks (s : State) (f : Nv → Nv) : (s.modNv f).clocks = s.clocks := rfl
@[simp] theorem modNv_events (s : State) (f : Nv → Nv) : (s.modNv f).events = s.events := rfl
@[simp] theorem modNv_scratch (s : State) (f : Nv → Nv) : (s.modNv f).scratch = s.scratch := rfl
@[simp] theorem modNv_freeCtr (s : State) (f : Nv → Nv) : (s.modNv f).freeCtr = s.freeCtr := rfl

/-! ### modSerial -/

@[simp] theorem modSerial_pending (s : State) (f : Serial → Serial) : (s.modSerial f).pending = s.pending := rfl
@[simp] theorem modSerial_engines (s : State) (f : Serial → Serial) : (s.modSerial f).engines = s.engines := rfl
@[simp] theorem modSerial_lanes (s : State) (f : Serial → Serial) : (s.modSerial f).lanes = s.lanes := rfl
@[simp] theorem modSerial_clusters (s : State) (f : Serial → Serial) : (s.modSerial f).clusters = s.clusters := rfl
@[simp] theorem modSerial_params (s : State) (f : Serial → Serial) : (s.modSerial f).params = s.params := rfl
@[simp] theorem modSerial_queue (s : State) (f : Serial → Serial) : (s.modSerial f).queue = s.queue := rfl
@[simp] theorem modSerial_boot (s : State) (f : Serial → Serial) : (s.modSerial f).boot = s.boot := rfl
@[simp] theorem modSerial_ports (s : State) (f : Serial → Serial) : (s.modSerial f).ports = s.ports := rfl
@[simp] theorem modSerial_transit (s : State) (f : Serial → Serial) : (s.modSerial f).transit = s.transit := rfl
@[simp] theorem modSerial_store (s : State) (f : Serial → Serial) : (s.modSerial f).store = s.store := rfl
@[simp] theorem modSerial_streams (s : State) (f : Serial → Serial) : (s.modSerial f).streams = s.streams := rfl
@[simp] theorem modSerial_txs (s : State) (f : Serial → Serial) : (s.modSerial f).txs = s.txs := rfl
@[simp] theorem modSerial_fm (s : State) (f : Serial → Serial) : (s.modSerial f).fm = s.fm := rfl
@[simp] theorem modSerial_twin (s : State) (f : Serial → Serial) : (s.modSerial f).twin = s.twin := rfl
@[simp] theorem modSerial_sextant (s : State) (f : Serial → Serial) : (s.modSerial f).sextant = s.sextant := rfl
@[simp] theorem modSerial_bellows (s : State) (f : Serial → Serial) : (s.modSerial f).bellows = s.bellows := rfl
@[simp] theorem modSerial_thermal (s : State) (f : Serial → Serial) : (s.modSerial f).thermal = s.thermal := rfl
@[simp] theorem modSerial_serial (s : State) (f : Serial → Serial) : (s.modSerial f).serial = f s.serial := rfl
@[simp] theorem modSerial_nv (s : State) (f : Serial → Serial) : (s.modSerial f).nv = s.nv := rfl
@[simp] theorem modSerial_clocks (s : State) (f : Serial → Serial) : (s.modSerial f).clocks = s.clocks := rfl
@[simp] theorem modSerial_events (s : State) (f : Serial → Serial) : (s.modSerial f).events = s.events := rfl
@[simp] theorem modSerial_scratch (s : State) (f : Serial → Serial) : (s.modSerial f).scratch = s.scratch := rfl
@[simp] theorem modSerial_freeCtr (s : State) (f : Serial → Serial) : (s.modSerial f).freeCtr = s.freeCtr := rfl

/-! ### modQueue -/

@[simp] theorem modQueue_pending (s : State) (f : Queue → Queue) : (s.modQueue f).pending = s.pending := rfl
@[simp] theorem modQueue_engines (s : State) (f : Queue → Queue) : (s.modQueue f).engines = s.engines := rfl
@[simp] theorem modQueue_lanes (s : State) (f : Queue → Queue) : (s.modQueue f).lanes = s.lanes := rfl
@[simp] theorem modQueue_clusters (s : State) (f : Queue → Queue) : (s.modQueue f).clusters = s.clusters := rfl
@[simp] theorem modQueue_params (s : State) (f : Queue → Queue) : (s.modQueue f).params = s.params := rfl
@[simp] theorem modQueue_queue (s : State) (f : Queue → Queue) : (s.modQueue f).queue = f s.queue := rfl
@[simp] theorem modQueue_boot (s : State) (f : Queue → Queue) : (s.modQueue f).boot = s.boot := rfl
@[simp] theorem modQueue_ports (s : State) (f : Queue → Queue) : (s.modQueue f).ports = s.ports := rfl
@[simp] theorem modQueue_transit (s : State) (f : Queue → Queue) : (s.modQueue f).transit = s.transit := rfl
@[simp] theorem modQueue_store (s : State) (f : Queue → Queue) : (s.modQueue f).store = s.store := rfl
@[simp] theorem modQueue_streams (s : State) (f : Queue → Queue) : (s.modQueue f).streams = s.streams := rfl
@[simp] theorem modQueue_txs (s : State) (f : Queue → Queue) : (s.modQueue f).txs = s.txs := rfl
@[simp] theorem modQueue_fm (s : State) (f : Queue → Queue) : (s.modQueue f).fm = s.fm := rfl
@[simp] theorem modQueue_twin (s : State) (f : Queue → Queue) : (s.modQueue f).twin = s.twin := rfl
@[simp] theorem modQueue_sextant (s : State) (f : Queue → Queue) : (s.modQueue f).sextant = s.sextant := rfl
@[simp] theorem modQueue_bellows (s : State) (f : Queue → Queue) : (s.modQueue f).bellows = s.bellows := rfl
@[simp] theorem modQueue_thermal (s : State) (f : Queue → Queue) : (s.modQueue f).thermal = s.thermal := rfl
@[simp] theorem modQueue_serial (s : State) (f : Queue → Queue) : (s.modQueue f).serial = s.serial := rfl
@[simp] theorem modQueue_nv (s : State) (f : Queue → Queue) : (s.modQueue f).nv = s.nv := rfl
@[simp] theorem modQueue_clocks (s : State) (f : Queue → Queue) : (s.modQueue f).clocks = s.clocks := rfl
@[simp] theorem modQueue_events (s : State) (f : Queue → Queue) : (s.modQueue f).events = s.events := rfl
@[simp] theorem modQueue_scratch (s : State) (f : Queue → Queue) : (s.modQueue f).scratch = s.scratch := rfl
@[simp] theorem modQueue_freeCtr (s : State) (f : Queue → Queue) : (s.modQueue f).freeCtr = s.freeCtr := rfl

/-! ### modThermal -/

@[simp] theorem modThermal_pending (s : State) (f : Thermal → Thermal) : (s.modThermal f).pending = s.pending := rfl
@[simp] theorem modThermal_engines (s : State) (f : Thermal → Thermal) : (s.modThermal f).engines = s.engines := rfl
@[simp] theorem modThermal_lanes (s : State) (f : Thermal → Thermal) : (s.modThermal f).lanes = s.lanes := rfl
@[simp] theorem modThermal_clusters (s : State) (f : Thermal → Thermal) : (s.modThermal f).clusters = s.clusters := rfl
@[simp] theorem modThermal_params (s : State) (f : Thermal → Thermal) : (s.modThermal f).params = s.params := rfl
@[simp] theorem modThermal_queue (s : State) (f : Thermal → Thermal) : (s.modThermal f).queue = s.queue := rfl
@[simp] theorem modThermal_boot (s : State) (f : Thermal → Thermal) : (s.modThermal f).boot = s.boot := rfl
@[simp] theorem modThermal_ports (s : State) (f : Thermal → Thermal) : (s.modThermal f).ports = s.ports := rfl
@[simp] theorem modThermal_transit (s : State) (f : Thermal → Thermal) : (s.modThermal f).transit = s.transit := rfl
@[simp] theorem modThermal_store (s : State) (f : Thermal → Thermal) : (s.modThermal f).store = s.store := rfl
@[simp] theorem modThermal_streams (s : State) (f : Thermal → Thermal) : (s.modThermal f).streams = s.streams := rfl
@[simp] theorem modThermal_txs (s : State) (f : Thermal → Thermal) : (s.modThermal f).txs = s.txs := rfl
@[simp] theorem modThermal_fm (s : State) (f : Thermal → Thermal) : (s.modThermal f).fm = s.fm := rfl
@[simp] theorem modThermal_twin (s : State) (f : Thermal → Thermal) : (s.modThermal f).twin = s.twin := rfl
@[simp] theorem modThermal_sextant (s : State) (f : Thermal → Thermal) : (s.modThermal f).sextant = s.sextant := rfl
@[simp] theorem modThermal_bellows (s : State) (f : Thermal → Thermal) : (s.modThermal f).bellows = s.bellows := rfl
@[simp] theorem modThermal_thermal (s : State) (f : Thermal → Thermal) : (s.modThermal f).thermal = f s.thermal := rfl
@[simp] theorem modThermal_serial (s : State) (f : Thermal → Thermal) : (s.modThermal f).serial = s.serial := rfl
@[simp] theorem modThermal_nv (s : State) (f : Thermal → Thermal) : (s.modThermal f).nv = s.nv := rfl
@[simp] theorem modThermal_clocks (s : State) (f : Thermal → Thermal) : (s.modThermal f).clocks = s.clocks := rfl
@[simp] theorem modThermal_events (s : State) (f : Thermal → Thermal) : (s.modThermal f).events = s.events := rfl
@[simp] theorem modThermal_scratch (s : State) (f : Thermal → Thermal) : (s.modThermal f).scratch = s.scratch := rfl
@[simp] theorem modThermal_freeCtr (s : State) (f : Thermal → Thermal) : (s.modThermal f).freeCtr = s.freeCtr := rfl

/-! ### modParams -/

@[simp] theorem modParams_pending (s : State) (f : Params → Params) : (s.modParams f).pending = s.pending := rfl
@[simp] theorem modParams_engines (s : State) (f : Params → Params) : (s.modParams f).engines = s.engines := rfl
@[simp] theorem modParams_lanes (s : State) (f : Params → Params) : (s.modParams f).lanes = s.lanes := rfl
@[simp] theorem modParams_clusters (s : State) (f : Params → Params) : (s.modParams f).clusters = s.clusters := rfl
@[simp] theorem modParams_params (s : State) (f : Params → Params) : (s.modParams f).params = f s.params := rfl
@[simp] theorem modParams_queue (s : State) (f : Params → Params) : (s.modParams f).queue = s.queue := rfl
@[simp] theorem modParams_boot (s : State) (f : Params → Params) : (s.modParams f).boot = s.boot := rfl
@[simp] theorem modParams_ports (s : State) (f : Params → Params) : (s.modParams f).ports = s.ports := rfl
@[simp] theorem modParams_transit (s : State) (f : Params → Params) : (s.modParams f).transit = s.transit := rfl
@[simp] theorem modParams_store (s : State) (f : Params → Params) : (s.modParams f).store = s.store := rfl
@[simp] theorem modParams_streams (s : State) (f : Params → Params) : (s.modParams f).streams = s.streams := rfl
@[simp] theorem modParams_txs (s : State) (f : Params → Params) : (s.modParams f).txs = s.txs := rfl
@[simp] theorem modParams_fm (s : State) (f : Params → Params) : (s.modParams f).fm = s.fm := rfl
@[simp] theorem modParams_twin (s : State) (f : Params → Params) : (s.modParams f).twin = s.twin := rfl
@[simp] theorem modParams_sextant (s : State) (f : Params → Params) : (s.modParams f).sextant = s.sextant := rfl
@[simp] theorem modParams_bellows (s : State) (f : Params → Params) : (s.modParams f).bellows = s.bellows := rfl
@[simp] theorem modParams_thermal (s : State) (f : Params → Params) : (s.modParams f).thermal = s.thermal := rfl
@[simp] theorem modParams_serial (s : State) (f : Params → Params) : (s.modParams f).serial = s.serial := rfl
@[simp] theorem modParams_nv (s : State) (f : Params → Params) : (s.modParams f).nv = s.nv := rfl
@[simp] theorem modParams_clocks (s : State) (f : Params → Params) : (s.modParams f).clocks = s.clocks := rfl
@[simp] theorem modParams_events (s : State) (f : Params → Params) : (s.modParams f).events = s.events := rfl
@[simp] theorem modParams_scratch (s : State) (f : Params → Params) : (s.modParams f).scratch = s.scratch := rfl
@[simp] theorem modParams_freeCtr (s : State) (f : Params → Params) : (s.modParams f).freeCtr = s.freeCtr := rfl

/-! ### modClocks -/

@[simp] theorem modClocks_pending (s : State) (f : Clocks → Clocks) : (s.modClocks f).pending = s.pending := rfl
@[simp] theorem modClocks_engines (s : State) (f : Clocks → Clocks) : (s.modClocks f).engines = s.engines := rfl
@[simp] theorem modClocks_lanes (s : State) (f : Clocks → Clocks) : (s.modClocks f).lanes = s.lanes := rfl
@[simp] theorem modClocks_clusters (s : State) (f : Clocks → Clocks) : (s.modClocks f).clusters = s.clusters := rfl
@[simp] theorem modClocks_params (s : State) (f : Clocks → Clocks) : (s.modClocks f).params = s.params := rfl
@[simp] theorem modClocks_queue (s : State) (f : Clocks → Clocks) : (s.modClocks f).queue = s.queue := rfl
@[simp] theorem modClocks_boot (s : State) (f : Clocks → Clocks) : (s.modClocks f).boot = s.boot := rfl
@[simp] theorem modClocks_ports (s : State) (f : Clocks → Clocks) : (s.modClocks f).ports = s.ports := rfl
@[simp] theorem modClocks_transit (s : State) (f : Clocks → Clocks) : (s.modClocks f).transit = s.transit := rfl
@[simp] theorem modClocks_store (s : State) (f : Clocks → Clocks) : (s.modClocks f).store = s.store := rfl
@[simp] theorem modClocks_streams (s : State) (f : Clocks → Clocks) : (s.modClocks f).streams = s.streams := rfl
@[simp] theorem modClocks_txs (s : State) (f : Clocks → Clocks) : (s.modClocks f).txs = s.txs := rfl
@[simp] theorem modClocks_fm (s : State) (f : Clocks → Clocks) : (s.modClocks f).fm = s.fm := rfl
@[simp] theorem modClocks_twin (s : State) (f : Clocks → Clocks) : (s.modClocks f).twin = s.twin := rfl
@[simp] theorem modClocks_sextant (s : State) (f : Clocks → Clocks) : (s.modClocks f).sextant = s.sextant := rfl
@[simp] theorem modClocks_bellows (s : State) (f : Clocks → Clocks) : (s.modClocks f).bellows = s.bellows := rfl
@[simp] theorem modClocks_thermal (s : State) (f : Clocks → Clocks) : (s.modClocks f).thermal = s.thermal := rfl
@[simp] theorem modClocks_serial (s : State) (f : Clocks → Clocks) : (s.modClocks f).serial = s.serial := rfl
@[simp] theorem modClocks_nv (s : State) (f : Clocks → Clocks) : (s.modClocks f).nv = s.nv := rfl
@[simp] theorem modClocks_clocks (s : State) (f : Clocks → Clocks) : (s.modClocks f).clocks = f s.clocks := rfl
@[simp] theorem modClocks_events (s : State) (f : Clocks → Clocks) : (s.modClocks f).events = s.events := rfl
@[simp] theorem modClocks_scratch (s : State) (f : Clocks → Clocks) : (s.modClocks f).scratch = s.scratch := rfl
@[simp] theorem modClocks_freeCtr (s : State) (f : Clocks → Clocks) : (s.modClocks f).freeCtr = s.freeCtr := rfl

/-! ### modEvents -/

@[simp] theorem modEvents_pending (s : State) (f : Events → Events) : (s.modEvents f).pending = s.pending := rfl
@[simp] theorem modEvents_engines (s : State) (f : Events → Events) : (s.modEvents f).engines = s.engines := rfl
@[simp] theorem modEvents_lanes (s : State) (f : Events → Events) : (s.modEvents f).lanes = s.lanes := rfl
@[simp] theorem modEvents_clusters (s : State) (f : Events → Events) : (s.modEvents f).clusters = s.clusters := rfl
@[simp] theorem modEvents_params (s : State) (f : Events → Events) : (s.modEvents f).params = s.params := rfl
@[simp] theorem modEvents_queue (s : State) (f : Events → Events) : (s.modEvents f).queue = s.queue := rfl
@[simp] theorem modEvents_boot (s : State) (f : Events → Events) : (s.modEvents f).boot = s.boot := rfl
@[simp] theorem modEvents_ports (s : State) (f : Events → Events) : (s.modEvents f).ports = s.ports := rfl
@[simp] theorem modEvents_transit (s : State) (f : Events → Events) : (s.modEvents f).transit = s.transit := rfl
@[simp] theorem modEvents_store (s : State) (f : Events → Events) : (s.modEvents f).store = s.store := rfl
@[simp] theorem modEvents_streams (s : State) (f : Events → Events) : (s.modEvents f).streams = s.streams := rfl
@[simp] theorem modEvents_txs (s : State) (f : Events → Events) : (s.modEvents f).txs = s.txs := rfl
@[simp] theorem modEvents_fm (s : State) (f : Events → Events) : (s.modEvents f).fm = s.fm := rfl
@[simp] theorem modEvents_twin (s : State) (f : Events → Events) : (s.modEvents f).twin = s.twin := rfl
@[simp] theorem modEvents_sextant (s : State) (f : Events → Events) : (s.modEvents f).sextant = s.sextant := rfl
@[simp] theorem modEvents_bellows (s : State) (f : Events → Events) : (s.modEvents f).bellows = s.bellows := rfl
@[simp] theorem modEvents_thermal (s : State) (f : Events → Events) : (s.modEvents f).thermal = s.thermal := rfl
@[simp] theorem modEvents_serial (s : State) (f : Events → Events) : (s.modEvents f).serial = s.serial := rfl
@[simp] theorem modEvents_nv (s : State) (f : Events → Events) : (s.modEvents f).nv = s.nv := rfl
@[simp] theorem modEvents_clocks (s : State) (f : Events → Events) : (s.modEvents f).clocks = s.clocks := rfl
@[simp] theorem modEvents_events (s : State) (f : Events → Events) : (s.modEvents f).events = f s.events := rfl
@[simp] theorem modEvents_scratch (s : State) (f : Events → Events) : (s.modEvents f).scratch = s.scratch := rfl
@[simp] theorem modEvents_freeCtr (s : State) (f : Events → Events) : (s.modEvents f).freeCtr = s.freeCtr := rfl

/-! ### modBoot -/

@[simp] theorem modBoot_pending (s : State) (f : Boot → Boot) : (s.modBoot f).pending = s.pending := rfl
@[simp] theorem modBoot_engines (s : State) (f : Boot → Boot) : (s.modBoot f).engines = s.engines := rfl
@[simp] theorem modBoot_lanes (s : State) (f : Boot → Boot) : (s.modBoot f).lanes = s.lanes := rfl
@[simp] theorem modBoot_clusters (s : State) (f : Boot → Boot) : (s.modBoot f).clusters = s.clusters := rfl
@[simp] theorem modBoot_params (s : State) (f : Boot → Boot) : (s.modBoot f).params = s.params := rfl
@[simp] theorem modBoot_queue (s : State) (f : Boot → Boot) : (s.modBoot f).queue = s.queue := rfl
@[simp] theorem modBoot_boot (s : State) (f : Boot → Boot) : (s.modBoot f).boot = f s.boot := rfl
@[simp] theorem modBoot_ports (s : State) (f : Boot → Boot) : (s.modBoot f).ports = s.ports := rfl
@[simp] theorem modBoot_transit (s : State) (f : Boot → Boot) : (s.modBoot f).transit = s.transit := rfl
@[simp] theorem modBoot_store (s : State) (f : Boot → Boot) : (s.modBoot f).store = s.store := rfl
@[simp] theorem modBoot_streams (s : State) (f : Boot → Boot) : (s.modBoot f).streams = s.streams := rfl
@[simp] theorem modBoot_txs (s : State) (f : Boot → Boot) : (s.modBoot f).txs = s.txs := rfl
@[simp] theorem modBoot_fm (s : State) (f : Boot → Boot) : (s.modBoot f).fm = s.fm := rfl
@[simp] theorem modBoot_twin (s : State) (f : Boot → Boot) : (s.modBoot f).twin = s.twin := rfl
@[simp] theorem modBoot_sextant (s : State) (f : Boot → Boot) : (s.modBoot f).sextant = s.sextant := rfl
@[simp] theorem modBoot_bellows (s : State) (f : Boot → Boot) : (s.modBoot f).bellows = s.bellows := rfl
@[simp] theorem modBoot_thermal (s : State) (f : Boot → Boot) : (s.modBoot f).thermal = s.thermal := rfl
@[simp] theorem modBoot_serial (s : State) (f : Boot → Boot) : (s.modBoot f).serial = s.serial := rfl
@[simp] theorem modBoot_nv (s : State) (f : Boot → Boot) : (s.modBoot f).nv = s.nv := rfl
@[simp] theorem modBoot_clocks (s : State) (f : Boot → Boot) : (s.modBoot f).clocks = s.clocks := rfl
@[simp] theorem modBoot_events (s : State) (f : Boot → Boot) : (s.modBoot f).events = s.events := rfl
@[simp] theorem modBoot_scratch (s : State) (f : Boot → Boot) : (s.modBoot f).scratch = s.scratch := rfl
@[simp] theorem modBoot_freeCtr (s : State) (f : Boot → Boot) : (s.modBoot f).freeCtr = s.freeCtr := rfl

/-! ### Elements -/

@[simp] theorem modEng_eng (s : State) (e : Eng) (f : Engine → Engine) : (s.modEng e f).eng e = f (s.eng e) :=
  upd_get _ _ _
theorem modEng_eng_ne (s : State) (e j : Eng) (f : Engine → Engine) (h : j ≠ e) : (s.modEng e f).eng j = s.eng j :=
  upd_get_ne _ _ _ _ h

@[simp] theorem modLane_lane (s : State) (l : LaneNo) (f : Lane → Lane) : (s.modLane l f).lane l = f (s.lane l) :=
  upd_get _ _ _
theorem modLane_lane_ne (s : State) (l j : LaneNo) (f : Lane → Lane) (h : j ≠ l) : (s.modLane l f).lane j = s.lane j :=
  upd_get_ne _ _ _ _ h

@[simp] theorem modCluster_cluster (s : State) (k : Fin 12) (f : Cluster → Cluster) : (s.modCluster k f).cluster k = f (s.cluster k) :=
  upd_get _ _ _
theorem modCluster_cluster_ne (s : State) (k j : Fin 12) (f : Cluster → Cluster) (h : j ≠ k) : (s.modCluster k f).cluster j = s.cluster j :=
  upd_get_ne _ _ _ _ h

@[simp] theorem modPort_port (s : State) (p : Port) (f : PortS → PortS) : (s.modPort p f).port p = f (s.port p) :=
  upd_get _ _ _
theorem modPort_port_ne (s : State) (p j : Port) (f : PortS → PortS) (h : j ≠ p) : (s.modPort p f).port j = s.port j :=
  upd_get_ne _ _ _ _ h

@[simp] theorem modStream_stream (s : State) (i : Fin 8) (f : Stream → Stream) : (s.modStream i f).stream i = f (s.stream i) :=
  upd_get _ _ _
theorem modStream_stream_ne (s : State) (i j : Fin 8) (f : Stream → Stream) (h : j ≠ i) : (s.modStream i f).stream j = s.stream j :=
  upd_get_ne _ _ _ _ h

@[simp] theorem modUnit_unit (s : State) (u : Fin 182) (f : UnitS → UnitS) : (s.modUnit u f).unit u = f (s.unit u) :=
  upd_get _ _ _
theorem modUnit_unit_ne (s : State) (u j : Fin 182) (f : UnitS → UnitS) (h : j ≠ u) : (s.modUnit u f).unit j = s.unit j :=
  upd_get_ne _ _ _ _ h

@[simp] theorem modMod_mod (s : State) (m : Fin 8) (f : SxMod → SxMod) : (s.modMod m f).mod m = f (s.mod m) :=
  upd_get _ _ _
theorem modMod_mod_ne (s : State) (m j : Fin 8) (f : SxMod → SxMod) (h : j ≠ m) : (s.modMod m f).mod j = s.mod j :=
  upd_get_ne _ _ _ _ h

@[simp] theorem modBlw_blw (s : State) (c : Fin 8) (f : Blw → Blw) : (s.modBlw c f).blw c = f (s.blw c) :=
  upd_get _ _ _
theorem modBlw_blw_ne (s : State) (c j : Fin 8) (f : Blw → Blw) (h : j ≠ c) : (s.modBlw c f).blw j = s.blw j :=
  upd_get_ne _ _ _ _ h

@[simp] theorem modSensor_sensor (s : State) (t : Fin 48) (f : Sensor → Sensor) : (s.modSensor t f).sensor t = f (s.sensor t) :=
  upd_get _ _ _
theorem modSensor_sensor_ne (s : State) (t j : Fin 48) (f : Sensor → Sensor) (h : j ≠ t) : (s.modSensor t f).sensor j = s.sensor j :=
  upd_get_ne _ _ _ _ h

@[simp] theorem modTPort_tport (s : State) (p : Port) (f : TransitPort → TransitPort) : (s.modTPort p f).tport p = f (s.tport p) :=
  upd_get _ _ _
theorem modTPort_tport_ne (s : State) (p j : Port) (f : TransitPort → TransitPort) (h : j ≠ p) : (s.modTPort p f).tport j = s.tport j :=
  upd_get_ne _ _ _ _ h

@[simp] theorem modEng_lane_other (s : State) (e : Eng) (f : Engine → Engine) (j : LaneNo) : (s.modEng e f).lane j = s.lane j := rfl
@[simp] theorem modEng_cluster_other (s : State) (e : Eng) (f : Engine → Engine) (j : Fin 12) : (s.modEng e f).cluster j = s.cluster j := rfl
@[simp] theorem modEng_port_other (s : State) (e : Eng) (f : Engine → Engine) (j : Port) : (s.modEng e f).port j = s.port j := rfl
@[simp] theorem modEng_stream_other (s : State) (e : Eng) (f : Engine → Engine) (j : Fin 8) : (s.modEng e f).stream j = s.stream j := rfl
@[simp] theorem modEng_unit_other (s : State) (e : Eng) (f : Engine → Engine) (j : Fin 182) : (s.modEng e f).unit j = s.unit j := rfl
@[simp] theorem modEng_mod_other (s : State) (e : Eng) (f : Engine → Engine) (j : Fin 8) : (s.modEng e f).mod j = s.mod j := rfl
@[simp] theorem modEng_blw_other (s : State) (e : Eng) (f : Engine → Engine) (j : Fin 8) : (s.modEng e f).blw j = s.blw j := rfl
@[simp] theorem modEng_sensor_other (s : State) (e : Eng) (f : Engine → Engine) (j : Fin 48) : (s.modEng e f).sensor j = s.sensor j := rfl
@[simp] theorem modEng_tport_other (s : State) (e : Eng) (f : Engine → Engine) (j : Port) : (s.modEng e f).tport j = s.tport j := rfl
@[simp] theorem modLane_eng_other (s : State) (l : LaneNo) (f : Lane → Lane) (j : Eng) : (s.modLane l f).eng j = s.eng j := rfl
@[simp] theorem modLane_cluster_other (s : State) (l : LaneNo) (f : Lane → Lane) (j : Fin 12) : (s.modLane l f).cluster j = s.cluster j := rfl
@[simp] theorem modLane_port_other (s : State) (l : LaneNo) (f : Lane → Lane) (j : Port) : (s.modLane l f).port j = s.port j := rfl
@[simp] theorem modLane_stream_other (s : State) (l : LaneNo) (f : Lane → Lane) (j : Fin 8) : (s.modLane l f).stream j = s.stream j := rfl
@[simp] theorem modLane_unit_other (s : State) (l : LaneNo) (f : Lane → Lane) (j : Fin 182) : (s.modLane l f).unit j = s.unit j := rfl
@[simp] theorem modLane_mod_other (s : State) (l : LaneNo) (f : Lane → Lane) (j : Fin 8) : (s.modLane l f).mod j = s.mod j := rfl
@[simp] theorem modLane_blw_other (s : State) (l : LaneNo) (f : Lane → Lane) (j : Fin 8) : (s.modLane l f).blw j = s.blw j := rfl
@[simp] theorem modLane_sensor_other (s : State) (l : LaneNo) (f : Lane → Lane) (j : Fin 48) : (s.modLane l f).sensor j = s.sensor j := rfl
@[simp] theorem modLane_tport_other (s : State) (l : LaneNo) (f : Lane → Lane) (j : Port) : (s.modLane l f).tport j = s.tport j := rfl
@[simp] theorem modCluster_eng_other (s : State) (k : Fin 12) (f : Cluster → Cluster) (j : Eng) : (s.modCluster k f).eng j = s.eng j := rfl
@[simp] theorem modCluster_lane_other (s : State) (k : Fin 12) (f : Cluster → Cluster) (j : LaneNo) : (s.modCluster k f).lane j = s.lane j := rfl
@[simp] theorem modCluster_port_other (s : State) (k : Fin 12) (f : Cluster → Cluster) (j : Port) : (s.modCluster k f).port j = s.port j := rfl
@[simp] theorem modCluster_stream_other (s : State) (k : Fin 12) (f : Cluster → Cluster) (j : Fin 8) : (s.modCluster k f).stream j = s.stream j := rfl
@[simp] theorem modCluster_unit_other (s : State) (k : Fin 12) (f : Cluster → Cluster) (j : Fin 182) : (s.modCluster k f).unit j = s.unit j := rfl
@[simp] theorem modCluster_mod_other (s : State) (k : Fin 12) (f : Cluster → Cluster) (j : Fin 8) : (s.modCluster k f).mod j = s.mod j := rfl
@[simp] theorem modCluster_blw_other (s : State) (k : Fin 12) (f : Cluster → Cluster) (j : Fin 8) : (s.modCluster k f).blw j = s.blw j := rfl
@[simp] theorem modCluster_sensor_other (s : State) (k : Fin 12) (f : Cluster → Cluster) (j : Fin 48) : (s.modCluster k f).sensor j = s.sensor j := rfl
@[simp] theorem modCluster_tport_other (s : State) (k : Fin 12) (f : Cluster → Cluster) (j : Port) : (s.modCluster k f).tport j = s.tport j := rfl
@[simp] theorem modPort_eng_other (s : State) (p : Port) (f : PortS → PortS) (j : Eng) : (s.modPort p f).eng j = s.eng j := rfl
@[simp] theorem modPort_lane_other (s : State) (p : Port) (f : PortS → PortS) (j : LaneNo) : (s.modPort p f).lane j = s.lane j := rfl
@[simp] theorem modPort_cluster_other (s : State) (p : Port) (f : PortS → PortS) (j : Fin 12) : (s.modPort p f).cluster j = s.cluster j := rfl
@[simp] theorem modPort_stream_other (s : State) (p : Port) (f : PortS → PortS) (j : Fin 8) : (s.modPort p f).stream j = s.stream j := rfl
@[simp] theorem modPort_unit_other (s : State) (p : Port) (f : PortS → PortS) (j : Fin 182) : (s.modPort p f).unit j = s.unit j := rfl
@[simp] theorem modPort_mod_other (s : State) (p : Port) (f : PortS → PortS) (j : Fin 8) : (s.modPort p f).mod j = s.mod j := rfl
@[simp] theorem modPort_blw_other (s : State) (p : Port) (f : PortS → PortS) (j : Fin 8) : (s.modPort p f).blw j = s.blw j := rfl
@[simp] theorem modPort_sensor_other (s : State) (p : Port) (f : PortS → PortS) (j : Fin 48) : (s.modPort p f).sensor j = s.sensor j := rfl
@[simp] theorem modPort_tport_other (s : State) (p : Port) (f : PortS → PortS) (j : Port) : (s.modPort p f).tport j = s.tport j := rfl
@[simp] theorem modStream_eng_other (s : State) (i : Fin 8) (f : Stream → Stream) (j : Eng) : (s.modStream i f).eng j = s.eng j := rfl
@[simp] theorem modStream_lane_other (s : State) (i : Fin 8) (f : Stream → Stream) (j : LaneNo) : (s.modStream i f).lane j = s.lane j := rfl
@[simp] theorem modStream_cluster_other (s : State) (i : Fin 8) (f : Stream → Stream) (j : Fin 12) : (s.modStream i f).cluster j = s.cluster j := rfl
@[simp] theorem modStream_port_other (s : State) (i : Fin 8) (f : Stream → Stream) (j : Port) : (s.modStream i f).port j = s.port j := rfl
@[simp] theorem modStream_unit_other (s : State) (i : Fin 8) (f : Stream → Stream) (j : Fin 182) : (s.modStream i f).unit j = s.unit j := rfl
@[simp] theorem modStream_mod_other (s : State) (i : Fin 8) (f : Stream → Stream) (j : Fin 8) : (s.modStream i f).mod j = s.mod j := rfl
@[simp] theorem modStream_blw_other (s : State) (i : Fin 8) (f : Stream → Stream) (j : Fin 8) : (s.modStream i f).blw j = s.blw j := rfl
@[simp] theorem modStream_sensor_other (s : State) (i : Fin 8) (f : Stream → Stream) (j : Fin 48) : (s.modStream i f).sensor j = s.sensor j := rfl
@[simp] theorem modStream_tport_other (s : State) (i : Fin 8) (f : Stream → Stream) (j : Port) : (s.modStream i f).tport j = s.tport j := rfl
@[simp] theorem modTx_eng_other (s : State) (x : Fin 2) (f : Tx → Tx) (j : Eng) : (s.modTx x f).eng j = s.eng j := rfl
@[simp] theorem modTx_lane_other (s : State) (x : Fin 2) (f : Tx → Tx) (j : LaneNo) : (s.modTx x f).lane j = s.lane j := rfl
@[simp] theorem modTx_cluster_other (s : State) (x : Fin 2) (f : Tx → Tx) (j : Fin 12) : (s.modTx x f).cluster j = s.cluster j := rfl
@[simp] theorem modTx_port_other (s : State) (x : Fin 2) (f : Tx → Tx) (j : Port) : (s.modTx x f).port j = s.port j := rfl
@[simp] theorem modTx_stream_other (s : State) (x : Fin 2) (f : Tx → Tx) (j : Fin 8) : (s.modTx x f).stream j = s.stream j := rfl
@[simp] theorem modTx_unit_other (s : State) (x : Fin 2) (f : Tx → Tx) (j : Fin 182) : (s.modTx x f).unit j = s.unit j := rfl
@[simp] theorem modTx_mod_other (s : State) (x : Fin 2) (f : Tx → Tx) (j : Fin 8) : (s.modTx x f).mod j = s.mod j := rfl
@[simp] theorem modTx_blw_other (s : State) (x : Fin 2) (f : Tx → Tx) (j : Fin 8) : (s.modTx x f).blw j = s.blw j := rfl
@[simp] theorem modTx_sensor_other (s : State) (x : Fin 2) (f : Tx → Tx) (j : Fin 48) : (s.modTx x f).sensor j = s.sensor j := rfl
@[simp] theorem modTx_tport_other (s : State) (x : Fin 2) (f : Tx → Tx) (j : Port) : (s.modTx x f).tport j = s.tport j := rfl
@[simp] theorem modFm_eng_other (s : State) (f : Fm → Fm) (j : Eng) : (s.modFm f).eng j = s.eng j := rfl
@[simp] theorem modFm_lane_other (s : State) (f : Fm → Fm) (j : LaneNo) : (s.modFm f).lane j = s.lane j := rfl
@[simp] theorem modFm_cluster_other (s : State) (f : Fm → Fm) (j : Fin 12) : (s.modFm f).cluster j = s.cluster j := rfl
@[simp] theorem modFm_port_other (s : State) (f : Fm → Fm) (j : Port) : (s.modFm f).port j = s.port j := rfl
@[simp] theorem modFm_stream_other (s : State) (f : Fm → Fm) (j : Fin 8) : (s.modFm f).stream j = s.stream j := rfl
@[simp] theorem modFm_mod_other (s : State) (f : Fm → Fm) (j : Fin 8) : (s.modFm f).mod j = s.mod j := rfl
@[simp] theorem modFm_blw_other (s : State) (f : Fm → Fm) (j : Fin 8) : (s.modFm f).blw j = s.blw j := rfl
@[simp] theorem modFm_sensor_other (s : State) (f : Fm → Fm) (j : Fin 48) : (s.modFm f).sensor j = s.sensor j := rfl
@[simp] theorem modFm_tport_other (s : State) (f : Fm → Fm) (j : Port) : (s.modFm f).tport j = s.tport j := rfl
@[simp] theorem modUnit_eng_other (s : State) (u : Fin 182) (f : UnitS → UnitS) (j : Eng) : (s.modUnit u f).eng j = s.eng j := rfl
@[simp] theorem modUnit_lane_other (s : State) (u : Fin 182) (f : UnitS → UnitS) (j : LaneNo) : (s.modUnit u f).lane j = s.lane j := rfl
@[simp] theorem modUnit_cluster_other (s : State) (u : Fin 182) (f : UnitS → UnitS) (j : Fin 12) : (s.modUnit u f).cluster j = s.cluster j := rfl
@[simp] theorem modUnit_port_other (s : State) (u : Fin 182) (f : UnitS → UnitS) (j : Port) : (s.modUnit u f).port j = s.port j := rfl
@[simp] theorem modUnit_stream_other (s : State) (u : Fin 182) (f : UnitS → UnitS) (j : Fin 8) : (s.modUnit u f).stream j = s.stream j := rfl
@[simp] theorem modUnit_mod_other (s : State) (u : Fin 182) (f : UnitS → UnitS) (j : Fin 8) : (s.modUnit u f).mod j = s.mod j := rfl
@[simp] theorem modUnit_blw_other (s : State) (u : Fin 182) (f : UnitS → UnitS) (j : Fin 8) : (s.modUnit u f).blw j = s.blw j := rfl
@[simp] theorem modUnit_sensor_other (s : State) (u : Fin 182) (f : UnitS → UnitS) (j : Fin 48) : (s.modUnit u f).sensor j = s.sensor j := rfl
@[simp] theorem modUnit_tport_other (s : State) (u : Fin 182) (f : UnitS → UnitS) (j : Port) : (s.modUnit u f).tport j = s.tport j := rfl
@[simp] theorem modMod_eng_other (s : State) (m : Fin 8) (f : SxMod → SxMod) (j : Eng) : (s.modMod m f).eng j = s.eng j := rfl
@[simp] theorem modMod_lane_other (s : State) (m : Fin 8) (f : SxMod → SxMod) (j : LaneNo) : (s.modMod m f).lane j = s.lane j := rfl
@[simp] theorem modMod_cluster_other (s : State) (m : Fin 8) (f : SxMod → SxMod) (j : Fin 12) : (s.modMod m f).cluster j = s.cluster j := rfl
@[simp] theorem modMod_port_other (s : State) (m : Fin 8) (f : SxMod → SxMod) (j : Port) : (s.modMod m f).port j = s.port j := rfl
@[simp] theorem modMod_stream_other (s : State) (m : Fin 8) (f : SxMod → SxMod) (j : Fin 8) : (s.modMod m f).stream j = s.stream j := rfl
@[simp] theorem modMod_unit_other (s : State) (m : Fin 8) (f : SxMod → SxMod) (j : Fin 182) : (s.modMod m f).unit j = s.unit j := rfl
@[simp] theorem modMod_blw_other (s : State) (m : Fin 8) (f : SxMod → SxMod) (j : Fin 8) : (s.modMod m f).blw j = s.blw j := rfl
@[simp] theorem modMod_sensor_other (s : State) (m : Fin 8) (f : SxMod → SxMod) (j : Fin 48) : (s.modMod m f).sensor j = s.sensor j := rfl
@[simp] theorem modMod_tport_other (s : State) (m : Fin 8) (f : SxMod → SxMod) (j : Port) : (s.modMod m f).tport j = s.tport j := rfl
@[simp] theorem modBlw_eng_other (s : State) (c : Fin 8) (f : Blw → Blw) (j : Eng) : (s.modBlw c f).eng j = s.eng j := rfl
@[simp] theorem modBlw_lane_other (s : State) (c : Fin 8) (f : Blw → Blw) (j : LaneNo) : (s.modBlw c f).lane j = s.lane j := rfl
@[simp] theorem modBlw_cluster_other (s : State) (c : Fin 8) (f : Blw → Blw) (j : Fin 12) : (s.modBlw c f).cluster j = s.cluster j := rfl
@[simp] theorem modBlw_port_other (s : State) (c : Fin 8) (f : Blw → Blw) (j : Port) : (s.modBlw c f).port j = s.port j := rfl
@[simp] theorem modBlw_stream_other (s : State) (c : Fin 8) (f : Blw → Blw) (j : Fin 8) : (s.modBlw c f).stream j = s.stream j := rfl
@[simp] theorem modBlw_unit_other (s : State) (c : Fin 8) (f : Blw → Blw) (j : Fin 182) : (s.modBlw c f).unit j = s.unit j := rfl
@[simp] theorem modBlw_mod_other (s : State) (c : Fin 8) (f : Blw → Blw) (j : Fin 8) : (s.modBlw c f).mod j = s.mod j := rfl
@[simp] theorem modBlw_sensor_other (s : State) (c : Fin 8) (f : Blw → Blw) (j : Fin 48) : (s.modBlw c f).sensor j = s.sensor j := rfl
@[simp] theorem modBlw_tport_other (s : State) (c : Fin 8) (f : Blw → Blw) (j : Port) : (s.modBlw c f).tport j = s.tport j := rfl
@[simp] theorem modSensor_eng_other (s : State) (t : Fin 48) (f : Sensor → Sensor) (j : Eng) : (s.modSensor t f).eng j = s.eng j := rfl
@[simp] theorem modSensor_lane_other (s : State) (t : Fin 48) (f : Sensor → Sensor) (j : LaneNo) : (s.modSensor t f).lane j = s.lane j := rfl
@[simp] theorem modSensor_cluster_other (s : State) (t : Fin 48) (f : Sensor → Sensor) (j : Fin 12) : (s.modSensor t f).cluster j = s.cluster j := rfl
@[simp] theorem modSensor_port_other (s : State) (t : Fin 48) (f : Sensor → Sensor) (j : Port) : (s.modSensor t f).port j = s.port j := rfl
@[simp] theorem modSensor_stream_other (s : State) (t : Fin 48) (f : Sensor → Sensor) (j : Fin 8) : (s.modSensor t f).stream j = s.stream j := rfl
@[simp] theorem modSensor_unit_other (s : State) (t : Fin 48) (f : Sensor → Sensor) (j : Fin 182) : (s.modSensor t f).unit j = s.unit j := rfl
@[simp] theorem modSensor_mod_other (s : State) (t : Fin 48) (f : Sensor → Sensor) (j : Fin 8) : (s.modSensor t f).mod j = s.mod j := rfl
@[simp] theorem modSensor_blw_other (s : State) (t : Fin 48) (f : Sensor → Sensor) (j : Fin 8) : (s.modSensor t f).blw j = s.blw j := rfl
@[simp] theorem modSensor_tport_other (s : State) (t : Fin 48) (f : Sensor → Sensor) (j : Port) : (s.modSensor t f).tport j = s.tport j := rfl
@[simp] theorem modTransit_eng_other (s : State) (f : TransitU → TransitU) (j : Eng) : (s.modTransit f).eng j = s.eng j := rfl
@[simp] theorem modTransit_lane_other (s : State) (f : TransitU → TransitU) (j : LaneNo) : (s.modTransit f).lane j = s.lane j := rfl
@[simp] theorem modTransit_cluster_other (s : State) (f : TransitU → TransitU) (j : Fin 12) : (s.modTransit f).cluster j = s.cluster j := rfl
@[simp] theorem modTransit_port_other (s : State) (f : TransitU → TransitU) (j : Port) : (s.modTransit f).port j = s.port j := rfl
@[simp] theorem modTransit_stream_other (s : State) (f : TransitU → TransitU) (j : Fin 8) : (s.modTransit f).stream j = s.stream j := rfl
@[simp] theorem modTransit_unit_other (s : State) (f : TransitU → TransitU) (j : Fin 182) : (s.modTransit f).unit j = s.unit j := rfl
@[simp] theorem modTransit_mod_other (s : State) (f : TransitU → TransitU) (j : Fin 8) : (s.modTransit f).mod j = s.mod j := rfl
@[simp] theorem modTransit_blw_other (s : State) (f : TransitU → TransitU) (j : Fin 8) : (s.modTransit f).blw j = s.blw j := rfl
@[simp] theorem modTransit_sensor_other (s : State) (f : TransitU → TransitU) (j : Fin 48) : (s.modTransit f).sensor j = s.sensor j := rfl
@[simp] theorem modTPort_eng_other (s : State) (p : Port) (f : TransitPort → TransitPort) (j : Eng) : (s.modTPort p f).eng j = s.eng j := rfl
@[simp] theorem modTPort_lane_other (s : State) (p : Port) (f : TransitPort → TransitPort) (j : LaneNo) : (s.modTPort p f).lane j = s.lane j := rfl
@[simp] theorem modTPort_cluster_other (s : State) (p : Port) (f : TransitPort → TransitPort) (j : Fin 12) : (s.modTPort p f).cluster j = s.cluster j := rfl
@[simp] theorem modTPort_port_other (s : State) (p : Port) (f : TransitPort → TransitPort) (j : Port) : (s.modTPort p f).port j = s.port j := rfl
@[simp] theorem modTPort_stream_other (s : State) (p : Port) (f : TransitPort → TransitPort) (j : Fin 8) : (s.modTPort p f).stream j = s.stream j := rfl
@[simp] theorem modTPort_unit_other (s : State) (p : Port) (f : TransitPort → TransitPort) (j : Fin 182) : (s.modTPort p f).unit j = s.unit j := rfl
@[simp] theorem modTPort_mod_other (s : State) (p : Port) (f : TransitPort → TransitPort) (j : Fin 8) : (s.modTPort p f).mod j = s.mod j := rfl
@[simp] theorem modTPort_blw_other (s : State) (p : Port) (f : TransitPort → TransitPort) (j : Fin 8) : (s.modTPort p f).blw j = s.blw j := rfl
@[simp] theorem modTPort_sensor_other (s : State) (p : Port) (f : TransitPort → TransitPort) (j : Fin 48) : (s.modTPort p f).sensor j = s.sensor j := rfl
@[simp] theorem modStore_eng_other (s : State) (f : Store → Store) (j : Eng) : (s.modStore f).eng j = s.eng j := rfl
@[simp] theorem modStore_lane_other (s : State) (f : Store → Store) (j : LaneNo) : (s.modStore f).lane j = s.lane j := rfl
@[simp] theorem modStore_cluster_other (s : State) (f : Store → Store) (j : Fin 12) : (s.modStore f).cluster j = s.cluster j := rfl
@[simp] theorem modStore_port_other (s : State) (f : Store → Store) (j : Port) : (s.modStore f).port j = s.port j := rfl
@[simp] theorem modStore_stream_other (s : State) (f : Store → Store) (j : Fin 8) : (s.modStore f).stream j = s.stream j := rfl
@[simp] theorem modStore_unit_other (s : State) (f : Store → Store) (j : Fin 182) : (s.modStore f).unit j = s.unit j := rfl
@[simp] theorem modStore_mod_other (s : State) (f : Store → Store) (j : Fin 8) : (s.modStore f).mod j = s.mod j := rfl
@[simp] theorem modStore_blw_other (s : State) (f : Store → Store) (j : Fin 8) : (s.modStore f).blw j = s.blw j := rfl
@[simp] theorem modStore_sensor_other (s : State) (f : Store → Store) (j : Fin 48) : (s.modStore f).sensor j = s.sensor j := rfl
@[simp] theorem modStore_tport_other (s : State) (f : Store → Store) (j : Port) : (s.modStore f).tport j = s.tport j := rfl
@[simp] theorem modTwin_eng_other (s : State) (f : Twin → Twin) (j : Eng) : (s.modTwin f).eng j = s.eng j := rfl
@[simp] theorem modTwin_lane_other (s : State) (f : Twin → Twin) (j : LaneNo) : (s.modTwin f).lane j = s.lane j := rfl
@[simp] theorem modTwin_cluster_other (s : State) (f : Twin → Twin) (j : Fin 12) : (s.modTwin f).cluster j = s.cluster j := rfl
@[simp] theorem modTwin_port_other (s : State) (f : Twin → Twin) (j : Port) : (s.modTwin f).port j = s.port j := rfl
@[simp] theorem modTwin_stream_other (s : State) (f : Twin → Twin) (j : Fin 8) : (s.modTwin f).stream j = s.stream j := rfl
@[simp] theorem modTwin_unit_other (s : State) (f : Twin → Twin) (j : Fin 182) : (s.modTwin f).unit j = s.unit j := rfl
@[simp] theorem modTwin_mod_other (s : State) (f : Twin → Twin) (j : Fin 8) : (s.modTwin f).mod j = s.mod j := rfl
@[simp] theorem modTwin_blw_other (s : State) (f : Twin → Twin) (j : Fin 8) : (s.modTwin f).blw j = s.blw j := rfl
@[simp] theorem modTwin_sensor_other (s : State) (f : Twin → Twin) (j : Fin 48) : (s.modTwin f).sensor j = s.sensor j := rfl
@[simp] theorem modTwin_tport_other (s : State) (f : Twin → Twin) (j : Port) : (s.modTwin f).tport j = s.tport j := rfl
@[simp] theorem modNv_eng_other (s : State) (f : Nv → Nv) (j : Eng) : (s.modNv f).eng j = s.eng j := rfl
@[simp] theorem modNv_lane_other (s : State) (f : Nv → Nv) (j : LaneNo) : (s.modNv f).lane j = s.lane j := rfl
@[simp] theorem modNv_cluster_other (s : State) (f : Nv → Nv) (j : Fin 12) : (s.modNv f).cluster j = s.cluster j := rfl
@[simp] theorem modNv_port_other (s : State) (f : Nv → Nv) (j : Port) : (s.modNv f).port j = s.port j := rfl
@[simp] theorem modNv_stream_other (s : State) (f : Nv → Nv) (j : Fin 8) : (s.modNv f).stream j = s.stream j := rfl
@[simp] theorem modNv_unit_other (s : State) (f : Nv → Nv) (j : Fin 182) : (s.modNv f).unit j = s.unit j := rfl
@[simp] theorem modNv_mod_other (s : State) (f : Nv → Nv) (j : Fin 8) : (s.modNv f).mod j = s.mod j := rfl
@[simp] theorem modNv_blw_other (s : State) (f : Nv → Nv) (j : Fin 8) : (s.modNv f).blw j = s.blw j := rfl
@[simp] theorem modNv_sensor_other (s : State) (f : Nv → Nv) (j : Fin 48) : (s.modNv f).sensor j = s.sensor j := rfl
@[simp] theorem modNv_tport_other (s : State) (f : Nv → Nv) (j : Port) : (s.modNv f).tport j = s.tport j := rfl
@[simp] theorem modSerial_eng_other (s : State) (f : Serial → Serial) (j : Eng) : (s.modSerial f).eng j = s.eng j := rfl
@[simp] theorem modSerial_lane_other (s : State) (f : Serial → Serial) (j : LaneNo) : (s.modSerial f).lane j = s.lane j := rfl
@[simp] theorem modSerial_cluster_other (s : State) (f : Serial → Serial) (j : Fin 12) : (s.modSerial f).cluster j = s.cluster j := rfl
@[simp] theorem modSerial_port_other (s : State) (f : Serial → Serial) (j : Port) : (s.modSerial f).port j = s.port j := rfl
@[simp] theorem modSerial_stream_other (s : State) (f : Serial → Serial) (j : Fin 8) : (s.modSerial f).stream j = s.stream j := rfl
@[simp] theorem modSerial_unit_other (s : State) (f : Serial → Serial) (j : Fin 182) : (s.modSerial f).unit j = s.unit j := rfl
@[simp] theorem modSerial_mod_other (s : State) (f : Serial → Serial) (j : Fin 8) : (s.modSerial f).mod j = s.mod j := rfl
@[simp] theorem modSerial_blw_other (s : State) (f : Serial → Serial) (j : Fin 8) : (s.modSerial f).blw j = s.blw j := rfl
@[simp] theorem modSerial_sensor_other (s : State) (f : Serial → Serial) (j : Fin 48) : (s.modSerial f).sensor j = s.sensor j := rfl
@[simp] theorem modSerial_tport_other (s : State) (f : Serial → Serial) (j : Port) : (s.modSerial f).tport j = s.tport j := rfl
@[simp] theorem modQueue_eng_other (s : State) (f : Queue → Queue) (j : Eng) : (s.modQueue f).eng j = s.eng j := rfl
@[simp] theorem modQueue_lane_other (s : State) (f : Queue → Queue) (j : LaneNo) : (s.modQueue f).lane j = s.lane j := rfl
@[simp] theorem modQueue_cluster_other (s : State) (f : Queue → Queue) (j : Fin 12) : (s.modQueue f).cluster j = s.cluster j := rfl
@[simp] theorem modQueue_port_other (s : State) (f : Queue → Queue) (j : Port) : (s.modQueue f).port j = s.port j := rfl
@[simp] theorem modQueue_stream_other (s : State) (f : Queue → Queue) (j : Fin 8) : (s.modQueue f).stream j = s.stream j := rfl
@[simp] theorem modQueue_unit_other (s : State) (f : Queue → Queue) (j : Fin 182) : (s.modQueue f).unit j = s.unit j := rfl
@[simp] theorem modQueue_mod_other (s : State) (f : Queue → Queue) (j : Fin 8) : (s.modQueue f).mod j = s.mod j := rfl
@[simp] theorem modQueue_blw_other (s : State) (f : Queue → Queue) (j : Fin 8) : (s.modQueue f).blw j = s.blw j := rfl
@[simp] theorem modQueue_sensor_other (s : State) (f : Queue → Queue) (j : Fin 48) : (s.modQueue f).sensor j = s.sensor j := rfl
@[simp] theorem modQueue_tport_other (s : State) (f : Queue → Queue) (j : Port) : (s.modQueue f).tport j = s.tport j := rfl
@[simp] theorem modThermal_eng_other (s : State) (f : Thermal → Thermal) (j : Eng) : (s.modThermal f).eng j = s.eng j := rfl
@[simp] theorem modThermal_lane_other (s : State) (f : Thermal → Thermal) (j : LaneNo) : (s.modThermal f).lane j = s.lane j := rfl
@[simp] theorem modThermal_cluster_other (s : State) (f : Thermal → Thermal) (j : Fin 12) : (s.modThermal f).cluster j = s.cluster j := rfl
@[simp] theorem modThermal_port_other (s : State) (f : Thermal → Thermal) (j : Port) : (s.modThermal f).port j = s.port j := rfl
@[simp] theorem modThermal_stream_other (s : State) (f : Thermal → Thermal) (j : Fin 8) : (s.modThermal f).stream j = s.stream j := rfl
@[simp] theorem modThermal_unit_other (s : State) (f : Thermal → Thermal) (j : Fin 182) : (s.modThermal f).unit j = s.unit j := rfl
@[simp] theorem modThermal_mod_other (s : State) (f : Thermal → Thermal) (j : Fin 8) : (s.modThermal f).mod j = s.mod j := rfl
@[simp] theorem modThermal_blw_other (s : State) (f : Thermal → Thermal) (j : Fin 8) : (s.modThermal f).blw j = s.blw j := rfl
@[simp] theorem modThermal_tport_other (s : State) (f : Thermal → Thermal) (j : Port) : (s.modThermal f).tport j = s.tport j := rfl
@[simp] theorem modParams_eng_other (s : State) (f : Params → Params) (j : Eng) : (s.modParams f).eng j = s.eng j := rfl
@[simp] theorem modParams_lane_other (s : State) (f : Params → Params) (j : LaneNo) : (s.modParams f).lane j = s.lane j := rfl
@[simp] theorem modParams_cluster_other (s : State) (f : Params → Params) (j : Fin 12) : (s.modParams f).cluster j = s.cluster j := rfl
@[simp] theorem modParams_port_other (s : State) (f : Params → Params) (j : Port) : (s.modParams f).port j = s.port j := rfl
@[simp] theorem modParams_stream_other (s : State) (f : Params → Params) (j : Fin 8) : (s.modParams f).stream j = s.stream j := rfl
@[simp] theorem modParams_unit_other (s : State) (f : Params → Params) (j : Fin 182) : (s.modParams f).unit j = s.unit j := rfl
@[simp] theorem modParams_mod_other (s : State) (f : Params → Params) (j : Fin 8) : (s.modParams f).mod j = s.mod j := rfl
@[simp] theorem modParams_blw_other (s : State) (f : Params → Params) (j : Fin 8) : (s.modParams f).blw j = s.blw j := rfl
@[simp] theorem modParams_sensor_other (s : State) (f : Params → Params) (j : Fin 48) : (s.modParams f).sensor j = s.sensor j := rfl
@[simp] theorem modParams_tport_other (s : State) (f : Params → Params) (j : Port) : (s.modParams f).tport j = s.tport j := rfl
@[simp] theorem modClocks_eng_other (s : State) (f : Clocks → Clocks) (j : Eng) : (s.modClocks f).eng j = s.eng j := rfl
@[simp] theorem modClocks_lane_other (s : State) (f : Clocks → Clocks) (j : LaneNo) : (s.modClocks f).lane j = s.lane j := rfl
@[simp] theorem modClocks_cluster_other (s : State) (f : Clocks → Clocks) (j : Fin 12) : (s.modClocks f).cluster j = s.cluster j := rfl
@[simp] theorem modClocks_port_other (s : State) (f : Clocks → Clocks) (j : Port) : (s.modClocks f).port j = s.port j := rfl
@[simp] theorem modClocks_stream_other (s : State) (f : Clocks → Clocks) (j : Fin 8) : (s.modClocks f).stream j = s.stream j := rfl
@[simp] theorem modClocks_unit_other (s : State) (f : Clocks → Clocks) (j : Fin 182) : (s.modClocks f).unit j = s.unit j := rfl
@[simp] theorem modClocks_mod_other (s : State) (f : Clocks → Clocks) (j : Fin 8) : (s.modClocks f).mod j = s.mod j := rfl
@[simp] theorem modClocks_blw_other (s : State) (f : Clocks → Clocks) (j : Fin 8) : (s.modClocks f).blw j = s.blw j := rfl
@[simp] theorem modClocks_sensor_other (s : State) (f : Clocks → Clocks) (j : Fin 48) : (s.modClocks f).sensor j = s.sensor j := rfl
@[simp] theorem modClocks_tport_other (s : State) (f : Clocks → Clocks) (j : Port) : (s.modClocks f).tport j = s.tport j := rfl
@[simp] theorem modEvents_eng_other (s : State) (f : Events → Events) (j : Eng) : (s.modEvents f).eng j = s.eng j := rfl
@[simp] theorem modEvents_lane_other (s : State) (f : Events → Events) (j : LaneNo) : (s.modEvents f).lane j = s.lane j := rfl
@[simp] theorem modEvents_cluster_other (s : State) (f : Events → Events) (j : Fin 12) : (s.modEvents f).cluster j = s.cluster j := rfl
@[simp] theorem modEvents_port_other (s : State) (f : Events → Events) (j : Port) : (s.modEvents f).port j = s.port j := rfl
@[simp] theorem modEvents_stream_other (s : State) (f : Events → Events) (j : Fin 8) : (s.modEvents f).stream j = s.stream j := rfl
@[simp] theorem modEvents_unit_other (s : State) (f : Events → Events) (j : Fin 182) : (s.modEvents f).unit j = s.unit j := rfl
@[simp] theorem modEvents_mod_other (s : State) (f : Events → Events) (j : Fin 8) : (s.modEvents f).mod j = s.mod j := rfl
@[simp] theorem modEvents_blw_other (s : State) (f : Events → Events) (j : Fin 8) : (s.modEvents f).blw j = s.blw j := rfl
@[simp] theorem modEvents_sensor_other (s : State) (f : Events → Events) (j : Fin 48) : (s.modEvents f).sensor j = s.sensor j := rfl
@[simp] theorem modEvents_tport_other (s : State) (f : Events → Events) (j : Port) : (s.modEvents f).tport j = s.tport j := rfl
@[simp] theorem modBoot_eng_other (s : State) (f : Boot → Boot) (j : Eng) : (s.modBoot f).eng j = s.eng j := rfl
@[simp] theorem modBoot_lane_other (s : State) (f : Boot → Boot) (j : LaneNo) : (s.modBoot f).lane j = s.lane j := rfl
@[simp] theorem modBoot_cluster_other (s : State) (f : Boot → Boot) (j : Fin 12) : (s.modBoot f).cluster j = s.cluster j := rfl
@[simp] theorem modBoot_port_other (s : State) (f : Boot → Boot) (j : Port) : (s.modBoot f).port j = s.port j := rfl
@[simp] theorem modBoot_stream_other (s : State) (f : Boot → Boot) (j : Fin 8) : (s.modBoot f).stream j = s.stream j := rfl
@[simp] theorem modBoot_unit_other (s : State) (f : Boot → Boot) (j : Fin 182) : (s.modBoot f).unit j = s.unit j := rfl
@[simp] theorem modBoot_mod_other (s : State) (f : Boot → Boot) (j : Fin 8) : (s.modBoot f).mod j = s.mod j := rfl
@[simp] theorem modBoot_blw_other (s : State) (f : Boot → Boot) (j : Fin 8) : (s.modBoot f).blw j = s.blw j := rfl
@[simp] theorem modBoot_sensor_other (s : State) (f : Boot → Boot) (j : Fin 48) : (s.modBoot f).sensor j = s.sensor j := rfl
@[simp] theorem modBoot_tport_other (s : State) (f : Boot → Boot) (j : Port) : (s.modBoot f).tport j = s.tport j := rfl

end Sys2Proof.Machine
end

