-- ==== Sys2Proof/Laws/Events.lean ====
section
/-! SUPPORT. What an occurrence of a source does and leaves (R473–R476): it changes the event matrix, the counters and the trace, and of
an engine the wait latches alone. -/
namespace Sys2Proof.Machine

/-! ### Fixed tables -/

theorem get_set {α : Type} {n : Nat} (v : Vector α n) (i : Fin n) (x : α) : (v.set i x).get i = x := by
  show (v.set i.val x i.isLt)[i.val] = x
  simp

theorem get_set_ne {α : Type} {n : Nat} (v : Vector α n) (i j : Fin n) (x : α) (h : j ≠ i) : (v.set i x).get j = v.get j := by
  show (v.set i.val x i.isLt)[j.val] = v[j.val]
  rw [Vector.getElem_set_ne]
  exact fun e => h (Fin.ext e.symm)

theorem vec_ext {α : Type} {n : Nat} {v w : Vector α n} (h : ∀ i : Fin n, v.get i = w.get i) : v = w := by
  ext i hi
  exact h ⟨i, hi⟩

theorem foldl_upd_get {α : Type} {n : Nat} (f : Fin n → α → α) (l : List (Fin n)) (v : Vector α n) (i : Fin n) (hl : l.Nodup) :
    (l.foldl (fun v i => upd v i (f i)) v).get i = if i ∈ l then f i (v.get i) else v.get i := by
  induction l generalizing v with
  | nil => simp
  | cons a r ih =>
    obtain ⟨ha, hr⟩ := List.nodup_cons.mp hl
    rw [List.foldl_cons, ih _ hr]
    by_cases h : i = a
    · subst h
      simp [ha, upd_get]
    · simp [h, upd_get_ne _ _ _ _ h]

@[simp] theorem updAll_get {α : Type} {n : Nat} (v : Vector α n) (f : Fin n → α → α) (i : Fin n) :
    (updAll v f).get i = f i (v.get i) := by
  unfold updAll allFin
  rw [foldl_upd_get f _ v i (List.nodup_finRange n)]
  simp

/-! ### Latches -/

/-- One route's effect on an engine. -/
def latchRoute (src : Nat) (en : Engine) (r : Route) : Engine :=
  if r.on && r.src.val == src then
    { en with ctxs := upd en.ctxs r.ctx fun c => { c with latches := c.latches ||| (1 <<< r.input.val : W) } }
  else en

theorem latchRoute_eq (src : Nat) (en : Engine) (r : Route) :
    latchRoute src en r = { en with ctxs := (latchRoute src en r).ctxs } := by
  unfold latchRoute
  split <;> rfl

theorem latchRoute_ctx (src : Nat) (en : Engine) (r : Route) (c : Fin 4) : (latchRoute src en r).ctxs.get c =
    { en.ctxs.get c with latches := ((latchRoute src en r).ctxs.get c).latches } := by
  unfold latchRoute
  split
  · by_cases h : c = r.ctx
    · subst h; simp [upd_get]
    · simp [upd_get_ne _ _ _ _ h]
  · rfl

theorem latchList_eq (src : Nat) (l : List Route) (en : Engine) :
    l.foldl (latchRoute src) en = { en with ctxs := (l.foldl (latchRoute src) en).ctxs } := by
  induction l generalizing en with
  | nil => rfl
  | cons r l ih =>
    rw [List.foldl_cons, ih, latchRoute_eq]

theorem latchList_ctx (src : Nat) (l : List Route) (en : Engine) (c : Fin 4) : (l.foldl (latchRoute src) en).ctxs.get c =
    { en.ctxs.get c with latches := ((l.foldl (latchRoute src) en).ctxs.get c).latches } := by
  induction l generalizing en with
  | nil => rfl
  | cons r l ih =>
    rw [List.foldl_cons, ih, latchRoute_ctx]

theorem latchRoutes_eq (src : Nat) (en : Engine) : latchRoutes src en = { en with ctxs := (latchRoutes src en).ctxs } :=
  latchList_eq src en.routes en

theorem latchRoutes_ctx (src : Nat) (en : Engine) (c : Fin 4) : (latchRoutes src en).ctxs.get c =
    { en.ctxs.get c with latches := ((latchRoutes src en).ctxs.get c).latches } :=
  latchList_ctx src en.routes en c

/-! ### Trace packets -/

theorem trace_eq (s : State) (ty src : Nat) (body : List Byte) : s.trace ty src body =
    { s with events := (s.trace ty src body).events, freeCtr := (s.trace ty src body).freeCtr } := by
  unfold State.trace
  split
  · dsimp only
    split <;> rfl
  · rfl

theorem traceFlow_eq (s : State) (e : Eng) (c : Fin 4) (r : Nat) (t : W) (k : List Byte) : s.traceFlow e c r t k =
    { s with events := (s.traceFlow e c r t k).events, freeCtr := (s.traceFlow e c r t k).freeCtr } := by
  unfold State.traceFlow
  split
  · exact trace_eq _ _ _ _
  · rfl

@[simp] theorem traceFlow_engines (s : State) (e : Eng) (c : Fin 4) (r : Nat) (t : W) (k : List Byte) :
    (s.traceFlow e c r t k).engines = s.engines := by rw [traceFlow_eq]

/-! ### Occurrences -/

/-- `t` is `s` but for the events and the free counter. -/
def OnlyEvents (s t : State) : Prop := ∃ ev fc, t = { s with events := ev, freeCtr := fc }

theorem OnlyEvents.refl (s : State) : OnlyEvents s s := ⟨s.events, s.freeCtr, rfl⟩

theorem OnlyEvents.ite {p : Prop} [Decidable p] {s a b : State} (ha : OnlyEvents s a) (hb : OnlyEvents s b) :
    OnlyEvents s (if p then a else b) := by
  split
  · exact ha
  · exact hb

theorem OnlyEvents.modEvents {s t : State} (f : Events → Events) (h : OnlyEvents s t) : OnlyEvents s (t.modEvents f) := by
  obtain ⟨ev, fc, rfl⟩ := h
  exact ⟨f ev, fc, rfl⟩

theorem OnlyEvents.count {s t : State} (i n : Nat) (h : OnlyEvents s t) : OnlyEvents s (t.count i n) := h.modEvents _

theorem OnlyEvents.trace {s t : State} (ty src : Nat) (body : List Byte) (h : OnlyEvents s t) :
    OnlyEvents s (t.trace ty src body) := by
  obtain ⟨ev, fc, rfl⟩ := h
  rw [trace_eq]
  exact ⟨_, _, rfl⟩

/-- An occurrence touches nothing but the events, the engines' latches and the free counter. -/
theorem occur_eq (s : State) (n : Nat) : ∃ ev fc, s.occur n =
    { s with events := ev, freeCtr := fc
             engines := if n / 32 < 48 then updAll s.engines fun _ en => latchRoutes n en else s.engines } := by
  by_cases h : n / 32 < 48
  · have close (X : State) (hX : OnlyEvents s X) : ∃ ev fc, { X with engines := updAll X.engines fun _ en => latchRoutes n en } =
        { s with events := ev, freeCtr := fc
                 engines := if n / 32 < 48 then updAll s.engines fun _ en => latchRoutes n en else s.engines } := by
      obtain ⟨ev, fc, rfl⟩ := hX
      exact ⟨ev, fc, by rw [if_pos h]⟩
    unfold State.occur
    rw [dif_pos h]
    apply close
    refine OnlyEvents.ite (OnlyEvents.trace _ _ _ ?_) ?_ <;>
    exact OnlyEvents.ite (OnlyEvents.count _ _ (OnlyEvents.count _ _ (OnlyEvents.modEvents _ (OnlyEvents.refl s))))
      (OnlyEvents.count _ _ (OnlyEvents.modEvents _ (OnlyEvents.refl s)))
  · unfold State.occur
    rw [dif_neg h, if_neg h]
    exact ⟨s.events, s.freeCtr, rfl⟩

theorem occur_frame (s : State) (n : Nat) : s.occur n =
    { s with events := (s.occur n).events, freeCtr := (s.occur n).freeCtr, engines := (s.occur n).engines } := by
  obtain ⟨ev, fc, h⟩ := occur_eq s n
  rw [h]

theorem occur_eng (s : State) (n : Nat) (e : Eng) : (s.occur n).eng e = { s.eng e with ctxs := ((s.occur n).eng e).ctxs } := by
  obtain ⟨ev, fc, h⟩ := occur_eq s n
  rw [h]
  unfold State.eng
  dsimp only
  split
  · rw [updAll_get]
    exact latchRoutes_eq _ _
  · rfl

theorem occur_ctx (s : State) (n : Nat) (e : Eng) (c : Fin 4) : ((s.occur n).eng e).ctxs.get c =
    { (s.eng e).ctxs.get c with latches := (((s.occur n).eng e).ctxs.get c).latches } := by
  obtain ⟨ev, fc, h⟩ := occur_eq s n
  rw [h]
  unfold State.eng
  dsimp only
  split
  · rw [updAll_get]
    exact latchRoutes_ctx _ _ _
  · rfl

end Sys2Proof.Machine
end

