-- ==== Sys2Proof/Laws/Memory.lean ====
section
/-! SUPPORT. The byte memories: read after write, and the canonical form that every operation keeps. -/
namespace Sys2Proof.Machine

theorem Mem.above_mono {m : Mem} {a b : Nat} (h : Mem.above b m = true) (hab : a ≤ b) : Mem.above a m = true := by
  cases m with
  | nil => rfl
  | cons e r =>
    obtain ⟨k, x⟩ := e
    simp only [Mem.above, Bool.and_eq_true, decide_eq_true_eq] at *
    exact ⟨⟨by omega, h.1.2⟩, h.2⟩

theorem Mem.wf_of_above {m : Mem} {a : Nat} (h : Mem.above a m = true) : Mem.wf m = true := by
  cases m with
  | nil => rfl
  | cons e r => simp_all [Mem.above, Mem.wf]

theorem Mem.get_above {m : Mem} {lo a : Nat} (h : Mem.above lo m = true) (ha : a ≤ lo) : Mem.get m a = 0 := by
  cases m with
  | nil => rfl
  | cons e r =>
    obtain ⟨k, x⟩ := e
    simp [Mem.above] at h
    simp [Mem.get, show a ≠ k by omega, show a < k by omega]

theorem Mem.set_above {m : Mem} {lo a : Nat} (b : Byte) (h : Mem.above lo m = true) (ha : lo < a) :
    Mem.above lo (Mem.set m a b) = true := by
  induction m generalizing lo with
  | nil =>
    simp only [Mem.set]
    split
    · rfl
    · simp_all [Mem.above]
  | cons e r ih =>
    obtain ⟨k, x⟩ := e
    simp only [Mem.above, Bool.and_eq_true, decide_eq_true_eq] at h
    simp only [Mem.set]
    split
    · split
      · exact Mem.above_mono h.2 (by omega)
      · simp_all [Mem.above]
    · split
      · split
        · simp_all [Mem.above]
        · simp_all [Mem.above]
      · simp only [Mem.above, Bool.and_eq_true, decide_eq_true_eq]
        exact ⟨h.1, ih h.2 (by omega)⟩

/-- A byte write keeps the canonical form. -/
theorem Mem.set_wf {m : Mem} (a : Nat) (b : Byte) (h : m.wf = true) : (Mem.set m a b).wf = true := by
  cases m with
  | nil =>
    simp only [Mem.set]
    split
    · rfl
    · simp_all [Mem.wf, Mem.above]
  | cons e r =>
    obtain ⟨k, x⟩ := e
    simp only [Mem.wf, Bool.and_eq_true, decide_eq_true_eq] at h
    simp only [Mem.set]
    split
    · split
      · exact Mem.wf_of_above h.2
      · simp_all [Mem.wf]
    · split
      · split
        · simp_all [Mem.wf]
        · simp_all [Mem.wf, Mem.above]
      · simp only [Mem.wf, Bool.and_eq_true, decide_eq_true_eq]
        exact ⟨h.1, Mem.set_above b h.2 (by omega)⟩

/-- A write of bytes keeps the canonical form. -/
theorem Mem.write_wf {m : Mem} (a : Nat) (bs : List Byte) (h : m.wf = true) : (Mem.write m a bs).wf = true := by
  induction bs generalizing m a with
  | nil => exact h
  | cons b r ih => exact ih (a + 1) (Mem.set_wf a b h)

/-- A write of a word keeps the canonical form. -/
theorem Mem.setWord_wf {m : Mem} (a : Nat) (w : W) (h : m.wf = true) : (Mem.setWord m a w).wf = true := Mem.write_wf _ _ h

theorem Mem.filter_above {m : Mem} {lo : Nat} (f : Nat × Byte → Bool) (h : Mem.above lo m = true) :
    Mem.above lo (m.filter f) = true := by
  induction m generalizing lo with
  | nil => rfl
  | cons e r ih =>
    obtain ⟨k, x⟩ := e
    simp only [Mem.above, Bool.and_eq_true, decide_eq_true_eq] at h
    simp only [List.filter_cons]
    split
    · simp only [Mem.above, Bool.and_eq_true, decide_eq_true_eq]
      exact ⟨h.1, ih h.2⟩
    · exact Mem.above_mono (ih h.2) (by omega)

/-- Taking entries out keeps the canonical form. -/
theorem Mem.filter_wf {m : Mem} (f : Nat × Byte → Bool) (h : m.wf = true) : Mem.wf (m.filter f) = true := by
  cases m with
  | nil => rfl
  | cons e r =>
    obtain ⟨k, x⟩ := e
    simp only [Mem.wf, Bool.and_eq_true, decide_eq_true_eq] at h
    simp only [List.filter_cons]
    split
    · simp only [Mem.wf, Bool.and_eq_true, decide_eq_true_eq]
      exact ⟨h.1, Mem.filter_above f h.2⟩
    · exact Mem.wf_of_above (Mem.filter_above f h.2)

theorem Mem.clear_wf {m : Mem} (a n : Nat) (h : m.wf = true) : (Mem.clear m a n).wf = true := Mem.filter_wf _ h

theorem Mem.get_set_of_above {m : Mem} {lo a : Nat} (b : Byte) (h : Mem.above lo m = true) : Mem.get (Mem.set m a b) a = b := by
  induction m generalizing lo with
  | nil =>
    simp only [Mem.set]
    split <;> simp_all [Mem.get]
  | cons e r ih =>
    obtain ⟨k, x⟩ := e
    simp only [Mem.above, Bool.and_eq_true, decide_eq_true_eq] at h
    simp only [Mem.set]
    split
    · split
      · rename_i hk hb
        subst hk
        rw [hb]
        exact Mem.get_above h.2 (Nat.le_refl _)
      · simp [Mem.get]
    · split
      · split
        · rename_i h1 h2 hb
          simp [Mem.get, h1, h2, hb]
        · simp [Mem.get]
      · rename_i h1 h2
        simp only [Mem.get, h1, h2, if_false]
        exact ih h.2

/-- A byte reads back as written. -/
theorem Mem.get_set {m : Mem} (a : Nat) (b : Byte) (h : m.wf = true) : Mem.get (Mem.set m a b) a = b := by
  cases m with
  | nil =>
    simp only [Mem.set]
    split <;> simp_all [Mem.get]
  | cons e r =>
    obtain ⟨k, x⟩ := e
    simp only [Mem.wf, Bool.and_eq_true, decide_eq_true_eq] at h
    by_cases hk : k = 0
    · subst hk
      simp only [Mem.set]
      split
      · split
        · rename_i ha hb
          subst ha
          rw [hb]
          exact Mem.get_above h.2 (Nat.le_refl _)
        · simp [Mem.get]
      · rename_i h1
        simp only [Nat.not_lt_zero, if_false, Mem.get, h1]
        exact Mem.get_set_of_above b h.2
    · exact Mem.get_set_of_above (lo := k - 1) b (by
        simp only [Mem.above, Bool.and_eq_true, decide_eq_true_eq]
        exact ⟨⟨by omega, h.1⟩, h.2⟩)

theorem Mem.get_set_ne_above {m : Mem} {lo a c : Nat} (b : Byte) (h : Mem.above lo m = true) (hc : c ≠ a) :
    Mem.get (Mem.set m a b) c = Mem.get m c := by
  induction m generalizing lo with
  | nil =>
    simp only [Mem.set]
    split <;> simp_all [Mem.get]
  | cons e r ih =>
    obtain ⟨k, x⟩ := e
    simp only [Mem.above, Bool.and_eq_true, decide_eq_true_eq] at h
    simp only [Mem.set]
    split
    · rename_i hk
      subst hk
      split
      · by_cases h2 : c < a
        · simp [Mem.get, hc, h2, Mem.get_above h.2 (Nat.le_of_lt h2)]
        · simp [Mem.get, hc, h2]
      · simp [Mem.get, hc]
    · split
      · split
        · rfl
        · rename_i h1 h2 hb
          by_cases h3 : c < a
          · simp [Mem.get, hc, h3, show c ≠ k by omega, show c < k by omega]
          · simp [Mem.get, hc, h3]
      · simp only [Mem.get]
        split
        · rfl
        · split
          · rfl
          · exact ih h.2

/-- A byte write leaves every other byte. -/
theorem Mem.get_set_ne {m : Mem} {a c : Nat} (b : Byte) (h : m.wf = true) (hc : c ≠ a) :
    Mem.get (Mem.set m a b) c = Mem.get m c := by
  cases m with
  | nil =>
    simp only [Mem.set]
    split <;> simp_all [Mem.get]
  | cons e r =>
    obtain ⟨k, x⟩ := e
    simp only [Mem.wf, Bool.and_eq_true, decide_eq_true_eq] at h
    by_cases hk : k = 0
    · subst hk
      simp only [Mem.set]
      split
      · rename_i ha
        subst ha
        split <;> simp [Mem.get, hc]
      · simp only [Nat.not_lt_zero, if_false, Mem.get]
        split
        · rfl
        · exact Mem.get_set_ne_above b h.2 hc
    · exact Mem.get_set_ne_above (lo := k - 1) b (by
        simp only [Mem.above, Bool.and_eq_true, decide_eq_true_eq]
        exact ⟨⟨by omega, h.1⟩, h.2⟩) hc

/-- A write of bytes leaves every byte below its range and above it. -/
theorem Mem.get_write_out {m : Mem} {a c : Nat} (bs : List Byte) (h : m.wf = true) (hc : c < a ∨ a + bs.length ≤ c) :
    Mem.get (Mem.write m a bs) c = Mem.get m c := by
  induction bs generalizing m a with
  | nil => rfl
  | cons b r ih =>
    simp only [List.length_cons] at hc
    simp only [Mem.write]
    rw [ih (Mem.set_wf a b h) (by omega), Mem.get_set_ne b h (by omega)]

/-- A byte of a written range reads back as written. -/
theorem Mem.get_write_in {m : Mem} {a i : Nat} (bs : List Byte) (h : m.wf = true) (hi : i < bs.length) :
    Mem.get (Mem.write m a bs) (a + i) = bs[i] := by
  induction bs generalizing m a i with
  | nil => simp at hi
  | cons b r ih =>
    simp only [Mem.write]
    cases i with
    | zero =>
      rw [Mem.get_write_out r (Mem.set_wf a b h) (by omega)]
      exact Mem.get_set a b h
    | succ j =>
      have := ih (m := Mem.set m a b) (a := a + 1) (i := j) (Mem.set_wf a b h) (by simpa using hi)
      rw [show a + (j + 1) = a + 1 + j by omega, this]; rfl

end Sys2Proof.Machine
end

