-- ==== Sys2Proof/Tests/Slice0.lean ====
section
/-! SUPPORT. The model's own tests: ill-formed commands are refused, the hypotheses of every statement can be met, and single steps of
small states against the spec's own tables and examples. -/
namespace Sys2Proof.Tests
open Sys2Proof.Machine
set_option Elab.async false

/-! ### Small states -/

def rs : State := State.reset
/-- Engine `e` in state 1, changed by `f`. -/
def sE (e : Eng) (f : Engine → Engine) : State := rs.modEng e fun x => f { x with st := 1 }
/-- Lane `l` of a clocked cluster in an invocation, its context changed by `f`. -/
def sL (l : LaneNo) (f : Ctx → Ctx) : State :=
  (rs.modCluster (clusterOf l) fun k => { k with mhz := 1000 }).modLane l fun x =>
    { x with invoc := some ⟨0, false, 0, 0, [], [], [], x.ctx, x.v, x.p⟩, ctx := f x.ctx }
/-- The running context of an engine, changed. -/
def onCtx (f : Ctx → Ctx) (x : Engine) : Engine := { x with ctxs := upd x.ctxs 0 f }
/-- A device that has booted and takes frames of the host port. -/
def sUp : State := rs.modBoot fun b => { b with step := 3, boot := true, ready := true, complete := true }
def zE (e : Eng) : Zx := ⟨.eng e, .none⟩
def zL (l : LaneNo) : Zx := ⟨.lane l, .none⟩
/-- A parameter in force. -/
def withF (s : State) (b f : Nat) (w : W) : State := s.modParams fun q => { q with force := insertN q.force (b * 256 + f) w }
/-- Port `p` runs, and a frame is open. -/
def running (s : State) (p : Port) : State := (s.modPort p fun x => { x with st := .running }).openFrame p

/-! ### What the hypotheses of the statements are met by: the block and the instructions -/

theorem wit_StepRunsTheFrontCommand : (rs.pending = []) ∧ step rs = .next rs := ⟨rfl, rfl⟩
theorem wit_EveryStepLeavesTheRestOfTheQueue :
    ({ rs with pending := [.flush, .go] } : State).pending = .flush :: [.go] := rfl
theorem wit_StepKeepsMemoriesCanonical : rs.memsOk ∧ step rs = .next rs := by
  refine ⟨⟨rfl, rfl, rfl, ?_, ?_, ?_⟩, rfl⟩ <;> decide +kernel

theorem wit_FetchTrapsComeFirst :
    (let s := sE 0 (onCtx fun c => { c with pc := 0xFFFFFFF0 })
     zxOfInstr (.post (zE 0) 0) = some (zE 0) ∧ s.runs (zE 0).agent = true ∧ fetchOut (zE 0).agent (s.ctxOf (zE 0).agent).pc = true) ∧
    (let s := sE 0 fun x => { x with progBad := [0] }
     s.runs (zE 0).agent = true ∧ fetchOut (zE 0).agent (s.ctxOf (zE 0).agent).pc = false ∧
       (s.fetchErr (zE 0).agent (s.ctxOf (zE 0).agent).pc).1 = true) ∧
    (let z : Zx := ⟨.lane 0, .reserved⟩
     let s := sL 0 id
     zxOfInstr (.post z 0) = some z ∧ s.runs z.agent = true ∧ fetchOut z.agent (s.ctxOf z.agent).pc = false ∧
       (s.fetchErr z.agent (s.ctxOf z.agent).pc).1 = false ∧ z.flaw = .reserved) ∧
    (let z : Zx := ⟨.eng 0, .service⟩
     let s := sE 0 id
     zxOfInstr (.svcStartTransit z 0 0) = some z ∧ s.runs z.agent = true ∧ fetchOut z.agent (s.ctxOf z.agent).pc = false ∧
       (s.fetchErr z.agent (s.ctxOf z.agent).pc).1 = false) := by decide +kernel
theorem wit_EncodingsRoundTrip : zxOfInstr (.post (zE 0) 5) = some (zE 0) ∧ (zE 0).flaw = .none ∧
    (zxOfInstr (zxDecode (.eng 0) 0)).isSome = true := by
  decide

/-- An engine and a lane that may execute (R44–R53, R71–R74). -/
theorem wit_mayExecute : (sE 0 id).mayExecute (zE 0) ∧ (sE 5 id).mayExecute (zE 5) ∧ (sL 95 id).mayExecute (zL 95) := by
  unfold State.mayExecute; decide +kernel
theorem wit_EngineExceptionCaptures :
    let s := sE 1 (onCtx fun c => c.put 3 6)
    s.mayExecute (zE 1) ∧ ((s.cx (zE 1)).get 3).toNat % 4 ≠ 0 := by unfold State.mayExecute; decide +kernel
theorem wit_RegisterZeroIsHardWired : (3 : Reg) ≠ 0 ∧ (4 : Reg) ≠ 3 := by decide
theorem wit_LogicProductsLimitsAndImmediates : (14 : BitVec 4) ≠ 15 ∧ (15 : BitVec 4) = 15 := by decide
theorem wit_ControlTransfersAndLoops :
    (let s := sE 0 (onCtx fun c => (c.put 1 8).put 2 1)
     s.mayExecute (zE 0) ∧ (s.cx (zE 0)).cond 14 = true ∧ (s.cx (zE 0)).cond 0 = false ∧ ((s.cx (zE 0)).get 1).toNat % 4 = 0 ∧
       (s.cx (zE 0)).loops.length < 2 ∧ (s.cx (zE 0)).get 2 ≠ 0 ∧ (s.cx (zE 0)).get 0 = 0) ∧
    (let s := sE 0 (onCtx fun c => { c with loops := [⟨4, 8, 1⟩, ⟨4, 12, 2⟩], pc := 8 })
     s.mayExecute (zE 0) ∧ 2 ≤ (s.cx (zE 0)).loops.length) ∧
    (let c : Ctx := { Ctx.zero with pc := 8, loops := [⟨4, 8, 1⟩] }
     c.loops = ⟨4, 8, 1⟩ :: [] ∧ c.pc = 8 ∧ (1 : W).toNat = 1) ∧
    (let c : Ctx := { Ctx.zero with pc := 8, loops := [⟨4, 8, 2⟩] }
     c.loops = ⟨4, 8, 2⟩ :: [] ∧ (2 : W).toNat ≠ 1 ∧ (4 : W) ≠ 8) := by
  unfold State.mayExecute; decide +kernel
theorem wit_accesses :
    (let s := sE 0 (onCtx fun c => c.put 1 0x7FFC)
     s.mayExecute (zE 0) ∧ s.accessOk (zE 0) ((s.cx (zE 0)).get 1 + (0 : BitVec 18).signExtend 32) 4 false (.data 0x7FFC)) ∧
    (let s := sL 0 (fun c => c.put 1 0x10000)
     s.mayExecute (zL 0) ∧ s.accessOk (zL 0) ((s.cx (zL 0)).get 1 + (1 : BitVec 18).signExtend 32) 1 true (.tile 1) ∧
       s.accessOk (zL 0) ((s.cx (zL 0)).get 1 + (2 : BitVec 18).signExtend 32) 2 true (.tile 2)) := by
  unfold State.mayExecute State.accessOk; decide +kernel
theorem wit_AddSubtractCompareWithFlags : (sE 0 id).mayExecute (zE 0) := wit_mayExecute.1
theorem wit_ConditionsOrderTheOperands : (sE 5 id).mayExecute (zE 5) := wit_mayExecute.2.1
theorem wit_ShiftsAndTheirCarry : (sL 95 id).mayExecute (zL 95) := wit_mayExecute.2.2
theorem wit_ConditionCodes : (sE 0 id).mayExecute (zE 0) := wit_mayExecute.1
theorem wit_LoadsReadLittleEndian :
    let s := sL 0 (fun c => c.put 1 0x10000)
    s.mayExecute (zL 0) ∧ s.accessOk (zL 0) ((s.cx (zL 0)).get 1 + (4 : BitVec 18).signExtend 32) 4 false (.tile 4) ∧
      s.accessOk (zL 0) ((s.cx (zL 0)).get 1 + (1 : BitVec 18).signExtend 32) 1 false (.tile 1) ∧
      s.accessOk (zL 0) ((s.cx (zL 0)).get 1 + (2 : BitVec 18).signExtend 32) 2 false (.tile 2) := by
  unfold State.mayExecute State.accessOk; decide +kernel
theorem wit_StoresWriteTheirBytesOnly :
    let s := sL 0 (fun c => c.put 1 0x10000)
    s.memsOk ∧ s.mayExecute (zL 0) ∧
      s.accessOk (zL 0) ((s.cx (zL 0)).get 1 + (4 : BitVec 18).signExtend 32) 4 true (.tile 4) ∧
      s.accessOk (zL 0) ((s.cx (zL 0)).get 1 + (2 : BitVec 18).signExtend 32) 2 false (.tile 2) ∧
      s.accessOk (zL 0) ((s.cx (zL 0)).get 1 + (1 : BitVec 18).signExtend 32) 1 false (.tile 1) := by
  refine ⟨⟨rfl, rfl, rfl, ?_, ?_, ?_⟩, ?_⟩
  · decide +kernel
  · decide +kernel
  · decide +kernel
  · unfold State.mayExecute State.accessOk; decide +kernel
theorem wit_AccessesTrapOrWait :
    (let s := sE 0 (onCtx fun c => c.put 1 3)
     s.mayExecute (zE 0) ∧ ((s.cx (zE 0)).get 1 + (0 : BitVec 18).signExtend 32).toNat % 4 ≠ 0 ∧
       ((s.cx (zE 0)).get 1 + (0 : BitVec 18).signExtend 32).toNat % 2 ≠ 0) ∧
    (let s := sE 0 (onCtx fun c => c.put 1 0xFFFF0000)
     s.mayExecute (zE 0) ∧ ∀ n, n = 1 ∨ n = 2 ∨ n = 4 → ((s.cx (zE 0)).get 1 + (0 : BitVec 18).signExtend 32).toNat % n = 0 ∧
       placeAt (zE 0).agent ((s.cx (zE 0)).get 1 + (0 : BitVec 18).signExtend 32).toNat n = none) ∧
    (let s := sE 0 (onCtx fun c => { c with tags := c.tags.set 0 (some (xferOf true 0 0x1000000)) })
     s.mayExecute (zE 0) ∧ ∀ n, n = 1 ∨ n = 2 ∨ n = 4 → placeAt (zE 0).agent 0 n = some (.data 0) ∧
       (s.fetched (zE 0)).stalls (zE 0).agent (.data 0) n = true) := by
  simp only [forall_eq_or_imp, forall_eq]
  unfold State.mayExecute; decide +kernel
theorem wit_ParametersAreStagedAndCommitted :
    (sE 1 id).mayExecute (zE 1) ∧ fieldExists 0x100 0 = true ∧ fieldExists 0x3FD 255 = false ∧
      (∃ v, fieldInfo 0x100 0 = some v) ∧ (∃ v, fieldInfo 0x000 0 = some v ∧ fieldWritable 0x000 0 1 = false) := by
  unfold State.mayExecute; refine ⟨by decide +kernel, by decide +kernel, by decide +kernel, ⟨_, rfl⟩, ⟨_, rfl, by decide +kernel⟩⟩

theorem wit_Commit :
    (let s := running (sE 0 id) 1
     s.mayExecute (zE 0) ∧ blkWritable 0x080 0 = true ∧ blkClass 0x080 = .p ∧ blkPort 0x080 = some 1 ∧
       ((s.fetched (zE 0)).port 1).st = .running) ∧ blkWritable 0x3FE 0 = false ∧ fieldWritable 0x040 0 1 = true ∧
    (fieldInfo 0x040 0).isSome = true := by
  unfold State.mayExecute; decide +kernel
theorem wit_WaitsAndYields :
    (let s := sE 0 (onCtx fun c => { (c.put 1 4) with latches := 4 })
     s.mayExecute (zE 0) ∧ (s.cx (zE 0)).get 1 = 4 ∧ (s.cx (zE 0)).latches &&& 4 ≠ 0) ∧
    (let s := sE 0 (onCtx fun c => c.put 1 4)
     s.mayExecute (zE 0) ∧ (s.cx (zE 0)).get 1 = 4 ∧ (s.cx (zE 0)).latches &&& 4 = 0 ∧ (s.cx (zE 0)).get 0 = 0) ∧
    (let s := sE 0 (onCtx fun c => { c with latches := 6, block := .wait 4 1 })
     s.live (.eng 0) = true ∧ ((s.eng 0).ctxs.get 0).block = .wait 4 1 ∧ ((s.eng 0).ctxs.get 0).latches &&& 4 ≠ 0) ∧
    (let s := sL 0 (fun c => c.put 1 0x80000000)
     s.mayExecute (zL 0) ∧ (s.cx (zL 0)).get 1 = 0x80000000 ∧ fld (0x80000000 : W) 27 0 = 0 ∧
       ∀ k : Fin 4, bitOf (0x80000000 : W) (28 + k.val) = true → (s.cx (zL 0)).tags.get k = none) ∧
    (let s := sL 0 (fun c => { c with block := .wait 0x80000000 1 })
     s.live (.lane 0) = true ∧ (s.lane 0).ctx.block = .wait 0x80000000 1) ∧
    (((sE 0 id).fetched (zE 0)).port (((sE 0 id).fetched (zE 0)).merPort 3)).st ≠ .running ∧
    (let s := running (sE 0 id) 3
     s.mayExecute (zE 0) ∧ ((s.fetched (zE 0)).port ((s.fetched (zE 0)).merPort 3)).st = .running) ∧
    (let s := sE 0 (onCtx fun c => { c with block := .mer 3 1, merGot := some 7 })
     s.live (.eng 0) = true ∧ ((s.eng 0).ctxs.get 0).block = .mer 3 1 ∧ ((s.eng 0).ctxs.get 0).merGot = some 7) ∧
    (let en := ((sE 5 id).stepCtx (zE 5) id).eng 5
     (1 : Fin 4).val < nCtx 0 ∧ (0 : Fin 4).val < nCtx 5 ∧ (en.ctxs.get 0).block = .ready) ∧
    (∀ st : BitVec 4, st = 0 ∨ st = 3 →
      let s := (sL 3 id).modUnit (uLane 3) fun x => { x with st := st }
      let t := s.stepCtx (zL 3) id
      s.mayExecute (zL 3) ∧ ∃ v, (t.lane 3).invoc = some v ∧
        ((((t.writeBack 3 v).modLane 3 fun x => { x with invoc := none }).count 99 1).unit (uLane 3)).st = st) := by
  refine ⟨?_, ?_, ?_, ?_, ?_, ?_, ?_, ?_, ?_, ?_⟩
  all_goals first
    | (unfold State.mayExecute; decide +kernel)
    | decide +kernel
theorem wit_MessagesGoInOrder :
    (sendCause 0 1 0 = none ∧ sendCause 5 6 0 = none ∧ (sE 5 id).linkUp = false ∧ ((sE 0 id).fetched (zE 0)).outstanding 0 < 16 ∧
      sendCause 0 0 12 = some 4) ∧
    (let s := sE 0 (onCtx fun c => { c with block := .send 9 2 1 })
     s.live (.eng 0) = true ∧ ((s.eng 0).ctxs.get 0).block = .send 9 2 1 ∧ s.outstanding 0 < 16) ∧
    (let s := sE 0 (fun x => { x with out := [⟨1, 2, 9, 0⟩] })
     (s.eng 0).out[0]? = some ⟨1, 2, 9, 0⟩ ∧ ((s.eng 1).chans.get 2).length < 4) ∧
    (let s := sE 0 (fun x => { (onCtx (fun c => { c with block := .recv 2 1 }) x) with chans := x.chans.set 2 [5, 6] })
     (s.eng 0).chans.get 2 = 5 :: [6] ∧ ((s.eng 0).ctxs.get 0).block = .recv 2 1 ∧ s.live (.eng 0) = true) ∧
    (((sE 0 id).fetched (zE 0)).eng 0).chans.get 2 = [] := by decide +kernel
theorem wit_TileTransfersUseTags :
    (let s := sE 0 (onCtx fun c => { c with tags := c.tags.set 0 (some ⟨true, 0x98000000, 0, 1⟩) })
     s.mayExecute (zE 0) ∧ (s.cx (zE 0)).tags.get 1 = none ∧ ∀ k, k < (1 : Fin 4) → (s.cx (zE 0)).tags.get k ≠ none) ∧
    (let s := sE 0 (fun x => { x with windows := [(0x98000000, 0x10000)] })
     let y := xferOf true 0x98000000 0x40000
     s.tileCause (zE 0).agent y = none ∧ ((s.xfers (zE 0).agent).any fun v => v.meets y.loc (64 * y.units)) = false ∧
       s.tileBadWord (zE 0).agent y = none) ∧
    (let s := sL 0 (fun c => { c with tags := c.tags.set 3 (some ⟨true, 0x98000000, 0, 1⟩) })
     s.thermal.held = false ∧ (s.lane 0).ctx.tags.get 3 = some ⟨true, 0x98000000, 0, 1⟩ ∧ (s.lane 0).ctx.block = .ready) ∧
    (let s := sL 0 (fun c => { c with block := .interlock 0 4 })
     s.thermal.held = false ∧ (s.lane 0).ctx.block = .interlock 0 4) ∧
    (let x := xferOf false 0x98000000 0x40000
     x.load = false ∧ ((sL 0 id).memOf (zL 0).agent (tilePlace (zL 0).agent x.loc)).2.2 = []) := by unfold State.mayExecute; decide +kernel
theorem wit_ServicesAndPosts :
    (11 : BitVec 18).toNat ≤ 11 ∧ (3 : BitVec 18).toNat ≤ 3 ∧ 11 < (12 : BitVec 18).toNat ∧
    (sE 0 id).svcTransit 4 = 2 ∧
    (let s := running (sE 0 id) 2
     (2 : W).toNat = (2 : Port).val ∧ s.svcTransit 2 = 0 ∧ (s.transit.queue.any fun q => q.1 = 2) = false) ∧
    (let s := running (sE 0 id) 2
     uidSlot 0x01000005 = some 5 ∧ s.svcTest 0x01000005 = 0 ∧ s.needsRotation 5 = false ∧ s.anyRunning = true) ∧
    (let s := running (sE 0 id) 2
     uidSlot 0x07000001 = some 121 ∧ s.svcRetire 0x07000001 = 0 ∧ s.anyRunning = true) ∧
    (let s := sE 0 (fun x => { x with data := Mem.setWord [] 0x100 0x00041800 })
     (noteHeader (s.eng 0) 0 0x100).isSome = true ∧ s.svcNote 0 0x100 = 0 ∧
       ∀ q ∈ noteRange (s.eng 0) 0 0x100,
         s.stalls (zE 0).agent (.data q) 4 = false ∧ s.wordBad (zE 0).agent (.data q) = false ∧ (s.eng 0).dataSoft.contains (q / 4) = false) := by
  decide +kernel
theorem wit_VectorArithmetic : (0 : Fin 4) = 0 ∧ (1 : Fin 4) = 1 ∧ (2 : Fin 4) = 2 ∧ (3 : Fin 4) = 3 ∧ (2 : Fin 4) ≠ 3 := by decide
theorem wit_VectorOrderAndShift : (3 : Fin 4) ≠ 0 ∧ (0 : Fin 4) = 0 ∧ (0 : BitVec 5).toNat + ((31 : BitVec 5).toNat + 1) ≤ 32 ∧
    32 < (1 : BitVec 5).toNat + ((31 : BitVec 5).toNat + 1) := by decide
theorem wit_VectorLoadsAndStores :
    let s := sL 0 (fun c => c.put 1 0x1FE0)
    s.memsOk ∧ s.mayExecute (zL 0) ∧ (((s.cx (zL 0)).get 1).toNat + 4 * (0 : BitVec 9).toNat) % 4 = 0 ∧
      ((s.cx (zL 0)).get 1).toNat + 4 * (0 : BitVec 9).toNat + 32 ≤ 0x2000 ∧ ((s.fetched (zL 0)).lane 0).locBad = [] ∧
      ((s.fetched (zL 0)).lane 0).locSoft = [] := by
  refine ⟨⟨rfl, rfl, rfl, ?_, ?_, ?_⟩, ?_⟩
  · decide +kernel
  · decide +kernel
  · decide +kernel
  · unfold State.mayExecute; decide +kernel

/-- The write passwords of regions 0, 2 and 3 set to 1, copy A of item 5 (R439, R441). -/
def pwData : List Byte := (List.range 64).map fun i => if i = 8 ∨ i = 40 ∨ i = 56 then 1 else 0
def sPw : State := sUp.modNv fun n => { n with mem :=
  [(460808, 1), (460840, 1), (460856, 1), (460864, 1), (460868, 5), (460870, 0x7E), (460871, 0x5A), (460872, 64),
   (460876, 133), (460877, 181), (460878, 227), (460879, 105)] }
theorem pwCrc : crc32c (pwData ++ wordsBytes [1, 0x5A7E0005, 64]) = 1776530821 := by
  have e : pwData ++ wordsBytes [1, 0x5A7E0005, 64] =
      (List.replicate 8 0 ++ [1] ++ List.replicate 7 0) ++ ((List.replicate 16 0) ++ ((List.replicate 8 0 ++ [1] ++ List.replicate 7 0) ++
        ((List.replicate 8 0 ++ [1] ++ List.replicate 7 0) ++ [1, 0, 0, 0, 5, 0, 0x7E, 0x5A, 64, 0, 0, 0]))) := by decide +kernel
  have c1 : (List.replicate 8 0 ++ [1] ++ List.replicate 7 0 : List Byte).foldl crcByte 0xFFFFFFFF = 4105377842 := by simp [crcByte, crcBit]
  have c2 : (List.replicate 16 0 : List Byte).foldl crcByte 4105377842 = 3475049435 := by simp [crcByte, crcBit]
  have c3 : (List.replicate 8 0 ++ [1] ++ List.replicate 7 0 : List Byte).foldl crcByte 3475049435 = 1133489482 := by simp [crcByte, crcBit]
  have c4 : (List.replicate 8 0 ++ [1] ++ List.replicate 7 0 : List Byte).foldl crcByte 1133489482 = 2433644233 := by simp [crcByte, crcBit]
  have c5 : ([1, 0, 0, 0, 5, 0, 0x7E, 0x5A, 64, 0, 0, 0] : List Byte).foldl crcByte 2433644233 = 2518436474 := by simp [crcByte, crcBit]
  unfold crc32c
  rw [e, List.foldl_append, c1, List.foldl_append, c2, List.foldl_append, c3, List.foldl_append, c4, c5]
  decide
theorem pw_data : Mem.read sPw.nv.view itemPasswords.a itemPasswords.len = pwData := by decide +kernel
theorem pw_gen : Mem.word sPw.nv.view (itemPasswords.a + itemPasswords.trailer) = 1 := by decide +kernel
theorem pw_head : itemPasswords.head 1 = [1, 0x5A7E0005, 64] := by decide +kernel
theorem pw_no : Mem.word sPw.nv.view (itemPasswords.a + itemPasswords.trailer + 4) = 0x5A7E0005 := by decide +kernel
theorem pw_len : Mem.word sPw.nv.view (itemPasswords.a + itemPasswords.trailer + 8) = 64 := by decide +kernel
theorem pw_crc : Mem.word sPw.nv.view (itemPasswords.a + itemPasswords.trailer + 12) = 1776530821 := by decide +kernel
theorem pw_noB : Mem.word sPw.nv.view (itemPasswords.b + itemPasswords.trailer + 4) = 0 := by decide +kernel
theorem pw_genB : Mem.word sPw.nv.view (itemPasswords.b + itemPasswords.trailer) = 0 := by decide +kernel
theorem pw_copyA : sPw.nv.copyGen itemPasswords itemPasswords.a = some 1 := by
    unfold Nv.copyGen
    simp only [pw_data, pw_gen, pw_head, pwCrc, pw_no, pw_len, pw_crc]
    rfl
theorem pw_copyB : sPw.nv.copyGen itemPasswords itemPasswords.b = none := by
    unfold Nv.copyGen
    simp only [pw_noB, pw_genB]
    rw [if_neg]
    intro h
    exact absurd h.1 (by decide)
theorem itemRead_copyA (n : Nv) (t : NvItem) (x : W) (hA : n.copyGen t t.a = some x) (hB : n.copyGen t t.b = none) :
    n.itemRead t = Mem.read n.view t.a t.len := by
  unfold Nv.itemRead Nv.newest
  rw [hA, hB]
theorem pwRead : sPw.nv.itemRead itemPasswords = pwData := (itemRead_copyA _ _ _ pw_copyA pw_copyB).trans pw_data
theorem wit_HostFramesAreAppliedInOrder :
    (sUp.hostUp = true ∧ sUp.serial.bufs = [] ∧ sUp.hostReady = true ∧ regionOf (0x80 : W).toNat = some .ident ∧ (0x80 : W).toNat % 4 = 0) ∧
    sUp.serial.readEnd = none ∧ (0x81 : W).toNat % 4 ≠ 0 ∧ frameTypeOf 0x55 = none ∧
    (let s := sUp.modBoot fun b => { b with ready := false }
     s.hostUp = true ∧ s.serial.bufs.length < 2 ∧ s.hostReady = false) ∧
    (let s := sUp.modSerial fun x => { x with bufs := [(0x80, [7])] }
     s.serial.bufs = (0x80, [7]) :: [] ∧ s.serial.xipWait = [] ∧ s.serial.readEnd = none ∧ s.serial.frameWait = none ∧
       s.thermal.held = false) ∧
    (let s := sUp.modSerial fun x => { x with xipWait := [0x20000000], readEnd := some none }
     s.serial.xipWait = [0x20000000] ∧ regionOf 0x20000000 = some .xip ∧ s.serial.readEnd = some none) := by decide +kernel
theorem wit_hostIdle : sUp.hostIdle ∧ sUp.up := by unfold State.hostIdle State.up; decide +kernel
theorem wit_LowWordsLatchTheirHighWords :
    sUp.twinEn = false ∧ bitOf (sxCtl sUp.params.force 2) 5 = false ∧
    ((sUp.modMod 2 fun x => { x with fifo := [(1, 2)] }).mod 2).fifo = (1, 2) :: [] ∧ sUp.nv.readOpen 0 = true ∧ sUp.nv.bad = [] ∧ sUp.nv.soft = [] := by
  decide +kernel
theorem wit_LoadsIntoEngines :
    cepsOf 4 = some 4 ∧ sUp.queue.busy = false ∧ sUp.boot.boot = true ∧
    ((sUp.modQueue fun q => { q with busy := true }).queue.busy = true) ∧
    (let s := sUp.modEng 4 fun e => { e with st := 3 }
     (s.eng 4).st = 3 ∧ s.engRetired 4 = false) ∧
    (let s := running (sUp.modEng 4 fun e => { e with st := 1 }) 0
     (s.eng 4).st = 1 ∧ s.anyRunning = true) ∧
    (let s := sUp.modQueue fun q => { q with loadSel := 0x11 }
     s.loadMap = some (.eng 1 true 0 0x8000) ∧ s.loadAdmits = true ∧ (0x7FFC : BitVec 16).toNat % 4 = 0 ∧
       0 + (0x7FFC : BitVec 16).toNat + 4 ≤ 0x8000) := by decide +kernel
theorem wit_QueueAndRing :
    (sUp.queue.entries.length < 64 ∧ (0x130 : W).toNat % 16 = 0) ∧
    (let s := sUp.modQueue fun q => { q with entries := [[1, 2, 3, 4]], given := 3 }
     s.queue.entries = [1, 2, 3, 4] :: [] ∧ s.queue.given < 4 ∧ s.chanRoom engCE 15 = true) ∧
    (let s := (sUp.modQueue fun q => { q with waiting := [[1, 2, 3, 4]] }).modEng engCE fun e => { e with st := 1 }
     s.queue.waiting = [1, 2, 3, 4] :: [] ∧ s.queue.ringFull = false ∧ (s.eng engCE).st = 1) ∧
    (let s := sUp.modQueue fun q => { q with pi := 2 }
     (BitVec.ofNat 7 ((2 : W).toNat % 128) - s.queue.ci).toNat ≤ (s.queue.pi - s.queue.ci).toNat ∧
       ¬ (BitVec.ofNat 7 ((3 : W).toNat % 128) - s.queue.ci).toNat ≤ (s.queue.pi - s.queue.ci).toNat) := by decide +kernel
theorem wit_ControlWords :
    sUp.serial.hbusy = false ∧ (256 : W).toNat % 512 ≤ 256 ∧ (15 : W).toNat % 16 ≠ 0 ∧ sUp.serial.mp0 = none ∧ sUp.serial.mp1 = none ∧
    (0x000CFF00 : W) &&& 0x300FF = sUp.serial.swsel &&& 0x300FF ∧ bitOf (0x100 : W) 0 = false ∧ fld (0x100 : W) 11 8 ≠ 0 ∧
    sUp.nv.writeOpen 3 = true ∧ sUp.nv.writeOpen 0 = true ∧ sUp.nv.flushing = false ∧ (0 : W) ≠ 0xC1EA9640 ∧ (0 : W) ≠ 0xC1EAA100 ∧
    (sUp.modNv fun n => { n with flushing := true }).nv.flushing = true := by decide +kernel
/-- The check of a protected item leaves a sound store as it is. -/
theorem itemCheck_nv (s : State) (t : NvItem) (h : s.nv.softView = []) (k : s.nv.badView = []) : (s.itemCheck t).nv = s.nv := by
  have r (a n : Nat) : (s.nvRead a n).2 = s := by simp [State.nvRead, h, k, forEach]
  simp only [State.itemCheck, r]
  split
  · rw [occur_frame]
  · rfl
theorem wit_NvHostAccess :
    (sPw.nv.lockW.getLsbD 2 = false ∧ wordsBytes [1, 0] = sPw.nv.password 2 true ∧ wordsBytes [2, 0] ≠ sPw.nv.password 2 true ∧
      sPw.nv.writeOpen 2 = false ∧ sPw.nv.writeOpen 3 = false ∧ sPw.nv.writeOpen (pageRegion 384) = false) ∧
    ((sUp.modNv fun n => { n with lockW := 4 }).nv.lockW.getLsbD 2 = true ∧ (sPw.framed.itemCheck itemPasswords).nv = sPw.nv) ∧
    (sUp.nv.writeOpen 2 = true ∧ sUp.nv.writeOpen 3 = true ∧ (0xFC : BitVec 8).toNat % 4 = 0 ∧ sUp.nv.page.toNat < 640 ∧
      sUp.nvBusy = false ∧ sUp.thermal.pfStep = 0 ∧ sUp.mirrors = false ∧ sUp.nv.writeOpen (pageRegion sUp.nv.page.toNat) = true) ∧
    ((0xEC : BitVec 8).toNat % 4 = 0 ∧ (0xEC : BitVec 8).toNat < 240) := by
  refine ⟨?_, ⟨by decide, ?_⟩, ?_, ?_⟩
  · unfold Nv.writeOpen Nv.password; rw [pwRead]; decide +kernel
  · rw [itemCheck_nv _ _ (by decide +kernel) (by decide +kernel)]; decide +kernel
  · decide +kernel
  · decide
theorem wit_ApertureAccesses :
    (let a := sUp.store.page.toNat * 2 ^ 28 + (0x1FFFFFFC : W).toNat % 2 ^ 28
     (0x1FFFFFFC : W).toNat % 4 = 0 ∧ sUp.unbacked a 4 = false ∧ inReservedRange a = false ∧ sUp.store.lost = none ∧ sUp.store.hard = [] ∧ sUp.store.soft = [] ∧
       sUp.store.poison = [] ∧ sUp.apertureAdmits (0x10000000 + (0x1FFFFFFC : W).toNat % 2 ^ 28) 4 = true ∧ sUp.recordRace a = false) ∧
    sUp.memsOk ∧ ((sUp.modStore fun t => { t with poison := [0] }).store.poison = [0 / 8]) := by
  refine ⟨by decide +kernel, ⟨rfl, rfl, rfl, ?_, ?_, ?_⟩, rfl⟩ <;> decide +kernel
theorem wit_ClocksAndResets :
    rs.clocks.refOk = true ∧ (rs.modClocks fun c => { c with refOk := false }).clocks.refOk = false ∧
    (rs.pllRuns 0 = true ∧ rs.clocks.locked 0 = false ∧ rs.clocks.lost = 0) ∧
    ((rs.modClocks fun c => { c with lost := 1 }).pllRuns 0 = true ∧ (rs.modClocks fun c => { c with lost := 1 }).clocks.lost.getLsbD 0 = true) ∧
    ((rs.modClocks fun c => { c with sysLk := true }).clocks.locked 0 = true) ∧ (rs.port 3).backupClock ≠ false ∧
    ((rs.modCluster 11 fun k => { k with stopped := true }).cluster 11).stopped = true ∧
    (let s := rs.islandOut 13
     s.clocks.fenced.getLsbD 13 = true ∧ s.clocks.inReset.getLsbD 13 = false) := by decide +kernel
theorem wit_EventsPendAndAreTraced :
    ¬ (28 ≤ (32 : Fin 48).val ∧ (32 : Fin 48).val < 32) ∧ ¬ (28 ≤ (27 : Fin 48).val ∧ (27 : Fin 48).val < 32) ∧
    (let s := rs.modEng 0 fun x => { x with routes := [⟨2, 5, true, ⟨8, by omega⟩⟩] }
     ∃ r ∈ (s.eng 0).routes, r.ctx = 2) ∧
    (let s := rs.modEvents fun e => { e with ctl := 1, csamp := 512 + 2 ^ 18 + 511, fifo := [⟨false, [1]⟩, ⟨true, [2]⟩] }
     s.traceOn = true ∧ fifoBytes s.events.fifo + 14 ≤ 4096 ∧ s.events.fifo = [⟨false, [1]⟩, ⟨true, [2]⟩] ∧ s.events.dropRun = 0 ∧
       s.events.csamp = wn (2 ^ 18 + 512 + 511)) ∧
    (4096 < fifoBytes [⟨false, List.replicate 4090 0⟩] + 14) := by decide +kernel

theorem wit_AlmanacAndNvSteps :
    (let r : Rec := ⟨0x00000001, 0, 0, 0, []⟩
     let s := sUp.modNv fun n => { n with queue := [(r, none)] }
     s.nv.queue = (r, none) :: [] ∧ s.nv.last = none ∧ s.nv.lostMark = false ∧ s.nv.almEnd + recSize r ≤ 262144 ∧
       s.nv.dirty.length + recSize r ≤ 8191 ∧ fld r.w0 15 12 < 3 ∧ fld r.w0 11 0 < 0x100 ∧ bitOf r.w1 16 = false ∧ s.linkUp = false) ∧
    (let s := sUp.modNv fun n => { n with writes := [{ page := 1791, off := 255, bytes := [1], src := .host }] }
     s.nv.writes = { page := 1791, off := 255, bytes := [1], src := .host } :: [] ∧ s.thermal.pfStep = 0 ∧ 255 + [1].length ≤ 256) ∧
    (let s := sUp.modNv fun n => { n with optime := 57600, savedTicks := 57599 }
     s.boot.step = 3 ∧ s.nv.savedTicks / 57600 < s.nv.optime / 57600) := by decide +kernel
theorem wit_FlashSequencer :
    (let s := sUp.modSerial fun x => { x with lines := [⟨64, [], true⟩] }
     s.serial.swPend = none ∧ s.serial.xipWait = [] ∧ s.serial.readEnd = none ∧ s.serial.mp0 = none ∧ s.prodFills = false ∧
       s.mp0Soft (64 / 2 ^ 32) = false) ∧
    ((sUp.modTransit fun t => { t with prodBusy := true }).prodFills = true) ∧
    (let s := sUp.modSerial fun x => { x with lines := [⟨64, [], true⟩], mp0 := some (.fill 64) }
     s.serial.mp0 = some (.fill 64) ∧ s.serial.lines = [⟨64, [], true⟩] ∧ (List.replicate 64 (0 : Byte)).length = 64) ∧
    (let s := sUp.modEng engME fun x => { x with data := Mem.setWord [] 0x7E00 1 }
     s.serial.lines = [] ∧ s.engRetired engME = false ∧ (s.ringFix engME 0x7E00).mp0Head = some 0 ∧ (s.ringFix engME 0x7E00).mp0Bad 0 = false ∧
       s.mp0Soft (fld (ringWord (s.eng engME).data 0x7E00 0 0) 19 19) = false) ∧
    (let s := sUp.modSerial fun x => { x with hbusy := true }
     s.serial.lines = [] ∧ (s.ringFix engME 0x7E00).mp0Head = none ∧ s.serial.hbusy = true ∧ s.mp0Soft (fld s.serial.hcmd 19 19) = false) ∧
    (let s := sUp.modSerial fun x => { x with hbusy := true, hlen := 1, mp0 := some .host }
     s.serial.mp0 = some .host ∧ bitOf s.serial.hcmd 18 = false ∧ ([9] : List Byte).length = s.serial.hlen) ∧
    (let s := sUp.modSerial fun x => { x with hcmd := 0x00100000, mp0 := some .host }
     s.serial.mp0 = some .host ∧ bitOf s.serial.hcmd 20 = true) := by decide +kernel
/-- Engine `e` runs with one descriptor of word 0 `w` in its MP1 ring. -/
def sRing (e : Eng) (w : W) : State :=
  sUp.modEng e fun x => { x with st := 1, data := Mem.setWord (Mem.setWord [] 0x7C00 1) 0x7C10 w }
theorem wit_SerialTransfers :
    (let s := sRing (mp1Eng 4) 4
     (∀ g, (s.eng g).dataSoft = []) ∧ s.thermal.pfStep = 0 ∧ s.serial.swPend = none ∧ s.serial.mp1 = none ∧ (s.eng (mp1Eng 4)).st = 1 ∧
       s.mp1Head 4 = some (0, mp1Desc (s.eng (mp1Eng 4)).data 0) ∧ (∀ f, f ≠ 4 → s.mp1Head f = none) ∧
       s.mp1Bad 4 (mp1Desc (s.eng (mp1Eng 4)).data 0) = false ∧ s.mp1May (List.replicate 8 0) 0xFF 4 = true) ∧
    (let s := sUp.modEng 2 fun x => { x with dataSoft := [7] }
     (s.eng 2).dataSoft = [7] ∧ 28 / 4 ≤ 7 ∧ 4 * 7 < 28 + 4) ∧
    (let s := sRing (mp1Eng 0) 0
     s.mp1Head 0 = some (0, mp1Desc (s.eng (mp1Eng 0)).data 0) ∧ s.mp1Bad 0 (mp1Desc (s.eng (mp1Eng 0)).data 0) = true) ∧
    (let x : Mp1Xfer := ⟨1, 0, true, 4, false, 8, [], 0, true, true⟩
     let s := withF (sUp.modSerial fun y => { y with mp1 := some x }) 0x1E0 8 0x400
     s.serial.mp1 = some x ∧ x.live = true ∧ x.driven = true ∧ x.rx = true ∧ x.bits = 8 * ([7] : List Byte).length ∧ 4 ≤ x.sel.val ∧
       bitOf (s.selCfg x.sel) 10 = true) := by decide +kernel
/-- A frame of two image lines. -/
def of2 : OutFrame :=
  { port := 0, src := 0, pb := [(0x181 * 256 + 1, 0), (0x181 * 256 + 2, 0x00020000)], slot := none, nextLine := 0, sentLines := 0, flags := 0, head := List.replicate 15 0,
    tile := 0, placed := false, egen := 0, genRead := none, curve := [], curveMer := 0 }
def pk : Pkt := ⟨0, 0, 0, 0, []⟩
def sDue : State := sUp.modStream 0 fun x => { x with due := [of2] }
def sCur : State := sUp.modStream 0 fun x => { x with cur := some of2 }
def sPkt : State :=
  ((sUp.modTx 0 fun t => { t with on := true, line := 1 }).modStream 0 fun x => { x with pkts := [pk] }).modClocks fun c => { c with tx0Lk := true }
def sUlps : State := withF (sUp.modTx 1 fun t => { t with on := true, line := 0 }) 0x187 0 0x80
theorem wit_StreamsAndTransmitters :
    ((sDue.stream 0).due = of2 :: [] ∧ sDue.frameReady 0 of2 = true ∧ (sDue.stream 0).cur = none ∧ of2.head.length = 15) ∧
    ((sCur.stream 0).cur = some of2 ∧ of2.nextLine + 1 < outLines of2.pb 0 of2.tile ∧ fld (of2.pb.streamCtl 0) 7 6 ≠ 3 ∧
      bitOf (of2.pb.streamCtl 0) 22 = false ∧ ((lineRows of2.pb 0 of2.nextLine).1.all fun r => sCur.rowFinal of2 r.1) = true ∧
      ringBytes (sCur.stream 0).pkts + (sCur.imageLine 0 of2 of2.nextLine).1.length ≤ 0x500000 ∧
      (sCur.imageLine 0 of2 of2.nextLine).2.1 = 0) ∧
    ((sPkt.txs.get 0).on = true ∧ (sPkt.txs.get 0).line ≠ 2 ∧ sPkt.clocks.gives 1 = true ∧ sPkt.txNext 0 = some 0 ∧
      (sPkt.stream 0).pkts = pk :: [] ∧ pk.dt ≠ 1 ∧ (sPkt.stream 0).cur = none) ∧
    ((sUlps.txs.get 1).on = true ∧ (sUlps.txs.get 1).line = 0 ∧ bitOf (sUlps.params.force.txCtl 1) 7 = true ∧ sUlps.txNext 1 = none) := by
  refine ⟨⟨rfl, ?_, rfl, rfl⟩, ⟨rfl, ?_, ?_, ?_, ?_, ?_, ?_⟩, ⟨rfl, ?_, rfl, ?_, rfl, ?_, rfl⟩, rfl, rfl, ?_, ?_⟩ <;> decide +kernel
theorem wit_BootAndRestart :
    (rs.thermal.resetN = false ∧ rs.thermal.shutdown = false ∧ rs.thermal.pfStep = 0 ∧ rs.thermal.handCause = 0 ∧ rs.boot.step = 0 ∧
      rs.thermal.pfail = true ∧ rs.railsUp = true ∧ (rs.modThermal fun t => { t with pfail := false }).thermal.pfail = false ∧
      (rs.modThermal fun t => { t with rails := 1 }).railsUp = false) ∧
    (∀ ok : Bool, let s := (rs.modBoot fun b => { b with step := 5 }).modThermal fun t => { t with rails := if ok then 1 else 0x1F, pfail := false }
     s.boot.step = 5 ∧ s.thermal.pfStep = 0 ∧ s.thermal.shutdown = false ∧
       (s.modThermal fun t => { t with pfail := true, rails := if ok then 0x1F else t.rails, vio := t.vio || ok }).railsUp = true) ∧
    (sUp.boot.step ≠ 5 ∧ (let s := rs.modThermal fun t => { t with rails := 1 }
      (s.modThermal fun t => { t with pfail := true }).railsUp = false)) ∧
    (∀ sel : Fin 4, ∀ lk : Bool,
      let s := (rs.modBoot fun b => { b with step := 1, bootsel := BitVec.ofNat 2 sel.val }).modClocks fun c => { c with sysLk := lk }
      s.boot.step = 1 ∧ s.clocks.sysLk = lk ∧ (s.boot.bootsel = 2 ↔ sel = 2)) ∧
    (let s := sUp.modBoot fun b => { b with meRestarting := true }
     s.up ∧ s.boot.meRestarting = true ∧ s.engRetired engME = false) := by
  unfold State.up; decide +kernel
/-- A pending copy `c` of block `b`. -/
def sCopy (b : Nat) (c : PMap) : State := sUp.modParams fun q => { q with pending := [(b, c)] }
/-- A copy of the Sextant's table that is out of range. -/
def cBad : PMap := [(0x1C8 * 256, 0x300)]
/-- Every class I block, with its reset values pending, is in range and at its idle point; a refused copy; a unit that is not idle. -/
theorem wit_CopiesTakeEffectWholeOrNot :
    (∀ k : Fin 9, let b := [1, 2, 0x1C0, 0x1C7, 0x1C8, 0x1C9, 0x1D0, 0x1D7, 0x1E0].getD k.val 0
      (sCopy b []).thermal.held = false ∧ (BitVec.ofNat 10 b).toNat = b ∧ (sCopy b []).readyI b = some [] ∧
        checkBlock (sCopy b []).chkEnv ((sCopy b []).params.force.setBlock b []) (sCopy b []).params.force b = none) ∧
    ((sCopy 1 []).anyRunning = false ∧ (sCopy 1 []).transitIdle = true ∧ (sCopy 2 []).twinAtOnce = true ∧
      bitOf (sxCtl (sCopy 0x1C0 []).params.force 0) 0 = false ∧ (sCopy 0x1E0 []).serial.mp1 = none) ∧
    ((sCopy 0x1C8 cBad).readyI 0x1C8 = some cBad ∧
      checkBlock (sCopy 0x1C8 cBad).chkEnv ((sCopy 0x1C8 cBad).params.force.setBlock 0x1C8 cBad) (sCopy 0x1C8 cBad).params.force 0x1C8 =
        some 0x1C800) ∧
    ((running (sCopy 1 []) 0).readyI 1 = some [] ∧ (running (sCopy 1 []) 0).anyRunning = true) := by
  refine ⟨by decide +kernel, by decide +kernel, by decide +kernel, by decide +kernel⟩

theorem word4_wordBytes (w : W) :
    word4 (w.extractLsb' 0 8) (w.extractLsb' 8 8) (w.extractLsb' 16 8) (w.extractLsb' 24 8) = w := by
  apply BitVec.eq_of_toNat_eq
  simp only [word4, wn, BitVec.extractLsb'_toNat, Nat.shiftRight_eq_div_pow, BitVec.toNat_ofNat]
  have := w.isLt
  omega
/-- Two parts of a memory with their CRC words behind them. -/
theorem mem_with_crcs (m0 : Mem) (b n : Nat) (hm : m0.wf = true) (hn : 8 ≤ n + n) :
    ∃ m : Mem, [crc32c (Mem.read m b n), crc32c (Mem.read m (b + n) n)] = bytesWords (Mem.read m (b + 2 * n) 8) := by
  let p := crc32c (Mem.read m0 b n)
  let q := crc32c (Mem.read m0 (b + n) n)
  refine ⟨Mem.write m0 (b + 2 * n) (wordsBytes [p, q]), ?_⟩
  have l : (wordsBytes [p, q]).length = 8 := by simp [wordsBytes, wordBytes]
  have h1 : Mem.read (Mem.write m0 (b + 2 * n) (wordsBytes [p, q])) b n = Mem.read m0 b n := by
    unfold Mem.read
    apply List.map_congr_left
    intro i hi
    exact Mem.get_write_out _ hm (Or.inl (by have := List.mem_range.mp hi; omega))
  have h2 : Mem.read (Mem.write m0 (b + 2 * n) (wordsBytes [p, q])) (b + n) n = Mem.read m0 (b + n) n := by
    unfold Mem.read
    apply List.map_congr_left
    intro i hi
    exact Mem.get_write_out _ hm (Or.inl (by have := List.mem_range.mp hi; omega))
  have h3 : Mem.read (Mem.write m0 (b + 2 * n) (wordsBytes [p, q])) (b + 2 * n) 8 = wordsBytes [p, q] := by
    apply List.ext_getElem
    · simp [Mem.read, l]
    · intro i h _
      have hi : i < (wordsBytes [p, q]).length := by simpa [Mem.read, l] using h
      simp only [Mem.read, List.getElem_map, List.getElem_range]
      rw [Mem.get_write_in _ hm hi]
  rw [h1, h2, h3]
  show [p, q] = bytesWords (wordBytes p ++ (wordBytes q ++ []))
  simp [wordBytes, bytesWords, word4_wordBytes]
theorem forEach_id {α : Type} (f : α → State → State) (s : State) (h : ∀ a, f a s = s) (l : List α) : forEach l f s = s := by
  induction l with
  | nil => rfl
  | cons a r ih => show forEach r f (f a s) = s; rw [h a, ih]
theorem forEach_keeps {α β : Type} (P : State → β) (f : α → State → State) (h : ∀ a s, P (f a s) = P s) (l : List α) (s : State) :
    P (forEach l f s) = P s := by
  induction l generalizing s with
  | nil => rfl
  | cons a r ih => show P (forEach r f (f a s)) = P s; rw [ih, h]
/-- The store, and what the retirement map says of a unit, do not change when transactions are counted. -/
theorem countLines_keeps (s : State) (a n : Nat) : (s.countLines a n).store = s.store ∧ (s.countLines a n).fm = s.fm := by
  unfold State.countLines
  constructor <;> split
  · rfl
  · exact forEach_keeps State.store (fun l t => t.count (216 + (t.locate (64 * l)).1) 1) (fun _ _ => rfl) _ _
  · rfl
  · exact forEach_keeps State.fm (fun l t => t.count (216 + (t.locate (64 * l)).1) 1) (fun _ _ => rfl) _ _
/-- A read of a store without errors. -/
theorem storeRead_clean (s : State) (a n : Nat) (h : 0x60000000 ≤ a) (hp : s.store.poison = []) (hh : s.store.hard = [])
    (hs : s.store.soft = []) (hl : s.store.lost = none) :
    (s.storeRead a n).1 = Mem.read s.store.mem a n ∧ (s.storeRead a n).2.store = s.store ∧ (s.storeRead a n).2.fm = s.fm := by
  obtain ⟨hc, hf⟩ := countLines_keeps s a n
  have h2 : (s.storeRead a n).2 = s.countLines a n := by
    apply forEach_id
    intro w
    unfold State.checkWord
    simp only [hc, hp, hh, hs, List.contains_nil, Bool.false_eq_true, if_false]
  refine ⟨?_, by rw [h2, hc], by rw [h2, hf]⟩
  show (List.range n).map (fun i => (s.storeRead a n).2.storeByte (a + i)) = _
  rw [h2]
  unfold Mem.read State.storeByte
  apply List.map_congr_left
  intro i _
  rw [if_neg (by omega), hc, hl]
/-- The copy of the ME's sections in a store that holds its two CRC words (R84). -/
theorem wit_TheMeRestarts : ∃ s : State, s.up ∧ s.boot.meRestarting = true ∧ s.engRetired engME = false ∧
    (let p := (s.modBoot fun b => { b with meRestarting := false }).storeRead meCopyBase 0x8000
     let d := p.2.storeRead (meCopyBase + 0x8000) 0x8000
     let c := d.2.storeRead (meCopyBase + 0x10000) 8
     c.2.engRetired engME = false ∧ [crc32c p.1, crc32c d.1] = bytesWords c.1) := by
  obtain ⟨m, hm⟩ := mem_with_crcs [] meCopyBase 0x8000 rfl (by decide)
  refine ⟨(sUp.modBoot fun b => { b with meRestarting := true }).modStore fun t => { t with mem := m }, ?_⟩
  generalize hs : ((sUp.modBoot fun b => { b with meRestarting := true }).modStore fun t => { t with mem := m }) = s
  have e1 : s.store = { sUp.store with mem := m } := by rw [← hs]; rfl
  have e2 : s.fm = sUp.fm := by rw [← hs]; rfl
  have r0 : sUp.engRetired engME = false := by decide +kernel
  have re : ∀ t : State, t.fm = sUp.fm → t.engRetired engME = false := by
    intro t h; rw [← r0]; unfold State.engRetired; rw [h]
  refine ⟨by rw [← hs]; rfl, by rw [← hs]; rfl, re s e2, ?_⟩
  intro p d c
  have hp := storeRead_clean (s.modBoot fun b => { b with meRestarting := false }) meCopyBase 0x8000 (by decide)
    (by show s.store.poison = []; rw [e1]; rfl) (by show s.store.hard = []; rw [e1]; rfl)
    (by show s.store.soft = []; rw [e1]; rfl) (by show s.store.lost = none; rw [e1]; rfl)
  have ep : p.2.store = s.store := hp.2.1
  have hd := storeRead_clean p.2 (meCopyBase + 0x8000) 0x8000 (by decide) (by rw [ep, e1]; rfl) (by rw [ep, e1]; rfl) (by rw [ep, e1]; rfl)
    (by rw [ep, e1]; rfl)
  have ed : d.2.store = s.store := hd.2.1.trans ep
  have hc := storeRead_clean d.2 (meCopyBase + 0x10000) 8 (by decide) (by rw [ed, e1]; rfl) (by rw [ed, e1]; rfl) (by rw [ed, e1]; rfl)
    (by rw [ed, e1]; rfl)
  refine ⟨re _ (hc.2.2.trans (hd.2.2.trans (hp.2.2.trans e2))), ?_⟩
  rw [show p.1 = _ from hp.1, show d.1 = _ from hd.1, show c.1 = _ from hc.1, ed, ep]
  show [crc32c (Mem.read s.store.mem _ _), crc32c (Mem.read s.store.mem _ _)] = bytesWords (Mem.read s.store.mem _ _)
  rw [e1]
  exact hm

/-- A small image (R85–R87): one program section of one word for PS0. -/
def imgHead : List W := [0x4D49585A, 0x101, 132, 7, 0x9640, 64, 0, 0, 0, 0, 0, 0, 0, 0, 0, 1483399232]
def imgSec : List W := [1, 128, 4, 0, 0, 1214729159, 0, 0, 0, 0, 0, 0, 0, 0, 0, 3923694927]
def img : List Byte := wordsBytes (imgHead ++ imgSec ++ [0])
theorem img_crcHead : crc32c (img.take 60) = 1483399232 := by
  have e : img.take 60 = ([90, 88, 73, 77, 1, 1, 0, 0, 132, 0, 0, 0, 7, 0, 0, 0] : List Byte) ++ (([64, 150, 0, 0, 64, 0, 0, 0, 0, 0, 0, 0, 0, 0, 0, 0] : List Byte) ++ (([0, 0, 0, 0, 0, 0, 0, 0, 0, 0, 0, 0, 0, 0, 0, 0] : List Byte) ++ (([0, 0, 0, 0, 0, 0, 0, 0, 0, 0, 0, 0] : List Byte)))) := by decide +kernel
  have c0 : ([90, 88, 73, 77, 1, 1, 0, 0, 132, 0, 0, 0, 7, 0, 0, 0] : List Byte).foldl crcByte 4294967295 = 1042268511 := by simp [crcByte, crcBit]
  have c1 : ([64, 150, 0, 0, 64, 0, 0, 0, 0, 0, 0, 0, 0, 0, 0, 0] : List Byte).foldl crcByte 1042268511 = 2587314115 := by simp [crcByte, crcBit]
  have c2 : ([0, 0, 0, 0, 0, 0, 0, 0, 0, 0, 0, 0, 0, 0, 0, 0] : List Byte).foldl crcByte 2587314115 = 4162128316 := by simp [crcByte, crcBit]
  have c3 : ([0, 0, 0, 0, 0, 0, 0, 0, 0, 0, 0, 0] : List Byte).foldl crcByte 4162128316 = 2811568063 := by simp [crcByte, crcBit]
  unfold crc32c
  rw [e, List.foldl_append, c0, List.foldl_append, c1, List.foldl_append, c2, c3]
  decide
theorem img_crcSec : crc32c (((img.drop 64).take 64).take 60) = 3923694927 := by
  have e : ((img.drop 64).take 64).take 60 = ([1, 0, 0, 0, 128, 0, 0, 0, 4, 0, 0, 0, 0, 0, 0, 0] : List Byte) ++ (([0, 0, 0, 0, 199, 75, 103, 72, 0, 0, 0, 0, 0, 0, 0, 0] : List Byte) ++ (([0, 0, 0, 0, 0, 0, 0, 0, 0, 0, 0, 0, 0, 0, 0, 0] : List Byte) ++ (([0, 0, 0, 0, 0, 0, 0, 0, 0, 0, 0, 0] : List Byte)))) := by decide +kernel
  have c0 : ([1, 0, 0, 0, 128, 0, 0, 0, 4, 0, 0, 0, 0, 0, 0, 0] : List Byte).foldl crcByte 4294967295 = 2815437342 := by simp [crcByte, crcBit]
  have c1 : ([0, 0, 0, 0, 199, 75, 103, 72, 0, 0, 0, 0, 0, 0, 0, 0] : List Byte).foldl crcByte 2815437342 = 3961559203 := by simp [crcByte, crcBit]
  have c2 : ([0, 0, 0, 0, 0, 0, 0, 0, 0, 0, 0, 0, 0, 0, 0, 0] : List Byte).foldl crcByte 3961559203 = 82659470 := by simp [crcByte, crcBit]
  have c3 : ([0, 0, 0, 0, 0, 0, 0, 0, 0, 0, 0, 0] : List Byte).foldl crcByte 82659470 = 371272368 := by simp [crcByte, crcBit]
  unfold crc32c
  rw [e, List.foldl_append, c0, List.foldl_append, c1, List.foldl_append, c2, c3]
  decide
theorem img_crcData : crc32c ((img.drop 128).take 4) = 1214729159 := by
  have e : (img.drop 128).take 4 = ([0, 0, 0, 0] : List Byte) := by decide +kernel
  have c0 : ([0, 0, 0, 0] : List Byte).foldl crcByte 4294967295 = 3080238136 := by simp [crcByte, crcBit]
  unfold crc32c
  rw [e, c0]
  decide
def sImg : State := rs.modBoot fun b => { b with step := 2, ready := true }
theorem img_raws : ((List.range 1).map fun i => (img.drop (64 + 64 * i)).take 64) = [(img.drop 64).take 64] := by decide +kernel
theorem img_sound (s : State) (hk : allZero s.nv.keyHash = true) (hx : (s.eng 1).st = 0) : (s.imgCheck img).1 = 1 := by
  unfold State.imgCheck
  have h0 : bytesWords (img.take 64) = imgHead := by decide +kernel
  have hs : bytesWords ((img.drop 64).take 64) = imgSec := by decide +kernel
  have hn : fld (nthW imgHead 1) 15 8 = 1 := by decide +kernel
  have hg : bitOf (nthW imgHead 1) 16 = false := by decide +kernel
  have hl : (nthW imgHead 2).toNat = 132 := by decide +kernel
  have hsec : s.imgSection 132 imgSec = some ⟨1, false, 0, 128, 4, 0, 0, 1214729159, []⟩ := rfl
  have hsig : s.imgSignature img 132 false = 1 := by unfold State.imgSignature; simp [hk]
  have ll : img.length = 132 := by decide +kernel
  simp only [h0, hn, hg, hl, img_crcHead, ll]
  rw [if_neg (by decide +kernel), if_neg (by decide +kernel), if_neg (by decide +kernel)]
  simp only [img_raws, List.any_cons, List.any_nil, img_crcSec, hs, List.filterMap_cons, List.filterMap_nil, Bool.false_eq_true, if_false,
    Nat.sub_zero, hsec]
  rw [if_neg (by decide +kernel), if_neg (by decide +kernel)]
  simp only [img_crcData]
  rw [if_neg (by decide +kernel)]
  simp only [hsig]
  rw [if_neg (by decide +kernel)]
  simp [hx]
/-- The image in the buffer, a GO begun; the same with the buffer empty. -/
def sGo : State := (sUp.modStore fun t => { t with mem := Mem.write [] imgBufBase img }).modQueue fun q => { q with busy := true }
def sGo0 : State := sUp.modQueue fun q => { q with busy := true }
theorem crc60 : crc32c (List.replicate 60 0) = 1510671665 := by
  have e : (List.replicate 60 0 : List Byte) = List.replicate 16 0 ++ (List.replicate 16 0 ++ (List.replicate 16 0 ++ List.replicate 12 0)) := by
    decide
  have c0 : (List.replicate 16 0 : List Byte).foldl crcByte 4294967295 = 3180291349 := by simp [crcByte, crcBit]
  have c1 : (List.replicate 16 0 : List Byte).foldl crcByte 3180291349 = 1970194773 := by simp [crcByte, crcBit]
  have c2 : (List.replicate 16 0 : List Byte).foldl crcByte 1970194773 = 3614688582 := by simp [crcByte, crcBit]
  have c3 : (List.replicate 12 0 : List Byte).foldl crcByte 3614688582 = 2784295630 := by simp [crcByte, crcBit]
  unfold crc32c
  rw [e, List.foldl_append, c0, List.foldl_append, c1, List.foldl_append, c2, c3]
  decide
theorem wit_ImagesBoot :
    (sImg.boot.step = 2 ∧ sImg.boot.bootsel = 0 ∧ (sImg.imgCheck img).1.toNat ≤ 3 ∧ ([] : List Byte).length < 64) ∧
    (sGo.queue.busy = true ∧ sGo.boot.boot = true ∧ (sGo.imgBuffer.2.imgCheck sGo.imgBuffer.1).1.toNat ≤ 3) ∧
    (sGo0.queue.busy = true ∧ sGo0.boot.boot = true ∧ 3 < (sGo0.imgBuffer.2.imgCheck sGo0.imgBuffer.1).1.toNat) := by
  have e : sGo.imgBuffer.1 = img := by decide +kernel
  refine ⟨⟨rfl, rfl, ?_, by decide⟩, ⟨rfl, rfl, ?_⟩, rfl, rfl, ?_⟩
  · rw [img_sound sImg (by decide +kernel) (by decide +kernel)]; decide
  · rw [e, img_sound _ (by decide +kernel) (by decide +kernel)]; decide
  · have e0 : sGo0.imgBuffer.1 = List.replicate 64 0 := by decide +kernel
    rw [e0]
    unfold State.imgCheck
    simp only
    rw [if_pos]
    · decide
    · right
      have h : (List.replicate 64 (0 : Byte)).take 60 = List.replicate 60 0 := by decide
      rw [h, crc60]
      decide +kernel

/-- Port 0 runs with an array of 8 × 1 pixels and one blind row, frame 1 open and begun. -/
def small (n : Nat) : State :=
  withF (withF (withF sUp (pB 0) 0 (wn (n * 65536 + 8))) (pB 0) 1 0x00010000) (pB 0) 2 0x00012E02
def sArr : State := (running (small 1) 0).modFrame 0 false fun f => { f with started := true }
def fArr : Frame := ((sArr.port 0).frame).get (by decide +kernel)
def pkt (dt : BitVec 6) : RowPkt := ⟨dt, 0, .ok, true, none, List.replicate 32 1⟩
/-- The same with ENABLE = 1: the port runs on past its meridian. -/
def sArrOn : State := withF sArr (pB 0 + 1) 0 1
set_option maxRecDepth 100000 in
theorem meridian_runs : ((sArrOn.meridian 0 0 none).port 0).st = .running := by decide +kernel
theorem wit_FramesAndMeridians :
    (let s := running rs 0
     s.thermal.held = false ∧ (s.port 0).st = .running ∧ (0 : BitVec 2).toNat = s.params.force.vc 0 ∧ ((s.port 0).frame).isSome = true ∧
       (∀ f, (s.port 0).frame = some f → f.started = false)) ∧
    (sArr.thermal.held = false ∧ (sArr.port 0).st ≠ .off ∧ (0 : BitVec 2).toNat = sArr.params.force.vc 0 ∧ (sArr.port 0).frame = some fArr ∧
      fArr.started = true ∧ fld (fArr.pb.portF 0 2 0) 23 0 ≠ 0 ∧ (1 : BitVec 2) ≠ 0) ∧
    ((sArrOn.port 0).frame = some fArr ∧ sArrOn.twinning = false ∧ ((sArrOn.meridian 0 0 none).port 0).st = .running) := by
  refine ⟨⟨rfl, rfl, ?_, ?_, ?_⟩, ⟨rfl, ?_, ?_, ?_, ?_, ?_, ?_⟩, ?_, ?_, ?_⟩
  · decide +kernel
  · decide +kernel
  · intro f h; cases h; rfl
  · decide +kernel
  · decide +kernel
  · unfold fArr; simp
  · rfl
  · decide +kernel
  · decide
  · have e : sArrOn.ports = sArr.ports := rfl
    have e : (sArrOn.port 0).frame = (sArr.port 0).frame := by unfold State.port; rw [e]
    rw [e]; unfold fArr; simp
  · decide +kernel
  · exact meridian_runs
theorem wit_PortsReceiveFrames :
    (fArr.pb.orderB 0 = false ∧ (pkt 0x2E).dt.toNat = fArr.pb.dt 0 ∧ fArr.pb.lineNum 0 = false ∧ getN fArr.nextRow 0 0 = 0 ∧
      0 < fArr.pb.blindRows 0 ∧ 0 < fArr.pb.lines 0 ∧ (pkt 0x2E).payload.length = wordCount fArr.pb 0 ∧
      (sArr.modFrame 0 false fun fr => { fr with lastSub := 0 }).rowConflict 0 (rowSpan fArr.pb 0 fArr.f 0 0) = false) ∧
    ((sArr.portEvent 0 19).port 0).frame = (sArr.port 0).frame ∧
    (fArr.pb.embEn 0 = true ∧ fArr.arr.embBytes + (pkt 0).payload.length ≤ 8192 ∧ (pkt 0x2A).dt.toNat ≠ fArr.pb.dt 0) ∧
    (let s := (running (withF (small 1) (pB 0) 2 0x00032E02) 0).modFrame 0 false fun f => { f with started := true }
     ∀ f, (s.port 0).frame = some f → f.pb.lineNum 0 = true) := by
  refine ⟨by decide +kernel, by decide +kernel, by decide +kernel, ?_⟩
  intro s f h
  have : ((s.port 0).frame.map fun f => f.pb.lineNum 0) = some true := by decide +kernel
  rw [h] at this
  exact Option.some.inj this
theorem wit_WindowsAndPortTests :
    (let s := sUp.modPort 1 fun x => { x with windowOpen := true, batch := 1 }
     s.serial.mp1 = none ∧ (s.port 1).windowOpen = true ∧ (s.port 1).batch ≠ 0) ∧
    (let s := (sUp.modPort 1 fun x => { x with windowOpen := true }).modUnit (uPort 1) fun x => { x with st := 2 }
     (s.port 1).windowOpen = true ∧ (s.port 1).batch = 0 ∧ (s.port 1).frame = none ∧ (s.port 1).selfTest = false ∧
       s.thermal.shutdown = false ∧ (s.unit (uPort 1)).st = 2) := by decide +kernel
/-- The same port, band 0 on lane 0, its blind row taken. -/
def sBand : State :=
  (sArr.modCluster 0 fun k => { k with mhz := 500 }).modFrame 0 false fun f =>
    { f with bands := [⟨0, 0, 8⟩], rows := [⟨0, 0, 8, false⟩, ⟨0, 1, 8, false⟩], nextRow := [(0, 2)], profile := 0 }
def fBand : Frame := ((sBand.port 0).frame).get (by decide +kernel)
theorem wit_HearthInvocations :
    ((sBand.port 0).fr false = some fBand ∧ sBand.mayInvoke 0 fBand 0 0 0 = true) ∧ ((sL 5 id).lane 5).invoc.isSome = true ∧
    ((sL 5 fun c => { c with block := .interlock 0 4 }).lane 5).ctx.block = .interlock 0 4 := by
  refine ⟨⟨?_, ?_⟩, rfl, rfl⟩
  · unfold fBand PortS.fr; simp
  · decide +kernel
/-- The frame with every pixel through phase C. -/
def sDone : State := sBand.modFrame 0 false fun f =>
  (List.range 8).foldl (fun g a => g.setPx 0 0 a { g.px 0 0 a with doneC := true }) f
def fDone : Frame := ((sDone.port 0).frame).get (by decide +kernel)
theorem wit_FramesLeaveTheHearth :
    ((sDone.port 0).fr false = some fDone ∧ fDone.bands = [⟨0, 0, 8⟩] ∧ fDone.bands.find? (fun b => b.lane == 0) = some ⟨0, 0, 8⟩ ∧ fDone.processed = true ∧ fDone.profile ≠ 1 ∧ fDone.ended = false ∧
      0 < fDone.pb.rows 0 ∧ 0 + 8 ≤ fDone.pb.cols 0 ∧
      ∀ i, i < 8 → (fDone.px 0 0 (0 + i)).doneC = true ∧ (fDone.px 0 0 (0 + i)).word = none ∧ (fDone.px 0 0 (0 + i)).lost = false) ∧
    (let s := sUp.modPort 3 fun x => { x with notify := 1 }
     (4 : Eng).val = (3 : Port).val + 1 ∧ (s.port 3).notify &&& 0xFFFF0003 ≠ 0 ∧ ((s.eng 4).chans.get 15).length < 4) ∧
    (let s := sArr.modPort 0 fun x => { x with tail := some { fArr with skipped := true } }
     (s.port 0).tail = some { fArr with skipped := true } ∧ fArr.deadlinePassed = false ∧ ({ fArr with skipped := true } : Frame).processed = false ∧
       ∀ l, (s.lane l).abandoned = none) := by
  refine ⟨⟨?_, ?_, ?_, ?_, ?_, ?_, ?_, ?_, ?_⟩, ?_, rfl, rfl, rfl, ?_⟩
  · unfold fDone PortS.fr; simp
  all_goals decide +kernel


/-! ### What the hypotheses of the statements are met by: transits, the store, twins, the analog die -/

/-- A transit of port 0 (an array of 8 columns and `n` rows), changed by `f`. -/
def tr01 : Transit := Transit.start 0 0 false 1
def sTr (n : Nat) (f : Transit → Transit) : State := (small n).modTransit fun t => { t with cur := some (f tr01) }
def trFr : Frame := { fArr with heldStart := true, rows := [⟨0, 0, 8, false⟩, ⟨0, 1, 8, false⟩] }
def trCur : Transit := { tr01 with step := 4, flats := 1, lastFlat := some trFr.m }
def trSt : State := (((small 1).modTransit fun t => { t with cur := some trCur }).modPort 0 fun x => { x with tail := some trFr }).modCluster 0
  fun k => { k with mhz := 500 }
theorem wit_TransitSteps :
    ((sTr 1 id).thermal.held = false ∧ (sTr 1 id).transit.cur = some tr01 ∧ tr01.dome = false ∧ tr01.merging = false ∧
      tr01.step = 2 ∧ (∀ q, ((sTr 1 id).port q).transitHold = false) ∧ (sTr 1 fun c => { c with step := 6 }).transit.cur = some { tr01 with step := 6 }) ∧
    (let s := (sTr 1 id).modPort 3 fun x => { x with transitHold := true }
     (s.port 3).transitHold = true ∧ (s.port 3).holdEnds = false ∧ tr01.port ≠ 3) ∧
    (trSt.thermal.held = false ∧ trSt.transit.cur = some trCur ∧ trSt.transitLane 5 = true ∧
      0 < trSt.params.force.rows 0 ∧ 0 + 8 ≤ trSt.params.force.cols 0 ∧ trSt.accFrame trCur 0 0 = some (trFr, 1) ∧
      0 < trFr.pb.rows 0 ∧ 0 + 8 ≤ trFr.pb.cols 0 ∧ trCur.step = 4) ∧
    trSt.sampleBad 0 trFr (trFr.pb.blindRows 0 + 0) (trFr.pb.left 0 + 0) = false ∧
    (let c : Transit := { trCur with step := 5, accDone := [(1, 0, 0)] }
     c.finDone.contains (0, 0) = false ∧ trSt.params.force.rows 0 = 1 ∧ trSt.params.force.cols 0 / 8 = 1 ∧ c.flats = 1 ∧
       c.accDone.contains (0 + 1, 0, 8 * 0) = true ∧ ({ c with finDone := [(0, 0)] } : Transit).finDone.contains (0, 8 * 0) = true) ∧
    (let s := (sTr 2 fun c => { c with merging := true }).modTransit fun t => { t with mergePort := some 0 }
     s.transit.mergePort = some 0 ∧ 0 < s.params.force.rows 0 ∧ s.transit.mergedRows.contains 0 = false ∧ s.rowAwaits 0 0 = false ∧
       s.transit.mergedRows.length + 1 < s.params.force.rows 0) ∧
    (let s := (sTr 2 fun c => { c with merging := true }).modTransit fun t => { t with mergePort := some 0, mergedRows := [0] }
     s.transit.mergePort = some 0 ∧ 1 < s.params.force.rows 0 ∧ s.transit.mergedRows.contains 1 = false ∧ s.rowAwaits 0 1 = false ∧
       s.transit.mergedRows.length + 1 = s.params.force.rows 0) := by
  refine ⟨⟨rfl, rfl, rfl, rfl, rfl, ?_, rfl⟩, ?_, ⟨rfl, rfl, ?_, ?_, ?_, ?_, ?_, ?_, rfl⟩, ?_, ?_, ?_, ?_⟩
  all_goals decide +kernel

def sTrim : State := (sUp.modEng engME fun e => { e with st := 1 }).modClocks fun c => { c with refOk := true }
theorem wit_ProductionLoadsAndTrims :
    (let s := (running sUp 2).modTransit fun t => { t with prodBusy := true, prodPorts := 4 }
     s.thermal.held = false ∧ s.transit.prodBusy = true ∧ s.serial.mp0 = none ∧ s.mp0Soft 0 = false ∧
       s.transit.prodPorts = 1#4 <<< (2 : Port).val ∧ (s.port 2).st = .running) ∧
    (sTrim.thermal.held = false ∧ sTrim.boot.step = 3 ∧ sTrim.clocks.refOk = true ∧ (sTrim.eng engME).st = 1) ∧
    (sTrim.modTransit fun t => { t with trimAsk := true }).trimDue = true ∧ (sUp.port 1).st ≠ .running ∧
    (sTrim.sextant.stopped = false ∧ sTrim.modRetired 0 = false ∧ 16 * rndDiv 48 16 < (64000048 : Int) ∧ (48 : Int) ≤ 16 * rndDiv 48 16 ∧
      (sTrim.modFm fun m => { m with map := { m.map with mods := 8 } }).modRetired 3 = true) := by decide +kernel
/-- A section of the array of 8 × 1 pixels whose entries are zeros: its header, with both CRCs right. -/
def prodHead0 : List W := [0x50524F44, 1, 0x00010008, 0, 0, 0, 48, crc32c (List.replicate 48 0), 0, 0, 0, 0, 0, 0, 0]
theorem wit_ProductionLoadsAndTrims_section : ((small 1).port 0).st ≠ .running ∧
    prodHeader (small 1).params.force 0 (prodHead0 ++ [crcWords prodHead0]) = none ∧
    crc32c (List.replicate 48 0) = nthW (prodHead0 ++ [crcWords prodHead0]) 7 ∧
    (small 1).params.force.cols 0 * (small 1).params.force.rows 0 * 6 = 48 := by
  have n : ∀ c d : W, (let l := [0x50524F44, 1, 0x00010008, 0, 0, 0, 48, d, 0, 0, 0, 0, 0, 0, 0]
      (l ++ [c]).take 15 = l ∧ nthW (l ++ [c]) 15 = c ∧ nthW (l ++ [c]) 7 = d ∧ nthW (l ++ [c]) 0 = 0x50524F44 ∧ nthW (l ++ [c]) 1 = 1 ∧
        nthW (l ++ [c]) 2 = 0x00010008 ∧ nthW (l ++ [c]) 6 = 48) := fun c d => ⟨rfl, rfl, rfl, rfl, rfl, rfl, rfl⟩
  obtain ⟨n1, n2, n3, n4, n5, n6, n7⟩ := n (crcWords prodHead0) (crc32c (List.replicate 48 0))
  refine ⟨by decide +kernel, ?_, n3.symm, by decide +kernel⟩
  change prodHeader _ _ ([0x50524F44, 1, 0x00010008, 0, 0, 0, 48, crc32c (List.replicate 48 0), 0, 0, 0, 0, 0, 0, 0] ++ [crcWords prodHead0]) = none
  unfold prodHeader
  simp only [n1, n2, n4, n5, n6, n7]
  rw [if_neg, if_neg]
  · decide +kernel
  · rintro (h | h | h | h)
    · exact h rfl
    · exact absurd h (by decide)
    · exact absurd h (by decide)
    · exact h rfl

theorem wit_RowsMigrationAndScrub :
    (sUp.modStore fun t => { t with seqs := [⟨1, 2, 3, 0, 0, 0⟩] }).seqAt 1 2 (3 : BitVec 13).toNat 0 = some ⟨1, 2, 3, 0, 0, 0⟩ ∧
    (sUp.modStore fun t => { t with seqs := [⟨1, 2, 3, 0, 2, 0⟩] }).seqAt 1 2 (3 : BitVec 13).toNat 2 = some ⟨1, 2, 3, 0, 2, 0⟩ ∧
    (let s := sUp.modStore fun t => { t with mig := true, migNext := 2 }
     s.store.mig = true ∧ s.store.migNext - 1 ≠ 0) ∧
    (let s := sUp.modStore fun t => { t with mig := true, migNext := 1 }
     s.store.mig = true ∧ s.store.migNext - 1 = 0) ∧
    (let s := sUp.modStore fun t => { t with hard := [7], soft := [9] }
     7 ∉ s.store.poison ∧ 7 ∈ s.store.hard ∧ 9 ∉ s.store.poison ∧ 9 ∉ s.store.hard ∧ 9 ∈ s.store.soft) ∧
    (5 ∈ (sUp.modStore fun t => { t with poison := [5] }).store.poison) ∧
    (2 ≤ sUp.boot.step.val ∧ sUp.boot.step ≠ 5 ∧ sUp.unbacked (8 * ((0x10000000 : W).toNat / 8)) 8 = false) := by
  decide +kernel

theorem wit_UnitTestsDecide :
    (let s := sUp.modUnit (uLane 7) fun x => { x with st := 1 }
     s.thermal.held = false ∧ s.thermal.shutdown = false ∧ (s.unit (uLane 7)).st = 1 ∧ s.drained (uLane 7) = true) ∧
    (let s := sUp.modUnit (uLane 7) fun x => { x with st := 2 }
     (s.unit (uLane 7)).st = 2 ∧ (uLane 7).val < 108 ∧ (s.unit (uLane 7)).byError = false ∧ (uLane 7).val < 96 ∧ (s.unit (uLane 7)).st ≠ 6) ∧
    (let s := (running sUp 1).modUnit (uLane 7) fun x => { x with st := 6 }
     s.anyRunning = true ∧ (uLane 7).val < 134 ∧ (s.unit (uLane 7)).st = 6) ∧
    (let s := (sUp.modUnit (uPort 1) fun x => { x with st := 2 }).modPort 1 fun x => { x with selfTest := true }
     (s.unit (uPort 1)).st = 2 ∧ (uPort 1).val = 108 + (1 : Port).val ∧ (s.port 1).selfTest = true) ∧
    (let s := sUp.modUnit (uSensor 44) fun x => { x with st := 2 }
     (s.unit (uSensor 44)).st = 2 ∧ 44 ≤ (44 : Fin 48).val) ∧
    (let s := sUp.modStore fun t => { t with seqs := [⟨1, 2, 3, 0, 1, 0⟩] }
     (⟨1, 2, 3, 0, 1, 0⟩ : RowSeq) ∈ s.store.seqs ∧ s.store.seqs = [⟨1, 2, 3, 0, 1, 0⟩] ∧ (3 : Nat) < 8192) := by decide +kernel

/-- A device of a pair in LOCKSTEP. -/
def sTw (f : Twin → Twin) : State := (withF sUp 2 0 1).modTwin fun t => f { t with st := 4, trained := true }
theorem wit_LinkFrames :
    (let s := sTw fun t => { t with lastHeart := #v[4, 9, 0, 0], ackDue := true, unacked := [⟨4, 0, 0, 1, 0, []⟩] }
     s.thermal.held = false ∧ s.linkUp = true ∧ bitOf (4 : W) 7 = false ∧ fld (4 : W) 10 8 ≤ s.thermal.stage ∧
       s.twin.lastHeart ≠ Vector.replicate 4 0 ∧ (10 : W) = s.twin.lastHeart.get 1 + 1 ∧ (11 : W) ≠ s.twin.lastHeart.get 1 + 1 ∧
       s.heard ⟨0, 0, true⟩ ∧ (s.rxAck 0).linkUp = true ∧ (s.rxAck 0).chanRoom engME 3 = true ∧
       (1 : Byte) ≠ (s.rxAck 0).twin.rxSeq ∧ s.twin.trained = true ∧ s.twin.queue = [] ∧ s.twin.ackDue = true ∧
       s.twin.unacked ≠ [] ∧ s.twin.unacked.length < 128 ∧ ([1] : List W).length < 512) ∧
    (let s := (sTw fun t => { t with imgAsked := true }).modBoot fun b => { b with step := 2, bootsel := 2 }
     s.heard ⟨0, 0, true⟩ ∧ (s.rxAck 0).boot.step = 2 ∧ (s.rxAck 0).boot.bootsel = 2 ∧ (s.rxAck 0).twin.imgAsked = true) := by
  unfold State.heard State.up; decide +kernel

theorem wit_PairsFormAndPart :
    (let s := sTw fun t => { t with st := 1, trained := false }
     s.thermal.held = false ∧ s.twin.trained = false ∧ s.twinEn = true ∧ s.boot.step ≠ 2 ∧ s.twin.st = 1) ∧
    (let s := (withF sUp 2 0 5).modTwin fun t => { t with st := 5 }
     s.twin.trained = false ∧ s.twinEn = true ∧ s.boot.step ≠ 2 ∧ s.twin.st = 5 ∧ bitOf (s.params.force.fld 2 0) 2 = true) ∧
    (let s := sTw fun t => { t with trained := false }
     s.twin.trained = false ∧ s.twinEn = true ∧ s.twin.st = 4) ∧
    (let s := (sTw fun t => { t with st := 0, trained := false }).modBoot fun b => { b with step := 2, bootsel := 2 }
     s.twin.trained = false ∧ s.boot.step = 2 ∧ s.boot.bootsel = 2) ∧
    (let s := sTw fun t => { t with st := 2, owner := true }
     s.heard ⟨0, 0, true⟩ ∧ (s.rxAck 0).twin.st = 2 ∧ s.twin.trained = true ∧ s.twin.st ≠ 5 ∧ nthW ([1, 2, 3] : List W) 3 ≠ idWord ∧
       s.twin.owner = true ∧ s.linkUp = true ∧ s.twin.laterD = none ∧ s.nv.sent = [] ∧ nthW [1, 2, 3, idWord, 5] 3 = idWord) := by
  unfold State.heard State.up; decide +kernel
theorem wit_PairsFormAndPart_digest (s : State) : nthW [1, 2, 3, idWord, s.imageDigest, 6] 4 = s.imageDigest := rfl

def agr1 : Agreement := ⟨1, 5, 0, false, 0, 0, 0, 0, 0, 0, [], [], [], [], [], []⟩
theorem wit_AgreementAndResync :
    (let s := sTw fun t => { t with prime := true }
     let v := (s.rxAck 0).linkRx
     s.heard ⟨0, 0, true⟩ ∧ (s.rxAck 0).linkUp = true ∧ (s.rxAck 0).twinning = true ∧ fld (nthW ([1] : List W) 0) 1 0 = (1 : Port).val ∧
       v.twin.prime = true ∧ v.twin.captured.any (fun a => a.port == 1) = false ∧ (0 : W) = v.agreedMer 1 ∧ (9 : W) ≠ v.agreedMer 1) ∧
    (let v := ((running (sTw id) 0).rxAck 0).linkRx
     v.twin.prime = false ∧ ([] : List W).length < 512 ∧ v.twin.agreeIn = [] ∧ v.anyRunning = true) ∧
    (let s := sTw fun t => { t with prime := true, captured := [agr1] }
     s.twinning = true ∧ (s.port 1).windowOpen = false ∧ (s.twin.captured.find? fun a => a.port = (1 : Port)) = some agr1) ∧
    (let s := sTw fun t => { t with prime := true }
     let v := ((s.modTwin fun t => { t with captured := [agr1] }).rxAck 0).linkRx
     v.twin.captured.any (fun a => a.port == 1) = true) ∧
    (∀ k : Fin 3,
     let r : ResyncRow := { port := 1, row := 0, frame := nthW [0, 1, 0xFFFFFFFF] k.val, records := [], slots := [], portState := none }
     let s := sTw fun t => { t with sweep := true, rowsIn := [r] }
     let ahead := (r.frame - s.agreedMer 1).toNat
     s.twinning = true ∧ (s.twin.rowsIn.find? fun r => r.port = (1 : Port) ∧ r.row = 0) = some r ∧
       ((s.rowPlace 1 0).any fun e => e.1 == r.frame) = decide (k = 0) ∧ (k = 1 → 1 ≤ ahead ∧ ahead < 2 ^ 31) ∧
       (k = 2 → ¬ ((1 ≤ ahead ∧ ahead < 2 ^ 31) ∨ (ahead = 0 ∧ s.rowDone 1 0 = false)))) ∧
    (let s := (withF (small 1) 2 0 1).modTwin fun t =>
       { t with st := 3, trained := true, prime := true, sweep := true, sweepPort := 0, outStep := t.outStep.set 0 true }
     0 < s.params.force.rows 0 ∧ (s.rowPlace 0 0).isSome = true ∧ s.twin.sweep = true ∧ s.twin.sweepPort = 0 ∧ s.twin.isSource 0 = true ∧
       0 = s.twin.sweepRow ∧ (s.modTwin fun t => { t with sweepRow := 1 }).twin.sweepRow = 1 ∧ s.twinning = true) ∧
    (let s := (withF (small 1) 2 0 1).modTwin fun t => { t with st := 4, trained := true, sendTiles := [(0, 0)] }
     s.twin.sweep = false ∧ ((tilesAt s.params.force 0 0).any fun k => s.twin.sendTiles.contains (0, k)) = true ∧
       (s.rowPlace 0 0).isSome = true) := by
  unfold State.heard State.up; decide +kernel
theorem wit_AgreementAndResync_begun :
    let f : Frame := { fArr with pix := [(0, { fArr.px 0 0 0 with doneA := true })] }
    let s := sArr.modPort 0 fun x => { x with frame := some f }
    s.rowDone 0 0 = true ∧ s.rowBegun 0 0 = true ∧ s.rowPlace 0 0 = none := by decide +kernel

theorem wit_OwnershipChanges :
    (let s := (sUp.modTwin fun t => { t with owner := true }).modEng engME fun e => { e with st := 1 }
     s.twin.owner = true ∧ s.thermal.held = false ∧ (s.eng engME).st = 1 ∧ s.twinEn = false ∧ s.fmRefreshes = false ∧
       (s.modTwin fun t => { t with watchdog := false }).mayOwn = true) ∧
    (let s := sTw fun t => { t with owner := true }
     s.twinEn = true ∧ s.serial.gpio.getLsbD 15 ≠ true ∧ s.twin.owner = true) ∧
    (let s := (sTw fun t => { t with st := 5 }).modSerial fun x => { x with gpio := 0x8000 }
     s.thermal.held = false ∧ s.twinEn = true ∧ s.serial.gpio.getLsbD 15 = true ∧ s.twin.owner = false ∧ s.twin.st = 5) := by decide +kernel

/-- The pins with nothing but the reference and AIN8 driven; and a conversion of them. -/
def pinsOf (ain8 rx : Int) : SxPins :=
  { ain := (List.replicate 32 0).set 8 ain8, vrefx := 0, rxref := rx, vint := 2500000000, vdda := 0, vact := 0, core := 0, stk := 0, vpp := 0,
    phy := 0, diode := 0 }
def convOf (ain8 rx : Int) : RawConv := ⟨pinsOf ain8 rx, 0, 0, false, false, false⟩
def conv5 : RawConv := convOf 5 0
/-- Modulator 2 enabled with a trigger, as `f` leaves it. -/
def sSx (f : SxMod → SxMod) : State :=
  ((withF sUp 0x1C2 0 0x25).modClocks fun c => { c with refOk := true }).modMod 2 f
theorem wit_SextantSequences :
    (let s := sSx id
     s.sextant.stopped = false ∧ s.clocks.refOk = true ∧ (s.unit (uMod 2)).st = 0 ∧ (s.mod 2).testing = false ∧ (s.mod 2).inGap = false ∧
       bitOf (sxCtl s.params.force 2) 0 = true ∧ sxTrig (sxCtl s.params.force 2) = 1 ∧
       s.modRetired 2 = false ∧ (s.mod 2).cond = .idle ∧ s.thermal.held = false ∧ bitOf (sxCtl s.params.force 2) 5 = true ∧
       ((s.eng engCE).chans.get 12).length ≤ 2) ∧
    ((sSx fun x => { x with cond := .delaying }).mod 2).cond = .delaying ∧ ((sSx fun x => { x with cond := .delaying }).mod 2).cond ≠ .idle ∧
    ((sSx fun x => { x with cond := .delaying }).mod 2).pend = none ∧
    ((sSx fun x => { x with cond := .delaying, pend := some 9 }).mod 2).pend.isSome = true ∧
    (let e : SxEntry := ⟨1, 0, 0⟩
     let s := sSx fun x => { x with cond := .converting, chain := [e, e] }
     let c := conv5
     (s.mod 2).cond = .converting ∧ (s.mod 2).chain = e :: [e] ∧ (s.mod 2).checking = none ∧ c.residueFail = false ∧ sxOutside c = false ∧
       sxReference (fld e.w0 9 8) c.pins ≠ 0 ∧ sxReference 1 c.pins = 0 ∧ (s.mod 2).conv + 1 = e.reps ∧ [e] ≠ []) ∧
    (let e : SxEntry := ⟨1, 0, 0⟩
     let s := sSx fun x => { x with cond := .converting, chain := [e, e] }
     (s.mod 2).chain = e :: [e] ∧ ({ conv5 with residueFail := true } : RawConv).residueFail = true ∧
       ((s.sxError 2).unit (uMod 2)).st = 1) ∧
    (let s := (sSx fun x => { x with testing := true }).modUnit (uMod 2) fun u => { u with st := 2 }
     (s.mod 2).testing = true ∧ (s.unit (uMod 2)).st = 2 ∧ s.thermal.shutdown = false ∧ s.thermal.held = false) ∧
    (let s := sSx fun x => { x with trimming := some (30, 1, 2) }
     (s.unit (uMod 2)).st = 0 ∧ (s.mod 2).testing = false ∧ (s.mod 2).checking = none ∧ (s.mod 2).trimming = some (30, 1, 2)) ∧
    (let e : SxEntry := ⟨1, 0x01000000, 0⟩
     let s := sSx fun x => { x with cond := .converting, chain := [e] }
     (s.mod 2).chain = e :: [] ∧ (s.mod 2).conv + 1 < e.reps) ∧
    ((sSx fun x => { x with fifo := [(1, 2)] }).mod 2).fifo = (1, 2) :: [] := by decide +kernel

/-- Bellows channel 5 as `f` leaves it. -/
def sBl (f : Blw → Blw) : State := sUp.modBlw 5 f
theorem wit_BellowsPhases :
    (((sBl id).unit (uBlw 5)).st = 0 ∧ ((sBl id).blw (otherBlw 5)).req = none ∧ (sBl id).up ∧ (sBl id).readyI (0x1D0 + (5 : Fin 8).val) = none ∧
      ((sBl id).modThermal fun t => { t with held := true }).thermal.held = true ∧
      (sBl id).drives = true ∧ (sTw id).drives = false ∧ (sBl id).bellows.lowVact = false) ∧
    (((sBl fun b => { b with st := 2 }).blw 5).st = 2 ∧ 4 ≤ (5 : Fin 8).val ∧ (sUp.blw 1).wantClosed = false ∧ (1 : Fin 8).val < 4) ∧
    (let s := sUp.modBlw 1 fun b => { b with st := 2, wantClosed := true, act := { b.act with pos := false, ipull := 500 } }
     let u := (s.modBlw 1 fun b => { b with st := 3, target := b.act.ihold, phasePeriods := 0, measured := 500 }).blwReeval 1
     (s.blw 1).act.pos = false ∧ 100 ≤ (s.blw 1).act.ipull ∧ 9 * (s.blw 1).act.ipull ≤ 10 * (500 : BitVec 16).toNat ∧
       10 * (500 : BitVec 16).toNat ≤ 11 * (s.blw 1).act.ipull ∧ u.blwFree 1 = true) ∧
    (let s := sBl fun b => { b with st := 3, act := { b.act with pulse := true } }
     (s.blw 5).st = 3 ∧ (s.blw 5).act.pulse = true) ∧
    (((sBl fun b => { b with st := 4 }).blw 5).st = 4 ∧ (sBl fun b => { b with st := 4 }).blwOut 5 = false ∧
      blwPar (sBl fun b => { b with st := 4 }).params.force 5 = false) ∧
    ((sBl fun b => { b with st := 3 }).drives = true ∧ (sBl fun b => { b with st := 3 }).blwLive 5 = true ∧
      ((sBl fun b => { b with st := 3 }).blw (((sBl fun b => { b with st := 3 }).pairOf 5).getD 5)).st ≠ 4) ∧
    (let s := sBl fun b => { b with wantOpen := true, act := { b.act with pos := false } }
     (s.blw 5).wantOpen = true ∧ (s.blw 5).act.pos = false ∧ (s.blw 5).st = 0) ∧
    (let s := sBl fun b => { b with st := 3, wantClosed := true, act := { b.act with pos := true, plevel := true } }
     (s.blw 5).act.pos = true ∧ (s.blw 5).wantClosed = true ∧ (s.blw 5).st = 3 ∧ true = (s.blw 5).act.plevel) ∧
    (let s := sBl fun b => { b with wantOpen := true, act := { b.act with pos := true, plevel := true } }
     (s.blw 5).wantClosed = false ∧ (s.blw 5).wantOpen = true ∧ false ≠ (s.blw 5).act.plevel) ∧
    (((sBl fun b => { b with st := 5 }).blw 5).st = 5 ∧ (⟨90, 110, 20, 4⟩ : PulseResult).apart ≤ 20) := by
  unfold State.up; decide +kernel

theorem wit_TemperatureReadings :
    (rs.thermalUp = false ∧ 40 ≤ (41 : Fin 48).val ∧ (41 : Fin 48).val < 44) ∧
    ((sUp.modUnit (uSensor 0) fun u => { u with st := 2 }).unit (uSensor 0)).st = 2 ∧
    (let s := sUp.modThermal fun t => { t with table := [0, 0x60005000, 0x7000] }
     s.thermalUp = true ∧ (0 : Fin 48).val < 44 ∧ s.thermal.shutdown = false ∧ s.sensorVal 0 = 0 ∧ (1600 : BitVec 16).toInt < 11200 ∧
       (1600 : BitVec 16).toInt < shutOf s.thermal (zoneOfSensor 0) ∧ s.neighbourReads 0 = [] ∧ -3840 ≤ (1600 : BitVec 16).toInt ∧
       (-4000 : BitVec 16).toInt < -3840 ∧ (s.unit (uSensor 0)).st ≠ 2) ∧
    (let s := sUp.modUnit (uSensor 3) fun u => { u with st := 7 }
     (s.unit (uSensor 3)).st = 7 ∧ (3 : Fin 48).val < 44 ∧ s.crossCheck 3 (12000 : BitVec 16).toInt = false ∧
       s.crossCheck 3 (1600 : BitVec 16).toInt = true) ∧
    (let s := sUp.modSensor 0 fun x => { x with thr := true }
     s.zoneHot 0 = true ∧ (1 : Fin 5).val = (s.thermal.zones.get 0).val + 1) ∧
    (let s := sUp.modThermal fun t => { t with zones := t.zones.set 1 2 }
     s.zoneHot 1 = false ∧ s.zoneSuspect 1 = false ∧ s.zoneBroken 1 = false ∧ (1 : Fin 5).val + 1 = (s.thermal.zones.get 1).val) ∧
    (let s := sUp.modEng engME fun e => { e with st := 1 }
     (s.eng engME).st = 1 ∧ s.thermal.vcoreTicks = none ∧ 720 ≤ (760 : BitVec 10).toNat ∧ (760 : BitVec 10).toNat ≤ 800 ∧
       800 < (801 : BitVec 10).toNat) := by decide +kernel

theorem wit_PowerAndResets :
    (sUp.thermal.pfail = true ∧ sUp.thermal.pfStep = 0 ∧ sUp.thermal.shutdown = false ∧ sUp.nv.writes = []) ∧
    ((sUp.modThermal fun t => { t with handCause := 1, pfStep := 2 }).thermal.handCause = 1 ∧
      (sUp.modThermal fun t => { t with handCause := 1, pfStep := 2 }).thermal.pfStep = 2) ∧
    ((sUp.modThermal fun t => { t with handCause := 2, resetN := true }).thermal.handCause = 2 ∧
      (sUp.modThermal fun t => { t with handCause := 2, resetN := true }).thermal.pfStep = 0) ∧
    (3 ≤ (sUp.modThermal fun t => { t with pfStep := 4 }).thermal.pfStep.val) ∧
    (∀ b : Bool, let s := sUp.modThermal fun t => { t with pfStep := 5, resetN := b }
     s.thermal.pfStep = 5 ∧ s.thermal.shutdown = false ∧ s.thermal.resetN = b) := by decide +kernel

theorem wit_TheSextantStops :
    (sUp.thermal.pfail = true ∧ sUp.thermal.pfStep = 0 ∧ sUp.thermal.shutdown = false ∧ ∃ t, exec .powerFail sUp = .next t) ∧
    ({ sUp with sextant := { sUp.sextant with stopped := true } } : State).sextant.stopped = true := ⟨⟨rfl, rfl, rfl, ⟨_, rfl⟩⟩, rfl⟩

theorem wit_PasswordsOpenRegions :
    (sPw.nv.itemRead itemPasswords).length = 64 ∧ (∀ b ∈ sPw.nv.password 0 false, b = 0) ∧ (∀ b ∈ sPw.nv.password 1 true, b = 0) := by
  unfold Nv.password; rw [pwRead]; decide +kernel

theorem wit_OverdueFollowsTheInterval :
    (sUp.port 0).profile ≠ 2 ∧ ((sUp.modPort 0 fun x => { x with profile := 2 }).port 0).profile = 2 ∧
    ((withF sUp 1 2 0x00010000).sinceCommit 0 < (withF sUp 1 2 0x00010000).effInterval 0) ∧ (withF sUp 1 2 0).effInterval 0 ≤ (withF sUp 1 2 0).sinceCommit 0 ∧
    (sTr 1 id).transit.cur = some tr01 := by
  refine ⟨?_, ?_, ?_, ?_, rfl⟩ <;> decide +kernel


/-! ### Ill-formed commands are refused: one of each check of `Instr.wf` -/

theorem test_wf_hello : Instr.wf (.hello [0, 0, 0] ⟨0, 0, true⟩) = false := by decide
theorem test_wf_propose : Instr.wf (.propose [0, 0] ⟨0, 0, true⟩) = false ∧ Instr.wf (.propose [0, 0, 0] ⟨0, 0, true⟩) = false ∧
    Instr.wf (.propose (List.replicate 514 0) ⟨0, 0, true⟩) = false := by decide +kernel
theorem test_wf_agree : Instr.wf (.agree (List.replicate 7 0) ⟨0, 0, true⟩) = false := by decide
theorem test_wf_almanac : Instr.wf (.almanac [0, 0] ⟨0, 0, true⟩) = false := by decide
theorem test_wf_digest : Instr.wf (.digest 0 0 (List.replicate 256 ⟨0, 0, 0⟩) none ⟨0, 0, true⟩) = false := by decide +kernel
theorem test_wf_nvwrite : Instr.wf (.nvwrite 0 0 [] ⟨0, 0, true⟩) = false ∧ Instr.wf (.nvwrite 0 255 [1, 2] ⟨0, 0, true⟩) = false := by decide
theorem test_wf_image : Instr.wf (.image [1] ⟨0, 0, true⟩) = false ∧ Instr.wf (.image (List.replicate 2056 0) ⟨0, 0, true⟩) = false := by decide +kernel
theorem test_wf_packets : RowPkt.wf ⟨0, 0, .ok, true, none, List.replicate 65536 0⟩ = false := by
  unfold RowPkt.wf; rw [List.length_replicate]; decide
theorem test_wf_trim : Instr.wf (.selfTrimPass ⟨[], 0, 0⟩) = false := by decide
theorem test_wf_production : Instr.wf (.productionLoadDone [(2 ^ 32, [])] none) = false := by decide
theorem test_wf_accepts : Instr.wf (.hello (List.replicate 6 0) ⟨0, 0, true⟩) = true ∧ Instr.wf (.image (List.replicate 8 0) ⟨0, 0, true⟩) = true := by decide

/-! ### No row of the table gives bits: no word spells a command -/

theorem test_no_words (n w : Nat) : decodeTableWord n w = none := rfl

/-! ### The spec's worked examples -/

/-- Lane 0 with `v0`, `va` and `vb` in elements of v0, v1 and v2. -/
def sV (v0 va vb : W) : State :=
  (sL 0 id).modLane 0 fun x => { x with v := ((x.v.set 0 (.replicate 8 v0)).set 1 (.replicate 8 va)).set 2 (.replicate 8 vb), p := x.p.set 0 0xFF }
/-- Element 7 of v0 after a command. -/
def out0 (o : Host.Outcome State Fault Refusal) : Option W :=
  match o with
  | .next t => some (((t.lane 0).v.get 0).get 7)
  | _ => none
/-- The table after R80: row 6, row 10 and row 12. -/
theorem test_r80_vpoly : out0 (exec (.vpoly (zL 0) 0 0 1 2 16 20 true) (sV 93504 49152 0x01000280)) = some 93015 := by decide +kernel
theorem test_r80_vmac : out0 (exec (.vmac (zL 0) 0 0 1 2 16 0 false true) (sV 93015 384 16384)) = some 92919 := by decide +kernel
theorem test_r80_vmul : out0 (exec (.vmul (zL 0) 0 0 1 2 28 2 false) (sV 0 92919 285212672)) = some 98726 := by decide +kernel
/-- Row 14: v0 − v7 of the table, and its saturation. -/
theorem test_r80_vsub : out0 (exec (.vsub (zL 0) 0 0 1 2 1) (sV 0 98726 (-128))) = some 98854 := by decide +kernel
theorem test_r80_reference : stage23 3160448 0 0 (recVals (nthW [0x002ECC40, 0x11000000, 0x01000280, 0x180, 0xFFFFFF80])) 49152 16384 =
    (98854, 0) := by decide +kernel

/-- "One pixel through stages 1 to 4": stage 1. -/
theorem test_pixel_stage1 : stage1 64 1 4 6 0x36C48000 0x2400 256 [14031, 14018, 14026, 14090, 14022, 14015, 14029, 14020] =
    ⟨3589888, 0x36C4A800, 0x2389, 1, false, 163840, 0⟩ := by decide +kernel
theorem test_pixel_stage23 : stage23 3589888 (-832) 384 (recVals (nthW [0x003552C0, 0x0F800000, 0x0200FE40, 0x00FB0200, 0x40])) (-32768) 8192 =
    (92401, 0) := by decide +kernel
/-- Stage 4 of its eastern neighbour: the pair NW–SE is nearest. -/
theorem test_pixel_stage4 :
    replaceP 0 (fun j => some ([92610, 92700, 92530, 92602, 92455, 92380, 92401, 92495].getD j 0)) = some 92548 := by decide +kernel
/-- Stages 5 and 6 of the same pixel, with the reset values of B+7 and B+8 (R178–R181). -/
theorem test_pixel_stage5 : stage5 (PMap.fld [] (pB 0 + 7)) 3 0 0x1000 92401 (some 92320) (some 92160)
    (some 92480) = (92340, 0x800) := by decide +kernel
theorem test_pixel_stage6 : stage6 true 128 3072 92340 [92410, 92300, 92520, 92390, 92280, 92350, 92330, 95800] = 92352 := by decide +kernel
/-- Stage 7: the kernel's part, and the unit's, on a table that agrees with the example's entries. -/
theorem test_pixel_stage7 : ieOf 0x799A = 17660000 ∧ cobjOf 92352 66560 17660000 = 93709 ∧
    kelvin (fun k => if k ≤ 373 then 93440 - 1280 * (373 - k) else 94720 + 1280 * (k - 374)) true 0x3200 16 false 0 93709 = (18771, 0) := by
  decide +kernel
/-- The dome temperature of SP2 and the finished pixel (R214–R217). -/
theorem test_dome : tdomeOf (withF (withF (withF (withF sUp 1 33 4020000) 1 34 1000000) 1 36 16764109) 1 37 633733) 2 295171627 = 19670032 := by
  decide +kernel
theorem test_flat_pixel :
    finishPix { Transit.start 2 0 false 1 with flats := 16, dtt := 131072, ht := 0, idt := 32768 } 130072 4 0x10000100 0xFFFF0000
      [0x0036C25C, 0x11000000, 0x01000280, 0x180, 0xFFFFFF80] [59402240, 3712640, 0, 1] (-120) =
    [0x2036C84B, 0x01000289, 0x180, 0x36C84B] := by decide +kernel
/-- Block placement in 16- and 15-channel mode (R235). -/
theorem test_placement : blockOf 0x74024DA2 = 950345 ∧ placeOf 950345 none = (9, 7, 2052) ∧ placeOf 950345 (some 5) = (6, 7, 6012) ∧
    blockOf 0xD0000000 = 1572864 ∧ placeOf 1572864 none = (0, 13, 0) ∧ placeOf 1572864 (some 5) = (10, 13, 6553) := by decide +kernel
/-- The false-colour pixel (R263, R264). -/
theorem test_tone : toneMap 0x3C00 6 (List.replicate 53 0 ++ [120, 124]) 18771 = 121 ∧
    yuvBytes (fun i => if i = 121 then 0x00B45A6E else 0x00B85870) [121, 122] = [0x59, 0x6E, 0xB6, 0x70] := by decide +kernel
/-- The code of cluster C5 (R454, R456). -/
theorem test_dco : dcoCode 48212 (-2176) 400 6224 = 32108 := by decide +kernel
/-- M2's sequence for the dome of SP2: its eight conversions make one record of the sum (R349–R352). -/
theorem test_sextant_record :
    let s := sSx fun x => { x with cond := .converting, chain := [⟨0x40, 0x07541204, 0xE00300C8⟩], conv := 7, sum := 7 * 4612057 }
    ∀ t, exec (.sextantConversion 2 (convOf 687250048 2500000000)) s = .next t →
      ((t.mod 2).fifo.map fun r => r.2) = [0xA0070040] := by
  intro s t h; cases h; decide +kernel
/-- Writing GO to LOAD_CTL (R94, R399). -/
theorem test_host_go : ∀ t, exec (.hostWriteSingle 0x1C04 [0x10] .whole) sUp = .next t → t.serial.bufs = [(0x1C04, [0x10])] := by
  intro t h; cases h; decide +kernel
/-- The hot zone of the example steps to stage 1, and the device with it (R380, R381). -/
theorem test_stage_up :
    let s := (sUp.modThermal fun t => { t with table := [0, 0x1CC01900, 0x1F40] }).modSensor 14 fun x => { x with thr := true, everRead := true }
    ∀ t, exec (.stageUp 0) s = .next t → t.thermal.zones.get 0 = 1 ∧ t.thermal.stage = 1 := by
  intro s t h; cases h; decide +kernel

/-! ### Words of Zhomunyx programs, written out bit by bit from the formats and the opcode map (R47–R74) -/

/-- The all-zero word (R48). -/
theorem test_word_zero : zxDecode (.eng 2) 0 = .add ⟨.eng 2, .none⟩ false 0 0 0 := by decide +kernel
/-- sub with F, g3 ← g1 − g2: op 0x00, d 3, a 1, b 2, fn[6] 1, fn[5:0] 0x01; and the same with fn[7] set, which is reserved. -/
theorem test_word_alu : zxDecode (.eng 0) 0b000000_0011_0001_0010_00000001000001 = .sub ⟨.eng 0, .none⟩ true 3 1 2 ∧
    zxDecode (.eng 0) 0b000000_0011_0001_0010_00000011000001 = .sub ⟨.eng 0, .reserved⟩ true 3 1 2 ∧
    zxDecode (.eng 0) 0b000000_0011_0001_0010_00000000001110 = illegalWord (.eng 0) := by decide +kernel
/-- srai g4 ← g5, 33: op 0x05, imm18[7:6] 2, imm18[5:0] 33; form 3 is reserved. -/
theorem test_word_shift : zxDecode (.eng 0) 0b000101_0100_0101_000000000010100001 = .srai ⟨.eng 0, .none⟩ 4 5 33 ∧
    zxDecode (.eng 0) 0b000101_0100_0101_000000000011100001 = illegalWord (.eng 0) := by decide +kernel
/-- ld.w g7 ← [g9 − 4], and st.b [g9 + 3] ← g7. -/
theorem test_word_memory : zxDecode (.lane 5) 0b001000_0111_1001_111111111111111100 = .ldW ⟨.lane 5, .none⟩ 7 9 0x3FFFC ∧
    zxDecode (.lane 5) 0b001111_0111_1001_000000000000000011 = .stB ⟨.lane 5, .none⟩ 7 9 3 := by decide +kernel
/-- A branch on condition 1 to the word before it, a loop of g6, and ret g15. -/
theorem test_word_branch : zxDecode (.eng 1) 0b010001_0001_1111111111111111111111 = .bcc ⟨.eng 1, .none⟩ 1 0x3FFFFF ∧
    zxDecode (.eng 1) 0b010100_0000_0110_000000000000000100 = .loop ⟨.eng 1, .none⟩ 6 4 ∧
    zxDecode (.eng 1) 0b010011_0000_1111_0000_00000000000000 = .ret ⟨.eng 1, .none⟩ 15 := by decide +kernel
/-- send of g2 to channel 13 of destination 6; tile.st; the service code 9, which no service has (R70). -/
theorem test_word_system : zxDecode (.eng 5) 0b010111_0000_0010_0000_000000_0110_1101 = .send ⟨.eng 5, .none⟩ 2 13 6 ∧
    zxDecode (.eng 5) 0b011011_0001_0010_0011_00000000000001 = .tileSt ⟨.eng 5, .none⟩ 1 2 3 ∧
    zxDecode (.eng 5) 0b011100_0001_0010_000000000000001001 = .svcStartTransit ⟨.eng 5, .service⟩ 1 2 := by decide +kernel
/-- vmac v1 ← v2 × v3 under predicate 2, shift 10; vcmp into predicate p1; opcode 0x3D is reserved. -/
theorem test_word_vector :
    zxDecode (.lane 0) 0b110101_001_010_011_10_000000_0_0_00_01010 = .vmac ⟨.lane 0, .none⟩ 2 1 2 3 10 0 false false ∧
    zxDecode (.lane 0) 0b111010_000_010_011_00_00000000000_1_001 = .vcmp ⟨.lane 0, .none⟩ 0 2 3 1 true ∧
    zxDecode (.lane 0) 0b111101_000_000_000_00_000000000000000 = illegalWord (.lane 0) := by decide +kernel

end Sys2Proof.Tests
end

section
/-! SUPPORT. What reports leave alone: an occurrence, a frame on the link, a queued record, the release of a bellows channel and a flush
of the almanac change neither the ports nor the temperature and power unit, nor the store, nor OWNER, nor what a hand-over has noted. -/
namespace Sys2Proof.Machine

/-! ### The part of the state that reports keep -/

/-- What no report changes: the ports, the temperature and power unit, the store, OWNER, the marks of the hand-over (R444). -/
structure Kept where
  ports : Vector PortS 4
  thermal : Thermal
  store : Store
  owner : Bool
  handed : Bool
  incomplete : Bool

/-- That part of a state. -/
def State.kept (s : State) : Kept := ⟨s.ports, s.thermal, s.store, s.twin.owner, s.nv.handed, s.nv.incomplete⟩

theorem kept_ports {s t : State} (h : t.kept = s.kept) : t.ports = s.ports := congrArg Kept.ports h

/-- What every element of a list leaves, the fold over the list leaves. -/
theorem forEach_eq_of_step {α β : Type} (P : State → β) {f : α → State → State} (h : ∀ x t, P (f x t) = P t) (l : List α) (s : State) :
    P (forEach l f s) = P s := by
  induction l generalizing s with
  | nil => rfl
  | cons x r ih => exact (ih (f x s)).trans (h x s)

@[simp] theorem forEach_nil {α : Type} (f : α → State → State) (s : State) : forEach [] f s = s := rfl
@[simp] theorem forEach_cons {α : Type} (f : α → State → State) (x : α) (l : List α) (s : State) :
    forEach (x :: l) f s = forEach l f (f x s) := rfl

/-! ### The updates of one unit -/

@[simp] theorem modEng_kept (s : State) (e : Eng) (f : Engine → Engine) : (s.modEng e f).kept = s.kept := rfl
@[simp] theorem modFm_kept (s : State) (f : Fm → Fm) : (s.modFm f).kept = s.kept := rfl
@[simp] theorem modUnit_kept (s : State) (u : Fin 182) (f : UnitS → UnitS) : (s.modUnit u f).kept = s.kept := rfl
@[simp] theorem modBlw_kept (s : State) (c : Fin 8) (f : Blw → Blw) : (s.modBlw c f).kept = s.kept := rfl
@[simp] theorem modTransit_kept (s : State) (f : TransitU → TransitU) : (s.modTransit f).kept = s.kept := rfl
@[simp] theorem modTPort_kept (s : State) (p : Port) (f : TransitPort → TransitPort) : (s.modTPort p f).kept = s.kept := rfl
@[simp] theorem modSerial_kept (s : State) (f : Serial → Serial) : (s.modSerial f).kept = s.kept := rfl
@[simp] theorem modEvents_kept (s : State) (f : Events → Events) : (s.modEvents f).kept = s.kept := rfl
@[simp] theorem modThermal_kept (s : State) (f : Thermal → Thermal) : (s.modThermal f).kept = { s.kept with thermal := f s.thermal } := rfl
@[simp] theorem latch_kept (s : State) (e : Eng) (c : Fin 4) (i : Nat) : (s.latch e c i).kept = s.kept := rfl
@[simp] theorem count_kept (s : State) (i n : Nat) : (s.count i n).kept = s.kept := rfl

@[simp] theorem modTwin_kept (s : State) (f : Twin → Twin) (h : (f s.twin).owner = s.twin.owner) : (s.modTwin f).kept = s.kept := by
  simp [State.kept, h]

@[simp] theorem modNv_kept (s : State) (f : Nv → Nv) (hh : (f s.nv).handed = s.nv.handed)
    (hi : (f s.nv).incomplete = s.nv.incomplete) : (s.modNv f).kept = s.kept := by
  simp [State.kept, hh, hi]

/-! ### Occurrences and the link -/

@[simp] theorem occur_kept (s : State) (n : Nat) : (s.occur n).kept = s.kept := by rw [occur_frame]; rfl

@[simp] theorem linkPut_kept (s : State) (f : LinkFrame) : (s.linkPut f).kept = s.kept := by
  unfold State.linkPut
  dsimp only
  split <;> simp

@[simp] theorem linkPump_kept (n : Nat) (s : State) : (State.linkPump n s).kept = s.kept := by
  induction n generalizing s with
  | zero => rfl
  | succ n ih =>
    unfold State.linkPump
    split
    · split
      · rw [ih]; simp
      · rfl
    · rfl

@[simp] theorem linkSendAll_kept (s : State) (ty : Byte) (cls : Nat) (p : Port) (ls : List (List W)) :
    (s.linkSendAll ty cls p ls).kept = s.kept := by
  unfold State.linkSendAll
  dsimp only
  split <;> simp

@[simp] theorem linkSend_kept (s : State) (ty : Byte) (cls : Nat) (p : Port) (ws : List W) :
    (s.linkSend ty cls p ws).kept = s.kept := linkSendAll_kept ..

/-! ### Almanac records -/

@[simp] theorem sendRecord_kept (s : State) (r : Rec) : (s.sendRecord r).kept = s.kept := by
  unfold State.sendRecord
  split <;> simp

@[simp] theorem queueRec_kept (s : State) (r : Rec) (who : Option Req) : (s.queueRec r who).kept = s.kept := by
  unfold State.queueRec
  dsimp only
  split <;> simp

@[simp] theorem note_kept (s : State) (code sev src : Nat) (ws : List W) : (s.note code sev src ws).kept = s.kept := queueRec_kept ..

@[simp] theorem noteTwin_kept (s : State) (src : Nat) : (s.noteTwin src).kept = s.kept := note_kept ..

theorem setQueue_kept (s : State) (q : List (Rec × Option Req)) : (s.modNv fun n => { n with queue := q }).kept = s.kept := rfl

@[simp] theorem queueStamp_kept (s : State) (sel : Nat → Bool) : (s.queueStamp sel).kept = s.kept := by
  unfold State.queueStamp
  extract_lets t stamp q
  rw [← setQueue_kept s q]
  exact forEach_eq_of_step State.kept (fun _ _ => sendRecord_kept _ _) _ _

@[simp] theorem life_kept (s : State) (i : Fin 6) : (s.life i).kept = s.kept := by simp [State.life]

@[simp] theorem recLost_kept (s : State) (full : Bool) : (s.recLost full).kept = s.kept := by
  unfold State.recLost
  dsimp only
  split <;> simp

@[simp] theorem recPlace_kept (s : State) (r : Rec) : (s.recPlace r).kept = s.kept := by
  unfold State.recPlace
  extract_lets n again repeated lim entered code
  have hr : repeated.kept = s.kept := by
    unfold repeated
    split
    · split
      · rw [occur_kept]
        exact modNv_kept _ _ rfl rfl
      · rfl
    · rfl
  split
  · exact hr
  · have he : entered.kept = s.kept := (occur_kept _ _).trans ((modNv_kept _ _ rfl rfl).trans hr)
    repeat' split
    all_goals simp [hr, he]

@[simp] theorem noteAnalog_recPlace_kept (s : State) (code sev src : Nat) (ws : List W) :
    (s.noteAnalog code sev src ws State.recPlace).kept = s.kept := by simp [State.noteAnalog]

@[simp] theorem enterAll_kept (s : State) (n : Nat) : (s.enterAll n).kept = s.kept := by
  unfold State.enterAll
  extract_lets stamped q emptied
  have he : emptied.kept = s.kept := (setQueue_kept ..).trans (queueStamp_kept ..)
  refine (forEach_eq_of_step State.kept (fun r t => ?_) _ _).trans he
  dsimp only
  split <;> simp

/-! ### Flushes -/

@[simp] theorem saveCounters_kept (s : State) (src : NvSrc) : (s.saveCounters src).kept = s.kept :=
  modNv_kept _ _ rfl rfl

@[simp] theorem flushPages_kept (s : State) : s.flushPages.kept = s.kept := by simp [State.flushPages]

@[simp] theorem flushNext_kept (s : State) : s.flushNext.kept = s.kept := by
  unfold State.flushNext
  split
  · rfl
  · extract_lets paged
    have hp : paged.kept = s.kept := by
      unfold paged
      split <;> simp
    split
    · exact hp
    · exact (modNv_kept _ _ rfl rfl).trans hp

@[simp] theorem flush_kept (s : State) : s.flush.kept = s.kept := by
  unfold State.flush
  dsimp only
  repeat' split
  all_goals simp

@[simp] theorem handFlush_kept (s : State) : s.handFlush.kept = s.kept := by
  unfold State.handFlush
  dsimp only
  repeat' split
  all_goals simp

/-! ### Bellows channels -/

@[simp] theorem blwOccur_kept (s : State) (c : Fin 8) (k : Nat) : (s.blwOccur c k).kept = s.kept := by
  unfold State.blwOccur
  repeat' split
  all_goals simp

@[simp] theorem blwGrant_kept (s : State) (c : Fin 8) (resumed test : Bool) : (s.blwGrant c resumed test).kept = s.kept := by
  simp [State.blwGrant]

@[simp] theorem blwReeval_kept (s : State) (c : Fin 8) : (s.blwReeval c).kept = s.kept := by
  unfold State.blwReeval
  dsimp only
  repeat' split
  all_goals simp

@[simp] theorem blwRelease_kept (s : State) (c : Fin 8) : (s.blwRelease c).kept = s.kept := by
  unfold State.blwRelease
  dsimp only
  repeat' split
  all_goals simp

@[simp] theorem blwShutdown_kept (s : State) : s.blwShutdown.kept = s.kept :=
  forEach_eq_of_step State.kept (fun c t => blwRelease_kept t c) _ _

end Sys2Proof.Machine
end

section
/-! SUPPORT. The power-fail sequence and the resets (R389–R393, R443–R446, R463, R464, R509–R511). -/
namespace Sys2Proof.Machine

/-! ### OWNER falls -/

theorem dropOwner_kept (s : State) : s.dropOwner.kept = { s.kept with owner := false } := by
  unfold State.dropOwner
  split
  · extract_lets t
    have ht : t.kept = { s.kept with owner := false } := by
      simp only [t, occur_kept]
      rfl
    rw [forEach_eq_of_step State.kept fun _ _ => blwRelease_kept _ _, noteTwin_kept, ht]
  next h =>
    have ho : s.twin.owner = false := by simpa using h
    rw [← ho]
    rfl

@[simp] theorem dropOwner_owner (s : State) : s.dropOwner.twin.owner = false :=
  congrArg Kept.owner (dropOwner_kept s)

/-! ### A power-fail starts (R392 step 1) -/

@[simp] theorem sextantStop_kept (s : State) : s.sextantStop.kept = s.kept := rfl

@[simp] theorem hostReject_kept (s : State) (c : Byte) : (s.hostReject c).kept = s.kept := by simp [State.hostReject]

@[simp] theorem readClose_kept (s : State) : s.readClose.kept = s.kept := by
  unfold State.readClose
  split
  · rfl
  · dsimp only
    split
    · simp
    · rfl

@[simp] theorem readPowerFail_kept (s : State) : s.readPowerFail.kept = s.kept := by
  unfold State.readPowerFail
  split
  · rfl
  · simp [State.readFail]

@[simp] theorem swTake_kept (s : State) : s.swTake.kept = s.kept := by
  unfold State.swTake
  split
  · rfl
  · extract_lets x m0 m1 m new ctl t
    split
    · exact occur_kept t _
    · rfl

@[simp] theorem mp0Discard_kept (s : State) : s.mp0Discard.kept = s.kept := by simp [State.mp0Discard]

@[simp] theorem nvPowerFail_kept (s : State) : s.nvPowerFail.kept = s.kept := by
  unfold State.nvPowerFail
  dsimp only
  split <;> simp

/-- Every access that a password opened closes (R438). -/
theorem nvPowerFail_closes (s : State) : s.nvPowerFail.nv.openR = 0 ∧ s.nvPowerFail.nv.openW = 0 := by
  unfold State.nvPowerFail
  extract_lets closes keep t
  split
  · rw [occur_frame]
    exact ⟨rfl, rfl⟩
  · exact ⟨rfl, rfl⟩

/-- A power-fail changes of the temperature and power unit its step, its cause and the hand-over, and closes the regions. -/
theorem powerFailStart_thermal (s : State) (cause : Nat) (h0 : s.thermal.pfStep = 0) (hs : s.thermal.shutdown = false) :
    (s.powerFailStart cause).thermal = { s.thermal with pfStep := 2, pfCause := cause, handCause := 1 } ∧
      (s.powerFailStart cause).nv.openR = 0 ∧ (s.powerFailStart cause).nv.openW = 0 := by
  unfold State.powerFailStart
  rw [if_neg (by simp [h0, hs])]
  extract_lets failed stopped soft freed told
  refine ⟨?_, nvPowerFail_closes _⟩
  have ht : told.kept = failed.kept := by
    simp only [told]
    split <;> simp [freed, stopped]
  exact congrArg Kept.thermal ((nvPowerFail_kept _).trans ((mp0Discard_kept _).trans ht))

theorem powerFailStart_idle (s : State) (cause : Nat) (h : s.thermal.pfStep ≠ 0) : s.powerFailStart cause = s :=
  if_pos (.inl h)

/-! ### The stack's rails -/

theorem storeLose_of_stack (s : State) (r : Fin 9) (h : r.val = 1 ∨ r.val = 2) :
    (s.storeLose r).store.mem = [] ∧ (s.storeLose r).store.lost.isSome = true := by
  unfold State.storeLose
  rw [if_pos h]
  exact ⟨rfl, rfl⟩

theorem storeLose_of_other (s : State) (r : Fin 9) (h1 : r.val ≠ 1) (h2 : r.val ≠ 2) : s.storeLose r = s :=
  if_neg (by omega)

/-- What each rail of R389 does when it falls, by its place in the table. -/
theorem exec_railUndervoltage (s : State) (r : Fin 9) :
    let u := ((s.modThermal fun t => { t with rails := s.thermal.rails &&& ~~~(1#5 <<< r.val) }).powerFailStart (r.val + 1)).storeLose r
    (r.val = 0 → exec (.railUndervoltage r) s = .next u.dropOwner) ∧
    (1 ≤ r.val → r.val < 4 → exec (.railUndervoltage r) s = .next u) ∧
    (4 ≤ r.val → r.val < 8 → exec (.railUndervoltage r) s =
      .next ((s.modThermal fun t => { t with vio := false }).powerFailStart (r.val + 2))) ∧
    (r.val = 8 → exec (.railUndervoltage r) s = .next (s.modThermal fun t => { t with rails := s.thermal.rails &&& 0xF })) := by
  intro u
  have hu : r.val < 4 → exec (.railUndervoltage r) s = .next (if r.val = 0 then u.dropOwner else u) := fun h => if_pos h
  have hn : ¬ r.val < 4 → exec (.railUndervoltage r) s =
      if r.val = 8 then .next (s.modThermal fun t => { t with rails := s.thermal.rails &&& 0xF })
      else .next ((s.modThermal fun t => { t with vio := false }).powerFailStart (r.val + 2)) := fun h => if_neg h
  refine ⟨fun h => ?_, fun h1 h4 => ?_, fun h4 h8 => ?_, fun h => ?_⟩
  · rw [hu (by omega), if_pos h]
  · rw [hu h4, if_neg (by omega)]
  · rw [hn (by omega), if_neg (by omega)]
  · rw [hn (by omega), if_pos h]

/-! ### The hand-over and its loss -/

theorem handRecords_kept (s : State) : s.handRecords.kept = { s.kept with thermal := { s.thermal with shutRec := [] } } := by
  unfold State.handRecords
  extract_lets shut power
  have hs : shut.kept = s.kept := by
    simp only [shut]
    split <;> simp
  have hp : power.kept = s.kept := by
    simp only [power]
    split <;> simp [hs]
  rw [modThermal_kept, hp, show power.thermal = s.thermal from congrArg Kept.thermal hp]

/-- What a power loss in the hand-over leaves: the sequence goes on from step 4 with what arrived marked (R445), OWNER low, the store's
contents as they were. -/
theorem powerLoss_in_handover (s : State) (c : Bool) (n : Nat) (h : s.thermal.pfStep = 2) :
    ∃ u : State, exec (.logicDiePowerLoss c n) s = .next (u.logicReset.modBoot fun b => { b with cold := true }) ∧
      u.nv.handed = c ∧ u.nv.incomplete = true ∧ u.twin.owner = false ∧ u.thermal.pfStep = 4 ∧ u.store.mem = s.store.mem := by
  let marked := s.modNv fun m => { m with handed := c, incomplete := true, handWords := if c then s.counterWords else [] }
  let kept := min n s.nv.queue.length
  let told := ((marked.life 5).enterAll kept).handRecords
  let done := told.modThermal fun t => { t with pfStep := 4, handCause := 0 }
  let noted := done.noteAnalog 0x002 3 suPower [wn (b2n c + 2 ^ 16 * kept), wn s.nv.queue.length] State.recPlace
  have ht : told.kept = { marked.kept with thermal := told.thermal } := by
    have hr := handRecords_kept ((marked.life 5).enterAll kept)
    rw [enterAll_kept, life_kept] at hr
    rw [show told.thermal = _ from congrArg Kept.thermal hr]
    exact hr
  have hk : noted.handFlush.dropOwner.kept = { marked.kept with thermal := done.thermal, owner := false } := by
    rw [dropOwner_kept, handFlush_kept, noteAnalog_recPlace_kept, modThermal_kept, ht]
    rfl
  refine ⟨noted.handFlush.dropOwner, if_pos h, congrArg Kept.handed hk, congrArg Kept.incomplete hk, congrArg Kept.owner hk, ?_, ?_⟩
  · exact congrArg (fun k => k.thermal.pfStep) hk
  · exact congrArg (fun k => k.store.mem) hk

theorem exec_logicDiePowerLoss_after (s : State) (c : Bool) (n : Nat) (h : 3 ≤ s.thermal.pfStep.val) :
    exec (.logicDiePowerLoss c n) s = .next (s.dropOwner.logicReset.modBoot fun b => { b with cold := true }) := by
  have h2 : s.thermal.pfStep ≠ 2 := fun e => by simp [e] at h
  exact (if_neg h2).trans (if_pos h)

theorem exec_logicDiePowerLoss_none (s : State) (c : Bool) (n : Nat) (h : s.thermal.pfStep = 0) :
    exec (.logicDiePowerLoss c n) s = .next s := by
  have h2 : s.thermal.pfStep ≠ 2 := by simp [h]
  exact (if_neg h2).trans (if_neg (by simp [h]))

/-- The hand-over of a power-fail or shutdown is done (R387, R392 step 3, R444). -/
theorem exec_handoverDone_of_powerFail (s : State) (hc : s.thermal.handCause = 1) (hp : s.thermal.pfStep = 2) :
    let a := (s.modNv fun n => { n with handed := true, handWords := s.counterWords }).enterAll s.nv.queue.length
    let b := a.handRecords.handFlush.modThermal fun t => { t with pfStep := 4, handCause := 0 }
    exec .handoverDone s = .next (if b.thermal.shutdown then b.dropOwner.logicReset else b) := by
  intro a b
  show execHandoverDone s = _
  unfold execHandoverDone
  rw [if_pos ⟨hc, hp⟩]
  rfl

/-- The hand-over of a device reset is done (R464): the logic die is reset, and boots where RESET_N and the power allow it. -/
theorem exec_handoverDone_of_reset (s : State) (hc : s.thermal.handCause = 2) (hp : s.thermal.pfStep = 0) :
    let a := (s.modNv fun n => { n with handWords := s.counterWords }).enterAll s.nv.queue.length
    let b := a.handFlush.dropOwner.blwShutdown
    let c := (b.modThermal fun t => { t with handCause := 0 }).logicReset
    exec .handoverDone s = .next (if c.thermal.resetN ∧ c.thermal.pfail ∧ c.railsUp then c.bootStart c.boot.bootsel b.twin.strap
      else if c.thermal.resetN then c.modBoot fun x => { x with step := 5 } else c) := by
  intro a b c
  show execHandoverDone s = _
  unfold execHandoverDone
  rw [if_neg (by simp [hc]), if_pos ⟨hc, hp⟩]
  extract_lets m b' strap c'
  have hb : b' = b := rfl
  have hc' : c' = c := rfl
  rw [hc', show strap = b.twin.strap from congrArg (fun u => u.twin.strap) hb]

/-! ### Boot and reset -/

@[simp] theorem bootStart_step (s : State) (bs : BitVec 2) (role : Bool) : (s.bootStart bs role).boot.step = 1 := rfl

/-- Only a finished sequence is released (R511): it ends in a boot, or with the logic die in reset while RESET_N is low. -/
theorem exec_powerFailRelease (s : State) (bs : BitVec 2) (role : Bool) (hp : s.thermal.pfStep = 5) (hs : s.thermal.shutdown = false) :
    let u := (s.modThermal fun t => { t with pfStep := 0, rails := 0x1F, vio := true, pfail := true }).logicReset.modBoot
      fun b => { b with cold := true }
    exec (.powerFailRelease bs role) s = .next (if s.thermal.resetN then u.bootStart bs role else u) := by
  intro u
  show execPowerFailRelease bs role s = _
  unfold execPowerFailRelease
  rw [if_pos ⟨hp, by simp [hs]⟩]
  show (if s.thermal.resetN then _ else _) = _
  split <;> rfl

/-- A power-on reset with no page write in progress leaves the NV store's contents, the queue and VACT alone (R446, R463). -/
theorem exec_powerOnReset (s : State) (n : Nat) (h : s.nv.writes = []) : exec (.powerOnReset n) s =
    .next { State.reset with
      pending := s.pending, freeCtr := s.freeCtr,
      nv := { State.reset.nv with mem := s.nv.mem, bad := s.nv.bad, soft := s.nv.soft, incomplete := s.nv.incomplete }
      thermal := { State.reset.thermal with rails := 0, vio := false, pfail := false, vact := s.thermal.vact } } := by
  have hn : s.nv.interrupt n = s.nv := by
    unfold Nv.interrupt
    rw [h]
  show execPowerOnReset n s = _
  unfold execPowerOnReset
  rw [hn]

end Sys2Proof.Machine
open Sys2Proof Sys2Proof.Machine


/-- Settles O56: each clause is the rule of its command above; what the hand-over and the power-fail keep is `State.kept`. -/
theorem powerAndResets : Obligations.PowerAndResets := by
  unfold Obligations.PowerAndResets
  intro s
  refine ⟨?powerFail, ?rails, dropOwner_owner s, ?starts, fun h cause => powerFailStart_idle s cause h, ?handover, ?resetHandover,
    ?powerLoss, ?release, ?powerOn, ?deviceReset⟩
  case powerFail => exact fun h => if_pos h
  case rails =>
    intro r
    obtain ⟨hcore, hstack, hvio, hvdda⟩ := exec_railUndervoltage s r
    exact ⟨hcore, hstack, hvio, hvdda, storeLose_of_stack s r, storeLose_of_other s r⟩
  case starts =>
    intro h0 hs cause
    obtain ⟨ht, hclosed⟩ := powerFailStart_thermal s cause h0 hs
    exact ⟨by rw [ht], by rw [ht], hclosed⟩
  case handover => exact fun hc hp => ⟨exec_handoverDone_of_powerFail s hc hp, rfl, rfl⟩
  case resetHandover => exact exec_handoverDone_of_reset s
  case powerLoss =>
    exact fun c n =>
      ⟨exec_logicDiePowerLoss_none s c n, powerLoss_in_handover s c n, exec_logicDiePowerLoss_after s c n, rfl, rfl, rfl, rfl, rfl⟩
  case release =>
    intro bs role hp hs
    have he := exec_powerFailRelease s bs role hp hs
    exact ⟨fun hr => ⟨by rw [he, if_pos hr], bootStart_step ..⟩, fun hr => by rw [he, if_neg (ne_true_of_eq_false hr)]⟩
  case powerOn => exact fun n h => ⟨_, exec_powerOnReset s n h, rfl, rfl, rfl, rfl, rfl, rfl, rfl, rfl⟩
  case deviceReset => exact fun h => if_neg (by simp [h])
end

section
/-! SUPPORT. A port's frame under its updates, and the packets a port receives inside a frame (R114, R115, R119, R121, R128). -/
namespace Sys2Proof.Machine

/-! ### Updates of one port -/

theorem upd_congr {α : Type} {n : Nat} (v : Vector α n) (i : Fin n) (f g : α → α) (h : f (v.get i) = g (v.get i)) : upd v i f = upd v i g := by
  unfold upd
  rw [h]

theorem upd_upd {α : Type} {n : Nat} (v : Vector α n) (i : Fin n) (f g : α → α) : upd (upd v i f) i g = upd v i fun x => g (f x) := by
  apply vec_ext
  intro j
  by_cases h : j = i
  · subst h; simp
  · simp [upd_get_ne _ _ _ _ h]

theorem modPort_congr (s : State) (p : Port) (f g : PortS → PortS) (h : f (s.port p) = g (s.port p)) : s.modPort p f = s.modPort p g := by
  unfold State.modPort
  rw [upd_congr _ _ _ _ h]

theorem modPort_modPort (s : State) (p : Port) (f g : PortS → PortS) : (s.modPort p f).modPort p g = s.modPort p fun x => g (f x) := by
  unfold State.modPort
  dsimp only
  rw [upd_upd]

/-- What the ports alone say of a port. -/
theorem port_of_ports {s t : State} (h : t.ports = s.ports) (p : Port) : t.port p = s.port p := congrArg (fun v => v.get p) h

/-! ### Updates of one frame -/

/-- A port's frame, the one arriving or the one that ended last, changed. -/
def PortS.onFrame (tail : Bool) (f : Frame → Frame) (x : PortS) : PortS :=
  if tail then { x with tail := x.tail.map f } else { x with frame := x.frame.map f }

theorem modFrame_eq_modPort (s : State) (p : Port) (tail : Bool) (f : Frame → Frame) : s.modFrame p tail f = s.modPort p (PortS.onFrame tail f) :=
  rfl

@[simp] theorem onFrame_fr (x : PortS) (tail : Bool) (f : Frame → Frame) : (x.onFrame tail f).fr tail = (x.fr tail).map f := by
  cases tail <;> rfl

@[simp] theorem modFrame_fr (s : State) (p : Port) (tail : Bool) (f : Frame → Frame) :
    ((s.modFrame p tail f).port p).fr tail = ((s.port p).fr tail).map f := by
  rw [modFrame_eq_modPort, modPort_port, onFrame_fr]

@[simp] theorem modFrame_frame (s : State) (p : Port) (f : Frame → Frame) :
    ((s.modFrame p false f).port p).frame = (s.port p).frame.map f := modFrame_fr s p false f

@[simp] theorem modFrame_tail (s : State) (p : Port) (f : Frame → Frame) :
    ((s.modFrame p true f).port p).tail = (s.port p).tail.map f := modFrame_fr s p true f

theorem modFrame_congr (s : State) (p : Port) (tail : Bool) (f g : Frame → Frame) (fr : Frame) (hf : (s.port p).fr tail = some fr)
    (h : f fr = g fr) : s.modFrame p tail f = s.modFrame p tail g := by
  refine modPort_congr s p _ _ ?_
  cases tail with
  | false => simp [show (s.port p).frame = some fr from hf, h]
  | true => simp [show (s.port p).tail = some fr from hf, h]

theorem modFrame_modFrame (s : State) (p : Port) (tail : Bool) (f g : Frame → Frame) :
    (s.modFrame p tail f).modFrame p tail g = s.modFrame p tail (g ∘ f) := by
  rw [modFrame_eq_modPort, modFrame_eq_modPort, modPort_modPort]
  refine modPort_congr s p _ _ ?_
  cases tail <;> simp [PortS.onFrame]

/-- Inside a frame its counts are changed. -/
theorem modArr_of_started (s : State) (p : Port) (f : ArrCounts → ArrCounts) (fr : Frame) (hf : (s.port p).frame = some fr)
    (hs : fr.started = true) : s.modArr p f = s.modFrame p false fun fr => { fr with arr := f fr.arr } :=
  modFrame_congr s p false _ _ fr hf (by simp [hs])

/-! ### Reads and writes of the store leave the ports alone -/

@[simp] theorem occur_ports (s : State) (n : Nat) : (s.occur n).ports = s.ports := kept_ports (occur_kept s n)

@[simp] theorem rowDetect_ports (s : State) (ch : Fin 16) (bank row : Nat) (cause : Byte) : (s.rowDetect ch bank row cause).ports = s.ports := by
  unfold State.rowDetect
  dsimp only
  repeat' split
  all_goals rfl

@[simp] theorem copyWord_ports (s : State) (w : Nat) : (s.copyWord w).ports = s.ports := by
  unfold State.copyWord
  dsimp only
  repeat' split
  all_goals simp

@[simp] theorem checkWord_ports (s : State) (w : Nat) : (s.checkWord w).ports = s.ports := by
  unfold State.checkWord
  dsimp only
  repeat' split
  all_goals simp

@[simp] theorem countLines_ports (s : State) (a n : Nat) : (s.countLines a n).ports = s.ports := by
  unfold State.countLines
  split
  · rfl
  · refine forEach_eq_of_step State.ports ?_ _ _
    intro l t
    rfl

@[simp] theorem storeCheck_ports (s : State) (a n : Nat) : (s.storeCheck a n).ports = s.ports :=
  (forEach_eq_of_step State.ports (fun _ _ => checkWord_ports _ _) _ _).trans (countLines_ports s a n)

@[simp] theorem storePart_ports (s : State) (a : Nat) (bs : List Byte) : (s.storePart a bs).ports = s.ports := by
  unfold State.storePart
  dsimp only
  repeat' split
  all_goals simp

@[simp] theorem storeParts_ports (n a : Nat) (bs : List Byte) (s : State) : (State.storeParts n a bs s).ports = s.ports := by
  induction n generalizing a bs s with
  | zero => rfl
  | succ n ih =>
    unfold State.storeParts
    split
    · rfl
    · exact (ih _ _ _).trans (storePart_ports ..)

@[simp] theorem storeWrite_ports (s : State) (a : Nat) (bs : List Byte) : (s.storeWrite a bs).ports = s.ports :=
  (storeParts_ports ..).trans (countLines_ports ..)

/-! ### A packet's header -/

theorem receive_ok (s : State) (p : Port) (vc : BitVec 2) (body : State → State) (h : s.hears p vc) : s.receive p vc .ok body = body s := by
  obtain ⟨hheld, hst, hvc⟩ := h
  unfold State.receive
  rw [if_neg (by simp [hheld, hst])]
  show (if vc.toNat ≠ s.params.force.vc p then _ else _) = _
  rw [if_neg (by simp [hvc])]
  rfl

theorem inFrame_of_started (s : State) (p : Port) (body : Frame → State → State) (fr : Frame) (hf : (s.port p).frame = some fr)
    (hs : fr.started = true) : s.inFrame p body = body fr s := by
  unfold State.inFrame
  rw [hf]
  exact if_pos hs

/-! ### Row packets (R121, R122, R128) -/

/-- In order A one data type is supported, and it is sub-frame 0's. -/
theorem subOf_orderA (pb : PMap) (p : Port) (dt : Nat) (ho : pb.orderB p = false) : subOf pb p dt = if dt = pb.dt p then some 0 else none := by
  unfold subOf
  rw [if_neg (by simp [ho])]

theorem exec_rowPacket (s : State) (p : Port) (vc : BitVec 2) (fr : Frame) (k : RowPkt) (h : s.hears p vc)
    (hf : (s.port p).frame = some fr) (hs : fr.started = true) (hvc : k.vc = vc) (hecc : k.ecc = .ok) (ho : fr.pb.orderB p = false) :
    exec (.rowPacket p k) s = .next (if k.dt.toNat = fr.pb.dt p then s.rowPacket p 0 k else s.occur (srcPort p 14)) := by
  show Host.Outcome.next _ = _
  rw [hvc, hecc, receive_ok s p vc _ h, inFrame_of_started s p _ fr hf hs, subOf_orderA _ _ _ ho]
  by_cases hdt : k.dt.toNat = fr.pb.dt p <;> simp [hdt]

/-- A packet whole and of its row's length shows no damage. -/
theorem rowMeasure_of_whole (s : State) (p : Port) (fr : Frame) (k : RowPkt) (hcrc : k.crcOk = true) (hfifo : k.fifo = none)
    (hlen : k.payload.length = wordCount fr.pb p) : s.rowMeasure p fr k = s := by
  simp [State.rowMeasure, hcrc, hfifo, hlen]

theorem position_by_arrival (fr : Frame) (p : Port) (k r : Nat) (hl : fr.pb.lineNum p = false) (hn : getN fr.nextRow k 0 = r)
    (hr : r < fr.pb.lines p) : fr.position p k = some r := by
  simp [Frame.position, hl, hn, hr]

/-- The whole row packet that enters at its position: its samples are written, the row is noted, the destripe unit takes it. -/
theorem rowEnter_of_whole (s : State) (p : Port) (k r : Nat) (fr : Frame) (pk : RowPkt) (hcrc : pk.crcOk = true) (hfifo : pk.fifo = none)
    (hlen : pk.payload.length = wordCount fr.pb p) :
    let xs := packetSamples pk.dt.toNat pk.payload
    let n := min (fr.pb.linePixels p) (xs.length / perPacket fr.pb p)
    s.rowEnter p k r fr pk = ((s.storeWrite (sampleAddr fr.pb p fr.f r 0 k) ((xs.take (n * perPacket fr.pb p)).flatMap fun x =>
      (wordBytes (wn x)).take 2)).modFrame p false fun fr => fr.take p k r n false).rowArrived p r := by
  intro xs n
  have hw : pk.payload.take (wordCount fr.pb p) = pk.payload := List.take_of_length_le hlen.le
  simp only [State.rowEnter, hfifo, hcrc, hw]
  rfl

/-- The samples of a row in no conflict enter the accumulator and the row takes its position (R121, R122). -/
theorem rowPacket_of_whole (s : State) (p : Port) (k : Nat) (fr : Frame) (pk : RowPkt) (r : Nat) (hf : (s.port p).frame = some fr)
    (hcrc : pk.crcOk = true) (hfifo : pk.fifo = none) (hlen : pk.payload.length = wordCount fr.pb p) (hpos : fr.position p k = some r)
    (hfree : (s.modFrame p false fun fr => { fr with lastSub := k }).rowConflict p (rowSpan fr.pb p fr.f r k) = false) :
    s.rowPacket p k pk = (s.modFrame p false fun fr => { fr with lastSub := k }).rowEnter p k r fr pk := by
  unfold State.rowPacket
  rw [hf]
  simp only [rowMeasure_of_whole _ _ _ _ hcrc hfifo hlen, hpos, hfree, Bool.false_eq_true, if_false]

/-- A blind row gives no row estimate (R165). -/
theorem rowArrived_of_blind (s : State) (p : Port) (fr : Frame) (r : Nat) (hf : (s.port p).frame = some fr) (hr : r < fr.pb.blindRows p) :
    s.rowArrived p r = s := by
  unfold State.rowArrived
  rw [hf]
  exact if_pos (.inl hr)

/-! ### Embedded data (R119, R136) -/

/-- Embedded data that fit the frame's 8 KiB are kept and counted, and no Line Start number waits longer. -/
theorem exec_embeddedData_of_fits (s : State) (p : Port) (vc : BitVec 2) (fr : Frame) (k : RowPkt) (h : s.hears p vc)
    (hf : (s.port p).frame = some fr) (hs : fr.started = true) (hvc : k.vc = vc) (hecc : k.ecc = .ok) (hcrc : k.crcOk = true)
    (hfifo : k.fifo = none) (hemb : fr.pb.embEn p = true) (hfit : fr.arr.embBytes + k.payload.length ≤ 8192) :
    exec (.embeddedData p k) s = .next (s.modFrame p false fun fr =>
      { fr with waitNum := none, emb := fr.emb ++ k.payload, arr := { fr.arr with embBytes := fr.arr.embBytes + k.payload.length } }) := by
  show Host.Outcome.next _ = _
  have ht : k.payload.take (8192 - fr.arr.embBytes) = k.payload := List.take_of_length_le (by omega)
  rw [hvc, hecc, receive_ok s p vc _ h, inFrame_of_started s p _ fr hf hs]
  simp only [hemb, hcrc, hfifo, ht, Bool.not_true, Bool.false_eq_true, if_false, if_true, Option.isSome_none, lt_irrefl]
  rw [modFrame_modFrame, modArr_of_started (fr := { fr with waitNum := none, emb := fr.emb ++ k.payload }) (hs := hs), modFrame_modFrame]
  · rfl
  · simp [hf]

/-! ### Lost sync, windows, self-tests -/

/-- A lost sync raises source 19; a row packet of a supported type that it cuts off is missing (R128). -/
theorem exec_hsSyncError (s : State) (p : Port) (vc : BitVec 2) (fr : Frame) (d : BitVec 6) (h : s.hears p vc) (hs : fr.started = true)
    (ho : fr.pb.orderB p = false) (hf : ((s.portEvent p 19).port p).frame = some fr) :
    exec (.hsSyncError p false d) s =
      .next (if d.toNat = fr.pb.dt p then (s.portEvent p 19).rowLost p 0 else s.portEvent p 19) := by
  obtain ⟨hheld, hst, -⟩ := h
  show execHsSyncError p false d s = _
  unfold execHsSyncError
  rw [if_neg (by simp [hheld, hst])]
  simp only [Bool.false_eq_true, if_false, hf, hs, if_true, subOf_orderA _ _ _ ho]
  split <;> simp_all

/-- The end of an open window: the count moves by one after a batch, with source 25 (R131, R133). -/
theorem windowClose_of_open (s : State) (p : Port) (h : (s.port p).windowOpen = true) :
    let n := (s.port p).sgenCount
    let closed (m : BitVec 15) : State := s.modPort p fun x =>
      { x with sgenCount := m, sgenNext := m.zeroExtend 16 ||| (if x.unsettled then 0x8000 else 0), windowOpen := false, batch := 0,
               unsettled := false }
    s.windowClose p = if (s.port p).batch = 0 then closed n else (closed (n + 1)).occur (srcPort p 25) := by
  intro n closed
  unfold State.windowClose
  rw [if_neg (by simp [h])]
  by_cases hb : (s.port p).batch = 0
  · simp only [hb, if_true]
    rfl
  · simp only [hb, if_false]
    rfl

theorem exec_settingsWindowClose (s : State) (p : Port) (h : s.up) (hm : s.serial.mp1 = none) :
    exec (.settingsWindowClose p) s = .next (s.windowClose p) :=
  if_neg (by simp [hm, show s.thermal.held = false from h])

end Sys2Proof.Machine
open Sys2Proof Sys2Proof.Machine

/-- Settles O42: the header is in order and the frame has started, so that each packet is handed to its own rule above. -/
theorem portsReceiveFrames : Obligations.PortsReceiveFrames := by
  unfold Obligations.PortsReceiveFrames
  refine ⟨fun s p vc fr k num r h hf hs hvc hecc hcrc hfifo => ⟨?row, ?line, ?embedded, ?otherType, ?sync, ?skew, ?ulps⟩,
    fun s p h hm hw => ⟨?windowStill, ?windowMoves, ?selfTest⟩⟩
  case row =>
    intro ho hdt hl hn hr hlen u xs n t
    have hu : (u.port p).frame = some { fr with lastSub := 0 } := by simp [u, hf]
    have hpb : t = (u.storeWrite (sampleAddr fr.pb p fr.f r 0 0) ((xs.take (n * perPacket fr.pb p)).flatMap fun x =>
        (wordBytes (wn x)).take 2)).modFrame p false fun fr => fr.take p 0 r n false := by
      refine modFrame_congr _ p false _ _ { fr with lastSub := 0 } ?_ (by simp [Frame.take, hl])
      exact (congrArg PortS.frame (port_of_ports (storeWrite_ports ..) p)).trans hu
    refine ⟨fun hfree => ?_, fun hb => ?_⟩
    · rw [exec_rowPacket s p vc fr k h hf hs hvc hecc ho, if_pos hdt,
        rowPacket_of_whole s p 0 fr k r hf hcrc hfifo hlen (position_by_arrival fr p 0 r hl hn hr) hfree,
        rowEnter_of_whole u p 0 r fr k hcrc hfifo hlen, hpb]
    · refine rowArrived_of_blind t p (({ fr with lastSub := 0 } : Frame).take p 0 r n false) r ?_ hb
      rw [hpb, modFrame_frame, port_of_ports (storeWrite_ports ..) p, hu]
      rfl
  case line =>
    intro hl
    show Host.Outcome.next _ = _
    rw [receive_ok s p vc _ h, inFrame_of_started s p _ fr hf hs, if_pos hl]
  case embedded => exact exec_embeddedData_of_fits s p vc fr k h hf hs hvc hecc hcrc hfifo
  case otherType => exact fun ho hdt => by rw [exec_rowPacket s p vc fr k h hf hs hvc hecc ho, if_neg hdt]
  case sync => exact fun d ho hf' => exec_hsSyncError s p vc fr d h hs ho hf'
  case skew => exact if_neg (by simp [h.1, h.2.1])
  case ulps => exact if_neg (by simp [h.1, h.2.1])
  case windowStill => exact fun hb => by rw [exec_settingsWindowClose s p h hm, windowClose_of_open s p hw, if_pos hb]
  case windowMoves => exact fun hb => by rw [exec_settingsWindowClose s p h hm, windowClose_of_open s p hw, if_neg hb]
  case selfTest =>
    intro hf ht hsh hu
    show execPortSelfTest p s = _
    unfold execPortSelfTest
    have hheld : s.thermal.held = false := h
    simp [hf, ht, hsh, hu, hheld]
end

section
/-! SUPPORT. What a Frame Start makes of the frame that waits for it (R126, R261), and a stream that taps the frame. -/
namespace Sys2Proof.Machine

@[simp] theorem streamTake_ports (s : State) (p : Port) (fr : Frame) (st : Fin 8) : (s.streamTake p fr st).ports = s.ports := by
  unfold State.streamTake
  dsimp only
  repeat' split
  all_goals simp

@[simp] theorem streamsTake_ports (s : State) (p : Port) (fr : Frame) : (s.streamsTake p fr).ports = s.ports := by
  unfold State.streamsTake
  split
  · rfl
  · exact forEach_eq_of_step State.ports (fun _ _ => streamTake_ports ..) _ _

/-- A Frame Start marks the frame started, with its number and the streams that tap it (R126, R261). -/
theorem frameBegin_frame (s : State) (p : Port) (fno : BitVec 16) : ((s.frameBegin p fno).port p).frame =
    (s.port p).frame.map fun fr => { fr with started := true, fsNum := fno, taps := s.tapsOf p fr } := by
  let begun := s.modPort p fun x =>
    { x with fsInWindow := x.windowOpen, frame := x.frame.map fun fr => { fr with started := true, fsNum := fno, taps := s.tapsOf p fr } }
  have hb : (begun.port p).frame = (s.port p).frame.map fun fr => { fr with started := true, fsNum := fno, taps := s.tapsOf p fr } :=
    congrArg PortS.frame (modPort_port ..)
  rw [← hb]
  refine congrArg PortS.frame (port_of_ports ?_ p)
  unfold State.frameBegin
  show (match ((begun.occur (srcPort p 0)).port p).frame with
    | some fr => (begun.occur (srcPort p 0)).streamsTake p fr
    | none => begun.occur (srcPort p 0)).ports = begun.ports
  split <;> simp

/-- On a running port the Frame Start begins the frame that waits for it. -/
theorem exec_frameStart_of_waiting (s : State) (p : Port) (vc : BitVec 2) (fno : BitVec 16) (fr : Frame) (h : s.hears p vc)
    (hf : (s.port p).frame = some fr) (hr : (s.port p).st = .running) (hs : fr.started = false) :
    exec (.frameStart p vc .ok fno) s = .next (s.frameBegin p fno) := by
  show Host.Outcome.next _ = _
  rw [receive_ok s p vc _ h]
  simp [hr, hf, hs]

/-- Port 0 runs and waits for a Frame Start; stream 0 is on and taps stage 1 of the port's frames (CTL: EN, PORT 0, TAP 1). -/
def tapped : State :=
  (((State.reset.modParams fun q => { q with force := insertN q.force (0x180 * 256) 0x11 }).modStream 0 fun x =>
    { x with on := true, srcPort := 0 }).modPort 0 fun x => { x with st := .running }).openFrame 0

/-- The frame that waits on port 0 of `tapped`. -/
def tappedFrame : Frame := (tapped.port 0).frame.get (by decide +kernel)

theorem tapped_frame : (tapped.port 0).frame = some tappedFrame := by simp [tappedFrame]

theorem tapped_hears : tapped.hears 0 0 := ⟨rfl, by decide +kernel, by decide +kernel⟩

theorem tapped_taps : tappedFrame.taps = [] ∧ tapped.tapsOf 0 tappedFrame = [(0, 1)] := by decide +kernel

end Sys2Proof.Machine
open Sys2Proof Sys2Proof.Machine

/-- Refutes O41: the statement has a Frame Start change of the frame its start and its number alone, where it also fixes the streams that
tap the frame (R261): on `tapped` the frame had none and has stream 0. -/
theorem not_framesAndMeridians : ¬ Obligations.FramesAndMeridians := by
  unfold Obligations.FramesAndMeridians
  rintro ⟨hframes, -⟩
  obtain ⟨hwaiting, -, -⟩ := hframes tapped 0 0 0 7 tappedFrame tapped_hears tapped_frame
  obtain ⟨⟨t, ht, hframe, -, -⟩, -, -⟩ := hwaiting (by decide +kernel) (by decide +kernel)
  rw [exec_frameStart_of_waiting tapped 0 0 7 tappedFrame tapped_hears tapped_frame (by decide +kernel) (by decide +kernel)] at ht
  obtain rfl : tapped.frameBegin 0 7 = t := Host.Outcome.next.inj ht
  rw [frameBegin_frame, tapped_frame] at hframe
  have htaps : tapped.tapsOf 0 tappedFrame = tappedFrame.taps := congrArg Frame.taps (Option.some.inj hframe)
  obtain ⟨hbefore, hafter⟩ := tapped_taps
  rw [hbefore, hafter] at htaps
  exact absurd htaps (by decide)
end

section
/-! SUPPORT. What leaves a frame that has ended as it is: zones evaluated, transits abandoned, records written. -/
namespace Sys2Proof.Machine

/-- A fold of which no step changes the state. -/
theorem forEach_eq_self {α : Type} {f : α → State → State} {s : State} (h : ∀ x, f x s = s) (l : List α) : forEach l f s = s := by
  induction l with
  | nil => rfl
  | cons x l ih => rw [forEach_cons, h x, ih]

/-! ### The frame that ended last, under updates of a port -/

theorem modPort_tail (s : State) (q p : Port) (f : PortS → PortS) (hf : ∀ x, (f x).tail = x.tail) :
    ((s.modPort q f).port p).tail = (s.port p).tail := by
  by_cases h : p = q
  · subst h
    rw [modPort_port, hf]
  · rw [modPort_port_ne _ _ _ _ h]

/-- A part `h` of a port's last frame, which changes of other parts of its frames keep. -/
theorem modFrame_tail_map {β : Type} (h : Frame → β) (s : State) (q p : Port) (tail : Bool) (f : Frame → Frame) (hf : ∀ fr, h (f fr) = h fr) :
    ((s.modFrame q tail f).port p).tail.map h = (s.port p).tail.map h := by
  by_cases e : p = q
  · subst e
    cases tail with
    | false => exact congrArg (Option.map h) (modPort_tail s p p (PortS.onFrame false f) fun _ => rfl)
    | true =>
      rw [modFrame_tail, Option.map_map]
      exact congrArg (fun g => (s.port p).tail.map g) (funext hf)
  · rw [modFrame_eq_modPort, modPort_port_ne _ _ _ _ e]

theorem tail_of_kept {s t : State} (h : t.kept = s.kept) (p : Port) : (t.port p).tail = (s.port p).tail :=
  congrArg PortS.tail (port_of_ports (kept_ports h) p)

/-! ### Transits that an alarm abandons (R211, R220) -/

@[simp] theorem transitWake_kept (s : State) (p : Port) : (s.transitWake p).kept = s.kept :=
  forEach_eq_of_step State.kept (fun _ _ => latch_kept ..) _ _

/-- An abandonment without a cause of the dome's own reports changes of the ports the end of the hold alone. -/
theorem transitAbandonNow_tail (s : State) (code : Nat) (asPartner : Bool) (p : Port) (h1 : code ≠ 1) (h3 : code ≠ 3) :
    ((s.transitAbandonNow code asPartner).port p).tail = (s.port p).tail := by
  unfold State.transitAbandonNow
  split
  · rfl
  next c _ =>
    split
    · rfl
    · extract_lets q b moving dome queued counted fresh released held woken
      rw [if_neg (by simp [h1, h3])]
      have hr : released.kept = s.kept := by
        simp only [released]
        split <;> simp [counted, queued]
      rw [tail_of_kept (s := held) (by simp [woken]) p]
      exact (modPort_tail released q p _ (by intro x; rfl)).trans (tail_of_kept hr p)

theorem alarmTransit_tail (s : State) (p : Port) : (s.alarmTransit.port p).tail = (s.port p).tail := by
  unfold State.alarmTransit
  split
  · split
    · unfold State.transitAbandon
      split
      · split <;> rfl
      · exact transitAbandonNow_tail _ _ _ _ (by decide) (by decide)
    · rfl
  · rfl

/-! ### Zones, records, digests -/

theorem notifyAdd_tail (s : State) (q p : Port) (m bits : W) : ((s.notifyAdd q m bits).port p).tail = (s.port p).tail :=
  modPort_tail _ _ _ _ fun _ => rfl

/-- The evaluation of a zone changes of the frames their statistics alone. -/
theorem zoneEval_tail_map {β : Type} (h : Frame → β) (hst : ∀ (fr : Frame) st, h { fr with stat := st } = h fr) (s : State) (q p : Port)
    (tail : Bool) (z : Fin 16) : ((s.zoneEval q tail z).port p).tail.map h = (s.port p).tail.map h := by
  unfold State.zoneEval
  split
  · rfl
  next fr _ =>
    extract_lets y zone conds w4 nx changed m evaluated alarm moved told
    split
    · rfl
    split
    · exact modFrame_tail_map h _ _ _ _ _ fun _ => hst _ _
    · have hm : (moved.port p).tail.map h = (s.port p).tail.map h :=
        (congrArg (Option.map h) (modPort_tail evaluated q p _ (by intro x; rfl))).trans
          (modFrame_tail_map h _ _ _ _ _ fun _ => hst _ _)
      have ht : (told.port p).tail = (moved.port p).tail := by
        simp only [told]
        split
        · exact notifyAdd_tail ..
        · rfl
      split
      · rw [alarmTransit_tail, ht, hm]
      · rw [ht, hm]

theorem earlyZones_tail_map {β : Type} (h : Frame → β) (hst : ∀ (fr : Frame) st, h { fr with stat := st } = h fr) (s : State) (q p : Port)
    (tail : Bool) : ((s.earlyZones q tail).port p).tail.map h = (s.port p).tail.map h := by
  refine forEach_eq_of_step (fun t => (t.port p).tail.map h) ?_ _ _
  intro z t
  dsimp only
  split
  · rfl
  · split
    · exact (zoneEval_tail_map h hst ..).trans (modFrame_tail_map h _ _ _ _ _ fun _ => hst _ _)
    · rfl

/-- Only a frame in WATCH has its zones evaluated before its record (R195). -/
theorem earlyZones_of_not_watch (s : State) (p : Port) (tail : Bool) (h : ∀ g, (s.port p).fr tail = some g → g.profile ≠ 1) :
    s.earlyZones p tail = s := by
  refine forEach_eq_self ?_ _
  intro z
  dsimp only
  split
  · rfl
  next g hg => exact if_neg fun hw => h g hg hw.1

end Sys2Proof.Machine
end

section
/-! SUPPORT. The words of a row leave the radiometric unit (R186), and the frame deadline (R297). -/
namespace Sys2Proof.Machine

/-! ### Keyed lists -/

theorem lookupN_insertN {α : Type} (l : List (Nat × α)) (a b : Nat) (x : α) :
    lookupN (insertN l a x) b = if b = a then some x else lookupN l b := by
  induction l with
  | nil => simp [insertN, lookupN]
  | cons e r ih =>
    obtain ⟨k, y⟩ := e
    unfold insertN
    split
    next hak =>
      subst hak
      simp only [lookupN]
      split <;> rfl
    next hak =>
      split
      · simp only [lookupN]
      · simp only [lookupN, ih]
        split
        next hbk => rw [if_neg (by omega)]
        · rfl

theorem getN_insertN {α : Type} (l : List (Nat × α)) (a b : Nat) (x d : α) :
    getN (insertN l a x) b d = if b = a then x else getN l b d := by
  unfold getN
  rw [lookupN_insertN]
  split <;> rfl

/-! ### Elements that leave stage 8 -/

/-- Frame `g` is frame `fr` after elements have left stage 8: what was fixed at its meridian stands, and no word formed is lost. -/
structure Frame.Leaves (p : Port) (fr g : Frame) : Prop where
  pb : g.pb = fr.pb
  profile : g.profile = fr.profile
  ended : g.ended = fr.ended
  word : ∀ r a, (fr.px p r a).word.isSome = true → (g.px p r a).word.isSome = true

theorem Frame.Leaves.refl (p : Port) (fr : Frame) : fr.Leaves p fr := ⟨rfl, rfl, rfl, fun _ _ h => h⟩

theorem Frame.Leaves.trans {p : Port} {fr g k : Frame} (h : fr.Leaves p g) (h' : g.Leaves p k) : fr.Leaves p k :=
  ⟨h'.pb.trans h.pb, h'.profile.trans h.profile, h'.ended.trans h.ended, fun r a hw => h'.word r a (h.word r a hw)⟩

theorem setPx_px (fr : Frame) (p : Port) (r a r' a' : Nat) (x : Pix) :
    (fr.setPx p r a x).px p r' a' = if fr.idx p r' a' = fr.idx p r a then x else fr.px p r' a' := getN_insertN ..

theorem setPx_leaves (fr : Frame) (p : Port) (r a : Nat) (x : Pix) (hx : x.word.isSome = true) : fr.Leaves p (fr.setPx p r a x) := by
  refine ⟨rfl, rfl, rfl, fun r' a' h => ?_⟩
  rw [setPx_px]
  split
  · exact hx
  · exact h

@[simp] theorem slotCheck_ports (s : State) (p : Port) (pb : PMap) (slot : Option (Fin 4)) (r a n : Nat) :
    (s.slotCheck p pb slot r a n).ports = s.ports := by
  unfold State.slotCheck
  split <;> simp

/-- An element that leaves stage 8 has its word. -/
theorem elemOut_fr (s : State) (p : Port) (tail : Bool) (r a : Nat) (fr : Frame) (hf : (s.port p).fr tail = some fr) :
    ∃ g, ((s.elemOut p tail r a).port p).fr tail = some g ∧ fr.Leaves p g ∧ (g.px p r a).word.isSome = true := by
  unfold State.elemOut
  split
  next hn => simp [hf] at hn
  next fr' hf' =>
    obtain rfl : fr = fr' := Option.some.inj (hf.symm.trans hf')
    extract_lets px checked q k out marked
    let g := fr.setPx p r a out
    have hc : (checked.port p).fr tail = some fr := by
      rw [← hf]
      refine congrArg (PortS.fr · tail) (port_of_ports ?_ p)
      simp only [checked]
      split <;> simp
    obtain ⟨m, hm, hpb, hpr, hen, hpix⟩ : ∃ m, (marked.port p).fr tail = some m ∧ m.pb = g.pb ∧
        m.profile = g.profile ∧ m.ended = g.ended ∧ m.pix = g.pix := by
      refine ⟨_, (modFrame_fr ..).trans (congrArg (Option.map _) hc), rfl, rfl, rfl, rfl⟩
    have hpx : ∀ r' a', m.px p r' a' = g.px p r' a' := fun r' a' => by unfold Frame.px Frame.idx; rw [hpix, hpb]
    have hg : fr.Leaves p g := setPx_leaves fr p r a out rfl
    refine ⟨m, ?_, ⟨hpb.trans hg.pb, hpr.trans hg.profile, hen.trans hg.ended, fun r' a' h => ?_⟩, ?_⟩
    · rw [← hm]
      refine congrArg (PortS.fr · tail) (port_of_ports ?_ p)
      split <;> simp
    · rw [hpx]
      exact hg.word r' a' h
    · rw [hpx, setPx_px, if_pos rfl]
      rfl

theorem forEach_elemOut_fr (l : List Nat) (s : State) (p : Port) (tail : Bool) (r : Nat) (fr : Frame) (hf : (s.port p).fr tail = some fr) :
    ∃ g, ((forEach l (fun a t => t.elemOut p tail r a) s).port p).fr tail = some g ∧ fr.Leaves p g ∧
      ∀ a ∈ l, (g.px p r a).word.isSome = true := by
  induction l generalizing s fr with
  | nil => exact ⟨fr, hf, .refl p fr, by simp⟩
  | cons a l ih =>
    obtain ⟨g, hg, hleaves, hword⟩ := elemOut_fr s p tail r a fr hf
    obtain ⟨k, hk, hleaves', hwords⟩ := ih (s.elemOut p tail r a) g hg
    refine ⟨k, hk, hleaves.trans hleaves', fun b hb => ?_⟩
    rcases List.mem_cons.mp hb with rfl | hb
    · exact hleaves'.word r b hword
    · exact hwords b hb

theorem groupSlot_ports (s : State) (p : Port) (tail : Bool) (r a : Nat) : (s.groupSlot p tail r a).ports = s.ports := by
  unfold State.groupSlot
  split
  · rfl
  · split <;> simp

/-- A group that leaves stage 8 has its eight words. -/
theorem groupOut_fr (s : State) (p : Port) (tail : Bool) (r a : Nat) (fr : Frame) (hf : (s.port p).fr tail = some fr)
    (hl : (fr.px p r a).lost = false) :
    ∃ g, ((s.groupOut p tail r a).port p).fr tail = some g ∧ fr.Leaves p g ∧ ∀ i, i < 8 → (g.px p r (a + i)).word.isSome = true := by
  obtain ⟨g, hg, hleaves, hwords⟩ := forEach_elemOut_fr ((List.range 8).map (a + ·)) s p tail r fr hf
  refine ⟨g, ?_, hleaves, fun i hi => hwords _ (List.mem_map.mpr ⟨i, List.mem_range.mpr hi, rfl⟩)⟩
  unfold State.groupOut
  rw [hf]
  dsimp only
  rw [if_neg (by simp [hl]), port_of_ports (groupSlot_ports ..) p]
  exact hg

/-! ### RADIOMETRIC_ROW -/

/-- A band's words of a row leave once its lanes have completed it (R186). -/
theorem exec_radiometricRow (s : State) (p : Port) (tail : Bool) (l : LaneNo) (row : Nat) (fr : Frame) (b : Band) (hup : s.up)
    (hf : (s.port p).fr tail = some fr) (hb : fr.bands.find? (fun b => b.lane == l) = some b) (hp : fr.processed = true)
    (hrow : row < fr.pb.rows p)
    (hdone : ∀ i, i < b.width → (fr.px p row (b.first + i)).doneC = true ∧ (fr.px p row (b.first + i)).word = none) :
    exec (.radiometricRow p tail l row) s = .next (((forEach ((List.range (b.width / 8)).map fun g => b.first + 8 * g)
      (fun a t => t.groupOut p tail row a) s).earlyZones p tail).tryComplete p tail |>.earlyZones p false) := by
  show execRadiometricRow p tail l row s = _
  have hall : ((List.range b.width).map (b.first + ·)).all (fun a => (fr.px p row a).doneC && (fr.px p row a).word.isNone) = true := by
    simp only [List.all_map, List.all_eq_true, List.mem_range]
    intro i hi
    simp [hdone i hi]
  unfold execRadiometricRow
  rw [if_neg (by simp [show s.thermal.held = false from hup]), hf]
  dsimp only
  rw [hb]
  dsimp only
  rw [if_neg (by simp only [hall, hp]; simp [hrow])]

theorem tryComplete_of_not_ended (s : State) (p : Port) (tail : Bool) (g : Frame) (hg : (s.port p).fr tail = some g) (he : g.ended = false) :
    s.tryComplete p tail = s := by
  unfold State.tryComplete
  rw [hg]
  exact if_neg (by simp [he])

/-- The early zones of the arriving frame form no word and lose none. -/
theorem earlyZones_fr_px (s : State) (p : Port) (tail : Bool) (g : Frame) (hg : (s.port p).fr tail = some g) (hw : g.profile ≠ 1) :
    ∃ k, ((s.earlyZones p false).port p).fr tail = some k ∧ ∀ r a, k.px p r a = g.px p r a := by
  cases tail with
  | false =>
    refine ⟨g, ?_, fun _ _ => rfl⟩
    rw [earlyZones_of_not_watch s p false fun k hk => ?_, hg]
    rw [hg] at hk
    exact Option.some.inj hk ▸ hw
  | true =>
    have hkeep := earlyZones_tail_map (fun fr => (fr.pix, fr.pb)) (fun _ _ => rfl) s p p false
    rw [show (s.port p).tail = some g from hg] at hkeep
    obtain ⟨k, hk, he⟩ := Option.map_eq_some_iff.mp hkeep
    obtain ⟨hpix, hpb⟩ := Prod.mk.inj he
    exact ⟨k, hk, fun r a => by unfold Frame.px Frame.idx; rw [hpix, hpb]⟩

/-- The words of a band of one group, of a frame not in WATCH that has not ended. -/
theorem radiometricRow_words (s : State) (p : Port) (tail : Bool) (row : Nat) (fr : Frame) (b : Band)
    (hf : (s.port p).fr tail = some fr) (hw : b.width = 8) (hpr : fr.profile ≠ 1) (he : fr.ended = false)
    (hl : (fr.px p row b.first).lost = false) :
    ∃ g, (((((forEach ((List.range (b.width / 8)).map fun g => b.first + 8 * g) (fun a t => t.groupOut p tail row a) s).earlyZones p
      tail).tryComplete p tail).earlyZones p false).port p).fr tail = some g ∧
      ∀ i, i < 8 → ((g.px p row (b.first + i)).word).isSome = true := by
  obtain ⟨g, hg, hleaves, hwords⟩ := groupOut_fr s p tail row b.first fr hf hl
  have hone : (List.range (b.width / 8)).map (fun g => b.first + 8 * g) = [b.first] := by simp [hw]
  have hgpr : g.profile ≠ 1 := hleaves.profile ▸ hpr
  rw [hone, forEach_cons, forEach_nil, earlyZones_of_not_watch _ p tail (fun k hk => Option.some.inj (hg.symm.trans hk) ▸ hgpr),
    tryComplete_of_not_ended _ p tail g hg (hleaves.ended.trans he)]
  obtain ⟨k, hk, hpx⟩ := earlyZones_fr_px _ p tail g hg hgpr
  exact ⟨k, hk, fun i hi => by rw [hpx]; exact hwords i hi⟩

/-! ### The deadline -/

/-- Whether the deadline of the port's last frame has passed, where there is one. -/
def State.passed (s : State) (p : Port) : Option Bool := (s.port p).tail.map (·.deadlinePassed)

theorem passed_of_ports {s t : State} (h : t.ports = s.ports) (p : Port) : t.passed p = s.passed p := by
  unfold State.passed
  rw [port_of_ports h]

theorem modPort_passed (s : State) (q p : Port) (f : PortS → PortS) (hf : ∀ x, (f x).tail = x.tail) : (s.modPort q f).passed p = s.passed p :=
  congrArg _ (modPort_tail s q p f hf)

theorem modFrame_passed (s : State) (q p : Port) (tail : Bool) (f : Frame → Frame) (hf : ∀ fr, (f fr).deadlinePassed = fr.deadlinePassed) :
    (s.modFrame q tail f).passed p = s.passed p := modFrame_tail_map (·.deadlinePassed) s q p tail f hf

theorem giveUp_passed (s : State) (v : Invoc) (p : Port) : (s.giveUp v).passed p = s.passed p := by
  refine forEach_eq_of_step (State.passed · p) ?_ _ _
  intro i t
  extract_lets w y mark all
  have hmark : ∀ d f fr, (mark d f fr).deadlinePassed = fr.deadlinePassed := fun d f fr => by
    simp only [mark]
    split <;> rfl
  have hall : ∀ fr, (all fr).deadlinePassed = fr.deadlinePassed := fun fr => by simp only [all, hmark]
  exact modFrame_passed y.2 v.port p v.tail all hall

theorem noRetry_passed (s : State) (l : LaneNo) (p : Port) : (s.noRetry l).passed p = s.passed p := by
  unfold State.noRetry
  dsimp only
  split
  · rw [passed_of_ports (modLane_ports ..), giveUp_passed, passed_of_ports (modFm_ports ..)]
  · exact passed_of_ports (modFm_ports ..) p

theorem patchTile_passed (s : State) (p : Port) (t : Nat) : (s.patchTile p t).passed p = s.passed p := by
  unfold State.patchTile
  split
  · rfl
  next fr _ =>
    extract_lets prev px left late g rows flagged counted
    have hrows : rows.passed p = s.passed p := by
      refine forEach_eq_of_step (State.passed · p) ?_ _ _
      intro r u
      extract_lets checked ws filled
      have hfilled : filled.passed p = u.passed p := by
        refine (forEach_eq_of_step (State.passed · p) ?_ _ _).trans (passed_of_ports (slotCheck_ports ..) p)
        intro x v
        exact modFrame_passed v p p true _ (by intro fr; rfl)
      split
      · exact (passed_of_ports (storeWrite_ports ..) p).trans hfilled
      · exact hfilled
    have hflagged : flagged.passed p = s.passed p := (modFrame_passed rows p p true _ (by intro fr; rfl)).trans hrows
    exact (forEach_eq_of_step (State.passed · p) (fun _ _ => passed_of_ports (occur_ports ..) p) _ _).trans hflagged

@[simp] theorem streamRecord_ports (s : State) (st : Fin 8) : (s.streamRecord st).ports = s.ports := storeWrite_ports ..

@[simp] theorem markStreams_ports (s : State) (p : Port) (m : W) (patched held : Bool) (prev : Option (Fin 4)) :
    (s.markStreams p m patched held prev).ports = s.ports :=
  forEach_eq_of_step State.ports (fun _ _ => streamRecord_ports ..) _ _

theorem maximaEnter_passed (s : State) (p : Port) (tail : Bool) : (s.maximaEnter p tail).passed p = s.passed p := by
  unfold State.maximaEnter
  split
  · rfl
  · extract_lets enters
    exact (modFrame_passed _ p p tail _ (by intro fr; rfl)).trans (modPort_passed s p p _ (by intro x; rfl))

theorem statWrite_passed (s : State) (p : Port) (fr : Frame) (tone : Bool) : (s.statWrite p fr tone).passed p = s.passed p := by
  unfold State.statWrite
  extract_lets m written
  refine (congrArg _ (notifyAdd_tail ..)).trans ((modPort_passed written p p _ (by intro x; rfl)).trans ?_)
  exact passed_of_ports (storeWrite_ports ..) p

@[simp] theorem sendDigests_ports (s : State) (p : Port) (fr : Frame) : (s.sendDigests p fr).ports = s.ports := by
  unfold State.sendDigests
  split
  · rfl
  · extract_lets across n m ds port told
    exact (forEach_eq_of_step State.ports (fun _ _ => kept_ports (linkSend_kept ..)) _ _).trans rfl

/-- The completion of a frame's record moves no deadline. -/
theorem frameComplete_passed (s : State) (p : Port) (tail : Bool) : (s.frameComplete p tail).passed p = s.passed p := by
  unfold State.frameComplete
  extract_lets evaluated
  have hz : evaluated.passed p = s.passed p := (maximaEnter_passed ..).trans
    (forEach_eq_of_step (State.passed · p) (fun _ _ => zoneEval_tail_map (·.deadlinePassed) (fun _ _ => rfl) ..) _ _)
  split
  · exact hz
  · extract_lets tn curve stat written done
    have hcurve : curve.passed p = evaluated.passed p := modPort_passed evaluated p p _ (by intro x; split <;> rfl)
    have hstat : stat.passed p = curve.passed p := statWrite_passed ..
    have hdone : done.passed p = stat.passed p :=
      (modFrame_passed written p p tail _ (by intro fr; rfl)).trans (passed_of_ports (storeWrite_ports ..) p)
    rw [passed_of_ports (sendDigests_ports ..), hdone, hstat, hcurve, hz]

/-- After its deadline a frame is marked as past it. -/
theorem deadline_passed (s : State) (p : Port) (fr : Frame) (hf : (s.port p).tail = some fr) (hd : fr.deadlinePassed = false) :
    (s.deadline p).passed p = some true := by
  unfold State.deadline
  split
  next hn => simp [hf] at hn
  next fr' hf' =>
    obtain rfl : fr = fr' := Option.some.inj (hf.symm.trans hf')
    rw [if_neg (by simp [hd])]
    extract_lets marked released unfinished patched recounted told
    have hm : marked.passed p = some true := by
      unfold State.passed marked
      rw [modFrame_tail, hf]
      rfl
    have hr : released.passed p = some true :=
      (forEach_eq_of_step (State.passed · p) (fun _ _ => noRetry_passed ..) _ _).trans hm
    split
    · exact hr
    · have hp : patched.passed p = some true :=
        (forEach_eq_of_step (State.passed · p) (fun _ _ => patchTile_passed ..) _ _).trans hr
      have hc : recounted.passed p = some true := by
        simp only [recounted]
        split
        · exact hp
        · split
          · exact (modFrame_passed patched p p true _ (by intro g; rfl)).trans hp
          · exact hp
      have ht : told.passed p = some true := by
        simp only [told]
        split
        · exact hc
        · refine (passed_of_ports ?_ p).trans hc
          split <;> simp
      exact (frameComplete_passed ..).trans ht

/-- The deadline of a frame that is not processed, or finished, only passes where no lane keeps a group for its retry. -/
theorem deadline_of_finished (s : State) (p : Port) (fr : Frame) (hf : (s.port p).tail = some fr) (hd : fr.deadlinePassed = false)
    (ha : ∀ l, (s.lane l).abandoned = none) (h : fr.processed = false ∨ fr.statDone = true) :
    s.deadline p = s.modFrame p true fun fr => { fr with deadlinePassed := true } := by
  unfold State.deadline
  rw [hf]
  dsimp only
  have hnone : ((allFin 96).filter fun l =>
      (((s.modFrame p true fun fr => { fr with deadlinePassed := true }).lane l).abandoned).any fun v => v.port == p && v.tail) = [] := by
    refine List.filter_eq_nil_iff.mpr fun l _ => ?_
    rw [show ((s.modFrame p true fun fr => { fr with deadlinePassed := true }).lane l).abandoned = none from ha l]
    simp
  rw [if_neg (by simp [hd]), hnone, forEach_nil, if_pos (by rcases h with h | h <;> simp [h])]

/-! ### STATS_NOTIFY_DELIVER -/

/-- A pending notification enters channel 15 of the port's engine where there is room, and is cleared (R191). -/
theorem exec_statsNotifyDeliver (s : State) (p : Port) (e : Eng) (hup : s.up) (he : e.val = p.val + 1)
    (hn : (s.port p).notify &&& 0xFFFF0003 ≠ 0) (hc : ((s.eng e).chans.get 15).length < 4) :
    exec (.statsNotifyDeliver p) s = .next (((s.modEng e fun en => { en with chans := upd en.chans 15 (· ++ [(s.port p).notify]) }).latch
      e 0 24).modPort p fun x => { x with notify := 0 }) := by
  obtain ⟨n, hlt⟩ := e
  obtain rfl : n = p.val + 1 := he
  have hheld : s.thermal.held = false := hup
  exact if_neg (by simp only [hheld, not_or]; exact ⟨by simp, hn, by omega⟩)

theorem exec_frameDeadline (s : State) (p : Port) (hup : s.up) :
    exec (.frameDeadline p) s = .next ((s.deadline p).earlyZones p false).clocksTake :=
  if_neg (by simp [show s.thermal.held = false from hup])

end Sys2Proof.Machine
open Sys2Proof Sys2Proof.Machine

/-- Settles O44: the rows leave group by group, and whatever the deadline does else keeps its mark (`State.passed`). -/
theorem framesLeaveTheHearth : Obligations.FramesLeaveTheHearth := by
  unfold Obligations.FramesLeaveTheHearth
  intro s p tail l row fr b e hup
  refine ⟨exec_radiometricRow s p tail l row fr b hup, ?group, exec_statsNotifyDeliver s p e hup, exec_frameDeadline s p hup, ?deadline⟩
  case group =>
    intro hf hbands hlane hw hp hpr he hrow _ hdone
    have hfind : fr.bands.find? (fun b => b.lane == l) = some b := by simp [hbands, hlane]
    refine ⟨_, exec_radiometricRow s p tail l row fr b hup hf hfind hp hrow fun i hi => ?_,
      radiometricRow_words s p tail row fr b hf hw hpr he ?_⟩
    · obtain ⟨hdoneC, hword, -⟩ := hdone i (hw ▸ hi)
      exact ⟨hdoneC, hword⟩
    · obtain ⟨-, -, hlost⟩ := hdone 0 (by decide)
      exact hlost
  case deadline =>
    intro hf hd
    refine ⟨?_, deadline_of_finished s p fr hf hd⟩
    obtain ⟨g, hg, hpassed⟩ := Option.map_eq_some_iff.mp (deadline_passed s p fr hf hd)
    exact ⟨g, hg, hpassed⟩
end

section
/-! SUPPORT. The words of Zhomunyx programs (R47–R49): a word is an encoding exactly where each of its fields is the one encoded, so that
both directions of the round trip read the same list of fields. -/
namespace Sys2Proof

/-! ### Fields -/

/-- A field is a concatenation where its two parts are. -/
theorem extract_eq_append_iff {l m n : Nat} (w : BitVec l) (k : Nat) (x : BitVec m) (y : BitVec n) :
    w.extractLsb' k (m + n) = x ++ y ↔ w.extractLsb' (k + n) m = x ∧ w.extractLsb' k n = y := by
  rw [← BitVec.extractLsb'_append_extractLsb'_eq_extractLsb' (x := w) (rfl : k + n = k + n)]
  constructor
  · intro h
    have h1 := congrArg (BitVec.extractLsb' n m) h
    have h0 := congrArg (BitVec.extractLsb' 0 n) h
    rw [BitVec.extractLsb'_append_eq_left, BitVec.extractLsb'_append_eq_left] at h1
    rw [BitVec.extractLsb'_append_eq_right, BitVec.extractLsb'_append_eq_right] at h0
    exact ⟨h1, h0⟩
  · rintro ⟨rfl, rfl⟩
    rfl

theorem extract_eq_regBits (w : W) (k : Nat) (r : Reg) : w.extractLsb' k 4 = regBits r ↔ regAt w k = r :=
  ⟨congrArg BitVec.toFin, fun h => congrArg BitVec.ofFin h⟩
theorem extract_eq_vregBits (w : W) (k : Nat) (r : Fin 8) : w.extractLsb' k 3 = vregBits r ↔ vregAt w k = r :=
  ⟨congrArg BitVec.toFin, fun h => congrArg BitVec.ofFin h⟩
theorem extract_eq_twoBits (w : W) (k : Nat) (x : Fin 4) : w.extractLsb' k 2 = twoBits x ↔ twoAt w k = x :=
  ⟨congrArg BitVec.toFin, fun h => congrArg BitVec.ofFin h⟩
theorem extract_eq_zero (w : W) (k n : Nat) : w.extractLsb' k n = 0 ↔ zeroAt w k n = true := by
  simp [zeroAt]
theorem extract_eq_bit1 (w : W) (k : Nat) (b : Bool) : w.extractLsb' k 1 = bit1 b ↔ bitOf w k = b := by
  constructor
  · intro h
    have h0 := congrArg (fun x => x.getLsbD 0) h
    simpa [bit1, bitOf] using h0
  · rintro rfl
    apply BitVec.eq_of_getLsbD_eq
    intro i hi
    obtain rfl : i = 0 := by omega
    simp [bitOf, bit1]

/-! ### The formats -/

theorem fmtA_eq_iff (w : W) (op : BitVec 6) (d a b : Reg) (fn : BitVec 14) : fmtA op d a b fn = w ↔
    w.extractLsb' 26 6 = op ∧ regAt w 22 = d ∧ regAt w 18 = a ∧ regAt w 14 = b ∧ w.extractLsb' 0 14 = fn := by
  rw [fmtA, eq_comm, ← BitVec.extractLsb'_eq_self (x := w), extract_eq_append_iff (n := 14), extract_eq_append_iff (n := 4),
    extract_eq_append_iff (n := 4), extract_eq_append_iff (n := 4), extract_eq_regBits, extract_eq_regBits, extract_eq_regBits,
    and_assoc, and_assoc, and_assoc, BitVec.extractLsb'_eq_self]

theorem fmtI_eq_iff (w : W) (op : BitVec 6) (d a : Reg) (imm : BitVec 18) : fmtI op d a imm = w ↔
    w.extractLsb' 26 6 = op ∧ regAt w 22 = d ∧ regAt w 18 = a ∧ w.extractLsb' 0 18 = imm := by
  rw [fmtI, eq_comm, ← BitVec.extractLsb'_eq_self (x := w), extract_eq_append_iff (n := 18), extract_eq_append_iff (n := 4),
    extract_eq_append_iff (n := 4), extract_eq_regBits, extract_eq_regBits, and_assoc, and_assoc, BitVec.extractLsb'_eq_self]

theorem fmtB_eq_iff (w : W) (op : BitVec 6) (cond : BitVec 4) (off : BitVec 22) : fmtB op cond off = w ↔
    w.extractLsb' 26 6 = op ∧ w.extractLsb' 22 4 = cond ∧ w.extractLsb' 0 22 = off := by
  rw [fmtB, eq_comm, ← BitVec.extractLsb'_eq_self (x := w), extract_eq_append_iff (n := 22), extract_eq_append_iff (n := 4),
    and_assoc, BitVec.extractLsb'_eq_self]

theorem fmtV_eq_iff (w : W) (op : BitVec 6) (vd va vb : Fin 8) (p : Fin 4) (fn : BitVec 15) : fmtV op vd va vb p fn = w ↔
    w.extractLsb' 26 6 = op ∧ vregAt w 23 = vd ∧ vregAt w 20 = va ∧ vregAt w 17 = vb ∧ twoAt w 15 = p ∧ w.extractLsb' 0 15 = fn := by
  rw [fmtV, eq_comm, ← BitVec.extractLsb'_eq_self (x := w), extract_eq_append_iff (n := 15), extract_eq_append_iff (n := 2),
    extract_eq_append_iff (n := 3), extract_eq_append_iff (n := 3), extract_eq_append_iff (n := 3), extract_eq_vregBits,
    extract_eq_vregBits, extract_eq_vregBits, extract_eq_twoBits, and_assoc, and_assoc, and_assoc, and_assoc, BitVec.extractLsb'_eq_self]

theorem aluWord_eq_iff (w : W) (fn : BitVec 6) (f : Bool) (d a b : Reg) : aluWord fn f d a b = w ↔
    w.extractLsb' 26 6 = 0 ∧ regAt w 22 = d ∧ regAt w 18 = a ∧ regAt w 14 = b ∧
      (zeroAt w 7 7 = true ∧ bitOf w 6 = f) ∧ w.extractLsb' 0 6 = fn := by
  rw [aluWord, fmtA_eq_iff, extract_eq_append_iff (n := 6), extract_eq_append_iff (n := 1), extract_eq_bit1,
    extract_eq_zero w 7]

theorem shiftWord_eq_iff (w : W) (k : BitVec 2) (d a : Reg) (sh : BitVec 6) : shiftWord k d a sh = w ↔
    w.extractLsb' 26 6 = 5 ∧ regAt w 22 = d ∧ regAt w 18 = a ∧ (zeroAt w 8 10 = true ∧ w.extractLsb' 6 2 = k) ∧ w.extractLsb' 0 6 = sh := by
  rw [shiftWord, fmtI_eq_iff, extract_eq_append_iff (n := 6), extract_eq_append_iff (n := 2), extract_eq_zero w 8]

theorem svcWord_eq_iff (w : W) (code : BitVec 8) (d a : Reg) : svcWord code d a = w ↔
    w.extractLsb' 26 6 = 0x1C ∧ regAt w 22 = d ∧ regAt w 18 = a ∧ zeroAt w 8 10 = true ∧ w.extractLsb' 0 8 = code := by
  rw [svcWord, fmtI_eq_iff, extract_eq_append_iff (n := 8), extract_eq_zero w 8]

/-! ### The function fields -/

theorem selField_iff (w : W) (cond : BitVec 4) : w.extractLsb' 0 14 = (0 : BitVec 3) ++ cond ++ (0 : BitVec 1) ++ (0x0D : BitVec 6) ↔
    ((zeroAt w 11 3 = true ∧ w.extractLsb' 7 4 = cond) ∧ bitOf w 6 = false) ∧ w.extractLsb' 0 6 = 0x0D := by
  rw [extract_eq_append_iff (n := 6), extract_eq_append_iff (n := 1), extract_eq_append_iff (n := 4), extract_eq_zero w 11,
    show (0 : BitVec 1) = bit1 false from rfl, extract_eq_bit1]

theorem sendField_iff (w : W) (dst ch : Fin 16) : w.extractLsb' 0 14 = (0 : BitVec 6) ++ regBits dst ++ regBits ch ↔
    (zeroAt w 8 6 = true ∧ regAt w 4 = dst) ∧ regAt w 0 = ch := by
  rw [extract_eq_append_iff (n := 4), extract_eq_append_iff (n := 4), extract_eq_zero w 8, extract_eq_regBits, extract_eq_regBits]

theorem recvField_iff (w : W) (nb : Bool) (ch : Fin 16) : w.extractLsb' 0 14 = (0 : BitVec 9) ++ bit1 nb ++ regBits ch ↔
    (zeroAt w 5 9 = true ∧ bitOf w 4 = nb) ∧ regAt w 0 = ch := by
  rw [extract_eq_append_iff (n := 4), extract_eq_append_iff (n := 1), extract_eq_zero w 5, extract_eq_bit1, extract_eq_regBits]

theorem commitField_iff (w : W) (blk : BitVec 10) : w.extractLsb' 0 18 = (0 : BitVec 8) ++ blk ↔
    zeroAt w 10 8 = true ∧ w.extractLsb' 0 10 = blk := by
  rw [extract_eq_append_iff (n := 10), extract_eq_zero w 10]

theorem vmemField_iff (w : W) (g : Reg) (mode : Fin 4) (off : BitVec 9) : w.extractLsb' 0 15 = regBits g ++ twoBits mode ++ off ↔
    (regAt w 11 = g ∧ twoAt w 9 = mode) ∧ w.extractLsb' 0 9 = off := by
  rw [extract_eq_append_iff (n := 9), extract_eq_append_iff (n := 2), extract_eq_regBits, extract_eq_twoBits]

theorem vaddField_iff (w : W) (mode : Fin 4) : w.extractLsb' 0 15 = (0 : BitVec 13) ++ twoBits mode ↔
    zeroAt w 2 13 = true ∧ twoAt w 0 = mode := by
  rw [extract_eq_append_iff (n := 2), extract_eq_zero w 2, extract_eq_twoBits]

theorem vmulField_iff (w : W) (u32 : Bool) (mode : Fin 4) (sh : BitVec 5) :
    w.extractLsb' 0 15 = (0 : BitVec 7) ++ bit1 u32 ++ twoBits mode ++ sh ↔
    ((zeroAt w 8 7 = true ∧ bitOf w 7 = u32) ∧ twoAt w 5 = mode) ∧ w.extractLsb' 0 5 = sh := by
  rw [extract_eq_append_iff (n := 5), extract_eq_append_iff (n := 2), extract_eq_append_iff (n := 1), extract_eq_zero w 8,
    extract_eq_bit1, extract_eq_twoBits]

theorem vmacField_iff (w : W) (sub u32 : Bool) (mode : Fin 4) (sh : BitVec 5) :
    w.extractLsb' 0 15 = (0 : BitVec 6) ++ bit1 sub ++ bit1 u32 ++ twoBits mode ++ sh ↔
    (((zeroAt w 9 6 = true ∧ bitOf w 8 = sub) ∧ bitOf w 7 = u32) ∧ twoAt w 5 = mode) ∧ w.extractLsb' 0 5 = sh := by
  rw [extract_eq_append_iff (n := 5), extract_eq_append_iff (n := 2), extract_eq_append_iff (n := 1), extract_eq_append_iff (n := 1),
    extract_eq_zero w 9, extract_eq_bit1, extract_eq_bit1, extract_eq_twoBits]

theorem vpolyField_iff (w : W) (sub : Bool) (s2 s1 : BitVec 5) : w.extractLsb' 0 15 = (0 : BitVec 4) ++ bit1 sub ++ s2 ++ s1 ↔
    ((zeroAt w 11 4 = true ∧ bitOf w 10 = sub) ∧ w.extractLsb' 5 5 = s2) ∧ w.extractLsb' 0 5 = s1 := by
  rw [extract_eq_append_iff (n := 5), extract_eq_append_iff (n := 5), extract_eq_append_iff (n := 1), extract_eq_zero w 11, extract_eq_bit1]

theorem vmedField_iff (w : W) (uns : Bool) : w.extractLsb' 0 15 = (0 : BitVec 14) ++ bit1 uns ↔
    zeroAt w 1 14 = true ∧ bitOf w 0 = uns := by
  rw [extract_eq_append_iff (n := 1), extract_eq_zero w 1, extract_eq_bit1]

theorem vcmpField_iff (w : W) (conj : Bool) (cond : Fin 8) : w.extractLsb' 0 15 = (0 : BitVec 11) ++ bit1 conj ++ vregBits cond ↔
    (zeroAt w 4 11 = true ∧ bitOf w 3 = conj) ∧ vregAt w 0 = cond := by
  rw [extract_eq_append_iff (n := 3), extract_eq_append_iff (n := 1), extract_eq_zero w 4, extract_eq_bit1, extract_eq_vregBits]

theorem vshrField_iff (w : W) (round sgn : Bool) (width : BitVec 5) (mode : Fin 4) (sh : BitVec 5) :
    w.extractLsb' 0 15 = (0 : BitVec 1) ++ bit1 round ++ bit1 sgn ++ width ++ twoBits mode ++ sh ↔
    ((((zeroAt w 14 1 = true ∧ bitOf w 13 = round) ∧ bitOf w 12 = sgn) ∧ w.extractLsb' 7 5 = width) ∧ twoAt w 5 = mode) ∧
      w.extractLsb' 0 5 = sh := by
  rw [extract_eq_append_iff (n := 5), extract_eq_append_iff (n := 2), extract_eq_append_iff (n := 5), extract_eq_append_iff (n := 1),
    extract_eq_append_iff (n := 1), extract_eq_zero w 14, extract_eq_bit1, extract_eq_bit1, extract_eq_twoBits]

theorem vsatField_iff (w : W) (sgn : Bool) (width : BitVec 5) : w.extractLsb' 0 15 = (0 : BitVec 9) ++ bit1 sgn ++ width ↔
    (zeroAt w 6 9 = true ∧ bitOf w 5 = sgn) ∧ w.extractLsb' 0 5 = width := by
  rw [extract_eq_append_iff (n := 5), extract_eq_append_iff (n := 1), extract_eq_zero w 6, extract_eq_bit1]

/-! ### Reserved fields -/

theorem zeroAt_add (w : W) (k m n : Nat) : zeroAt w k (m + n) = (zeroAt w (k + n) m && zeroAt w k n) := by
  have h := extract_eq_append_iff w k (0 : BitVec m) (0 : BitVec n)
  have h0 : (0 : BitVec m) ++ (0 : BitVec n) = (0 : BitVec (m + n)) := BitVec.zero_append_zero
  rw [h0, extract_eq_zero, extract_eq_zero, extract_eq_zero] at h
  rw [Bool.eq_iff_iff, h, Bool.and_eq_true]

theorem zeroAt_reg (w : W) (k : Nat) : zeroAt w k 4 = (regAt w k == 0) := by
  rw [Bool.eq_iff_iff, ← extract_eq_zero, show (0 : BitVec 4) = regBits 0 from rfl, extract_eq_regBits, beq_iff_eq]

theorem zeroAt_vreg (w : W) (k : Nat) : zeroAt w k 3 = (vregAt w k == 0) := by
  rw [Bool.eq_iff_iff, ← extract_eq_zero, show (0 : BitVec 3) = vregBits 0 from rfl, extract_eq_vregBits, beq_iff_eq]

/-! ### Decoding an encoded command -/

theorem decode_of_encode (ag : Agent) (i : Instr) (w : W) (hz : zxOfInstr i = some ⟨ag, .none⟩) (h : zxEncode i = some w) :
    zxDecode ag w = i := by
  cases i
  case add | sub | and | or | xor | shl | shr | sra | mul | mulh | min | max | clamp =>
    obtain rfl := Option.some.inj hz
    simp only [zxEncode, Option.some.injEq, aluWord_eq_iff] at h
    simp [zxDecode, zxAlu, zxOf, h]
  case sel =>
    obtain rfl := Option.some.inj hz
    simp only [zxEncode, Option.some.injEq, fmtA_eq_iff, selField_iff] at h
    simp [zxDecode, zxAlu, zxOf, h]
  case shli | shri | srai =>
    obtain rfl := Option.some.inj hz
    simp only [zxEncode, Option.some.injEq, shiftWord_eq_iff] at h
    simp [zxDecode, zxShift, zxOf, h]
  case addi | andi | ori | xori | lui | cmpi | ldW | ldH | ldHs | ldB | ldBs | stW | stH | stB | ldPb | loop | mer | param | post =>
    obtain rfl := Option.some.inj hz
    simp only [zxEncode, Option.some.injEq, fmtI_eq_iff] at h
    simp [zxDecode, zxOf, h]
  case bcc | call =>
    obtain rfl := Option.some.inj hz
    simp only [zxEncode, Option.some.injEq, fmtB_eq_iff] at h
    simp [zxDecode, zxOf, h]
  case commit =>
    obtain rfl := Option.some.inj hz
    simp only [zxEncode, Option.some.injEq, fmtI_eq_iff, commitField_iff] at h
    simp [zxDecode, zxOf, h]
  case ret =>
    obtain rfl := Option.some.inj hz
    simp only [zxEncode, Option.some.injEq, fmtA_eq_iff, extract_eq_zero w 0 14] at h
    simp [zxDecode, zxSync, zxOf, h, zeroAt_add w 0 4 14, zeroAt_reg]
  case wait | yield | tileLd | tileSt =>
    obtain rfl := Option.some.inj hz
    simp only [zxEncode, Option.some.injEq, fmtA_eq_iff] at h
    simp [zxDecode, zxSync, zxOf, h]
  case send | recv =>
    obtain rfl := Option.some.inj hz
    simp only [zxEncode, Option.some.injEq, fmtA_eq_iff, sendField_iff, recvField_iff] at h
    simp [zxDecode, zxSync, zxOf, h]
  case svcStartTransit | svcSelfTest | svcNoteRecord | svcRequestRetirement | svcReadAgreedTime =>
    obtain rfl := Option.some.inj hz
    simp only [zxEncode, Option.some.injEq, svcWord_eq_iff] at h
    simp [zxDecode, zxSvc, zxOf, h]
  case vld | vst =>
    obtain rfl := Option.some.inj hz
    simp only [zxEncode, Option.some.injEq, fmtV_eq_iff, vmemField_iff] at h
    simp [zxDecode, zxVector, zxOf, h, zeroAt_add w 17 3 3, zeroAt_vreg]
  case vadd | vsub | vmul | vmac | vpoly | vmed3 | vclamp | vsel | vcmp | vshr | vsat =>
    obtain rfl := Option.some.inj hz
    simp only [zxEncode, Option.some.injEq, fmtV_eq_iff, vaddField_iff, vmulField_iff, vmacField_iff, vpolyField_iff, vmedField_iff,
      extract_eq_zero w 0 15, vcmpField_iff, vshrField_iff, vsatField_iff] at h
    simp [zxDecode, zxVector, zxOf, h, zeroAt_vreg]
  all_goals nomatch hz

/-! ### Encoding a decoded word -/

/-- `i` is a command of `ag`, and one without flaw only where `w` is its word. -/
def Spells (ag : Agent) (w : W) (i : Instr) : Prop :=
  ∃ z, zxOfInstr i = some z ∧ z.agent = ag ∧ (z.flaw = .none → zxEncode i = some w)

theorem zxOf_flaw (ag : Agent) (ok : Bool) : (zxOf ag ok).flaw = .none ↔ ok = true := by
  cases ok <;> simp [zxOf]

theorem spells_illegal (ag : Agent) (w : W) : Spells ag w (illegalWord ag) :=
  ⟨zxOf ag false, rfl, rfl, nofun⟩

/-- The command of an opcode whose reserved bits `ok` checks. -/
theorem spells_of_reserved (ag : Agent) (w : W) (ok : Bool) {i : Instr} (hi : zxOfInstr i = some (zxOf ag ok))
    (h : ok = true → zxEncode i = some w) : Spells ag w i :=
  ⟨zxOf ag ok, hi, rfl, fun hf => h ((zxOf_flaw ag ok).mp hf)⟩

theorem spells_alu (ag : Agent) (w : W) (hop : w.extractLsb' 26 6 = 0) : Spells ag w (zxAlu ag w) := by
  unfold zxAlu
  extract_lets d a b f z
  have word (fn : BitVec 6) (hfn : (w.extractLsb' 0 6).toNat = fn.toNat) (hr : zeroAt w 7 7 = true) : some (aluWord fn f d a b) = some w :=
    congrArg some ((aluWord_eq_iff ..).mpr ⟨hop, rfl, rfl, rfl, ⟨hr, rfl⟩, BitVec.eq_of_toNat_eq hfn⟩)
  split
  case h_14 hfn =>
    refine spells_of_reserved _ _ _ rfl fun ok => congrArg some ((fmtA_eq_iff ..).mpr ⟨hop, rfl, rfl, rfl, (selField_iff ..).mpr ?_⟩)
    rw [Bool.and_eq_true, Bool.not_eq_true'] at ok
    exact ⟨⟨⟨ok.1, rfl⟩, ok.2⟩, BitVec.eq_of_toNat_eq hfn⟩
  case h_15 => exact spells_illegal ag w
  all_goals exact spells_of_reserved _ _ _ rfl (word _ ‹_›)

theorem spells_shift (ag : Agent) (w : W) (hop : w.extractLsb' 26 6 = 5) : Spells ag w (zxShift ag w) := by
  unfold zxShift
  extract_lets d a z sh
  have word (k : BitVec 2) (hk : (w.extractLsb' 6 2).toNat = k.toNat) (hr : zeroAt w 8 10 = true) : some (shiftWord k d a sh) = some w :=
    congrArg some ((shiftWord_eq_iff ..).mpr ⟨hop, rfl, rfl, ⟨hr, BitVec.eq_of_toNat_eq hk⟩, rfl⟩)
  split
  case h_4 => exact spells_illegal ag w
  all_goals exact spells_of_reserved _ _ _ rfl (word _ ‹_›)

theorem spells_svc (ag : Agent) (w : W) (hop : w.extractLsb' 26 6 = 0x1C) : Spells ag w (zxSvc ag w) := by
  unfold zxSvc
  extract_lets d a z
  have word (code : BitVec 8) (hc : (w.extractLsb' 0 8).toNat = code.toNat) (hr : zeroAt w 8 10 = true) : some (svcWord code d a) = some w :=
    congrArg some ((svcWord_eq_iff ..).mpr ⟨hop, rfl, rfl, hr, BitVec.eq_of_toNat_eq hc⟩)
  split
  case h_6 => exact ⟨_, rfl, rfl, fun hf => by split at hf <;> contradiction⟩
  all_goals exact spells_of_reserved _ _ _ rfl (word _ ‹_›)

theorem spells_sync (ag : Agent) (w : W) (op : Nat) (hop : (w.extractLsb' 26 6).toNat = op)
    (h : op = 0x13 ∨ op = 0x15 ∨ op = 0x17 ∨ op = 0x18 ∨ op = 0x1B) : Spells ag w (zxSync ag w op) := by
  have word (o : BitVec 6) (d a b : Reg) (fn : BitVec 14) (ho : (w.extractLsb' 26 6).toNat = o.toNat) (hd : regAt w 22 = d)
      (ha : regAt w 18 = a) (hb : regAt w 14 = b) (hfn : w.extractLsb' 0 14 = fn) : some (fmtA o d a b fn) = some w :=
    congrArg some ((fmtA_eq_iff ..).mpr ⟨BitVec.eq_of_toNat_eq ho, hd, ha, hb, hfn⟩)
  have fn (x : BitVec 14) (hx : (w.extractLsb' 0 14).toNat = x.toNat) : w.extractLsb' 0 14 = x := BitVec.eq_of_toNat_eq hx
  rcases h with rfl | rfl | rfl | rfl | rfl
  · refine spells_of_reserved _ _ _ rfl fun ok => ?_
    simp only [zeroAt_add w 0 4 14, zeroAt_reg, Bool.and_eq_true, beq_iff_eq] at ok
    exact word _ _ _ _ _ hop ok.1 rfl ok.2.1 ((extract_eq_zero ..).mpr ok.2.2)
  · show Spells ag w (if (w.extractLsb' 0 14).toNat = 0 then _ else if (w.extractLsb' 0 14).toNat = 1 then _ else _)
    split_ifs with h0 h1
    · exact spells_of_reserved _ _ _ rfl fun ok => word _ _ _ _ _ hop rfl rfl (beq_iff_eq.mp ok) (fn _ h0)
    · refine spells_of_reserved _ _ _ rfl fun ok => ?_
      simp only [Bool.and_eq_true, beq_iff_eq] at ok
      exact word _ _ _ _ _ hop ok.1.1 ok.1.2 ok.2 (fn _ h1)
    · exact spells_illegal ag w
  · refine spells_of_reserved _ _ _ rfl fun ok => ?_
    simp only [Bool.and_eq_true, beq_iff_eq] at ok
    exact word _ _ _ _ _ hop ok.1.1 rfl ok.1.2 ((sendField_iff ..).mpr ⟨⟨ok.2, rfl⟩, rfl⟩)
  · refine spells_of_reserved _ _ _ rfl fun ok => ?_
    simp only [Bool.and_eq_true, beq_iff_eq] at ok
    exact word _ _ _ _ _ hop rfl ok.1.1 ok.1.2 ((recvField_iff ..).mpr ⟨⟨ok.2, rfl⟩, rfl⟩)
  · show Spells ag w (if (w.extractLsb' 0 14).toNat = 0 then _ else if (w.extractLsb' 0 14).toNat = 1 then _ else _)
    split_ifs with h0 h1
    · exact spells_of_reserved _ _ _ rfl fun _ => word _ _ _ _ _ hop rfl rfl rfl (fn _ h0)
    · exact spells_of_reserved _ _ _ rfl fun _ => word _ _ _ _ _ hop rfl rfl rfl (fn _ h1)
    · exact spells_illegal ag w

theorem spells_vector (ag : Agent) (w : W) : Spells ag w (zxVector ag w (w.extractLsb' 26 6).toNat) := by
  unfold zxVector
  extract_lets vd va vb p sh z
  have word (o : BitVec 6) (a b c : Fin 8) (fn : BitVec 15) (ho : (w.extractLsb' 26 6).toNat = o.toNat) (ha : vregAt w 23 = a)
      (hb : vregAt w 20 = b) (hc : vregAt w 17 = c) (hfn : w.extractLsb' 0 15 = fn) : some (fmtV o a b c p fn) = some w :=
    congrArg some ((fmtV_eq_iff ..).mpr ⟨BitVec.eq_of_toNat_eq ho, ha, hb, hc, rfl, hfn⟩)
  split
  case h_1 | h_2 =>
    refine spells_of_reserved _ _ _ rfl fun ok => ?_
    simp only [zeroAt_add w 17 3 3, zeroAt_vreg, Bool.and_eq_true, beq_iff_eq] at ok
    exact word _ _ _ _ _ ‹_› rfl ok.1 ok.2 ((vmemField_iff ..).mpr ⟨⟨rfl, rfl⟩, rfl⟩)
  case h_3 | h_4 => exact spells_of_reserved _ _ _ rfl fun ok => word _ _ _ _ _ ‹_› rfl rfl rfl ((vaddField_iff ..).mpr ⟨ok, rfl⟩)
  case h_5 => exact spells_of_reserved _ _ _ rfl fun ok => word _ _ _ _ _ ‹_› rfl rfl rfl ((vmulField_iff ..).mpr ⟨⟨⟨ok, rfl⟩, rfl⟩, rfl⟩)
  case h_6 => exact spells_of_reserved _ _ _ rfl fun ok => word _ _ _ _ _ ‹_› rfl rfl rfl ((vmacField_iff ..).mpr ⟨⟨⟨⟨ok, rfl⟩, rfl⟩, rfl⟩, rfl⟩)
  case h_7 => exact spells_of_reserved _ _ _ rfl fun ok => word _ _ _ _ _ ‹_› rfl rfl rfl ((vpolyField_iff ..).mpr ⟨⟨⟨ok, rfl⟩, rfl⟩, rfl⟩)
  case h_8 | h_9 => exact spells_of_reserved _ _ _ rfl fun ok => word _ _ _ _ _ ‹_› rfl rfl rfl ((vmedField_iff ..).mpr ⟨ok, rfl⟩)
  case h_10 => exact spells_of_reserved _ _ _ rfl fun ok => word _ _ _ _ _ ‹_› rfl rfl rfl ((extract_eq_zero ..).mpr ok)
  case h_11 =>
    refine spells_of_reserved _ _ _ rfl fun ok => ?_
    simp only [zeroAt_vreg, Bool.and_eq_true, beq_iff_eq] at ok
    exact word _ _ _ _ _ ‹_› ok.2 rfl rfl ((vcmpField_iff ..).mpr ⟨⟨ok.1, rfl⟩, rfl⟩)
  case h_12 =>
    refine spells_of_reserved _ _ _ rfl fun ok => ?_
    simp only [zeroAt_vreg, Bool.and_eq_true, beq_iff_eq] at ok
    exact word _ _ _ _ _ ‹_› rfl rfl ok.2 ((vshrField_iff ..).mpr ⟨⟨⟨⟨⟨ok.1, rfl⟩, rfl⟩, rfl⟩, rfl⟩, rfl⟩)
  case h_13 =>
    refine spells_of_reserved _ _ _ rfl fun ok => ?_
    simp only [zeroAt_vreg, Bool.and_eq_true, beq_iff_eq] at ok
    exact word _ _ _ _ _ ‹_› rfl rfl ok.2 ((vsatField_iff ..).mpr ⟨⟨ok.1, rfl⟩, rfl⟩)
  case h_14 => exact spells_illegal ag w

/-- Every word spells the command that it decodes to. -/
theorem decode_spells (ag : Agent) (w : W) : Spells ag w (zxDecode ag w) := by
  have opIs (o : BitVec 6) (ho : (w.extractLsb' 26 6).toNat = o.toNat) : w.extractLsb' 26 6 = o := BitVec.eq_of_toNat_eq ho
  have word (o : BitVec 6) (d a : Reg) (imm : BitVec 18) (ho : (w.extractLsb' 26 6).toNat = o.toNat) (hd : regAt w 22 = d)
      (ha : regAt w 18 = a) (hi : w.extractLsb' 0 18 = imm) : some (fmtI o d a imm) = some w :=
    congrArg some ((fmtI_eq_iff ..).mpr ⟨opIs o ho, hd, ha, hi⟩)
  have wordB (o : BitVec 6) (ho : (w.extractLsb' 26 6).toNat = o.toNat) :
      some (fmtB o (w.extractLsb' 22 4) (w.extractLsb' 0 22)) = some w :=
    congrArg some ((fmtB_eq_iff ..).mpr ⟨opIs o ho, rfl, rfl⟩)
  unfold zxDecode
  dsimp only
  generalize hop : (w.extractLsb' 26 6).toNat = op
  split
  case h_1 => exact spells_alu ag w (opIs _ hop)
  case h_6 => exact spells_shift ag w (opIs _ hop)
  case h_29 => exact spells_svc ag w (opIs _ hop)
  case h_20 | h_22 | h_24 | h_25 | h_28 => exact spells_sync ag w _ hop (by decide)
  case h_31 => exact hop ▸ spells_vector ag w
  case h_18 | h_19 => exact spells_of_reserved _ _ _ rfl fun _ => wordB _ hop
  case h_7 | h_23 => exact spells_of_reserved _ _ _ rfl fun ok => word _ _ _ _ hop rfl (beq_iff_eq.mp ok) rfl
  case h_8 | h_21 => exact spells_of_reserved _ _ _ rfl fun ok => word _ _ _ _ hop (beq_iff_eq.mp ok) rfl rfl
  case h_27 =>
    refine spells_of_reserved _ _ _ rfl fun ok => ?_
    simp only [Bool.and_eq_true, beq_iff_eq] at ok
    exact word _ _ _ _ hop ok.1.1 ok.1.2 ((commitField_iff ..).mpr ⟨ok.2, rfl⟩)
  case h_30 =>
    refine spells_of_reserved _ _ _ rfl fun ok => ?_
    simp only [Bool.and_eq_true, beq_iff_eq] at ok
    exact word _ _ _ _ hop ok.1 ok.2 rfl
  all_goals exact spells_of_reserved _ _ _ rfl fun _ => word _ _ _ _ hop rfl rfl rfl

theorem encode_isSome (i : Instr) : (zxEncode i).isSome = (zxOfInstr i).isSome := by
  cases i <;> rfl

end Sys2Proof

open Sys2Proof

/-- Settles O5: an encoded command decodes to itself (`decode_of_encode`), and every word spells its command (`decode_spells`). -/
theorem encodingsRoundTrip : Obligations.EncodingsRoundTrip := by
  unfold Obligations.EncodingsRoundTrip
  refine ⟨fun i z hz => ?_, decode_spells⟩
  obtain ⟨w, hw⟩ := Option.isSome_iff_exists.mp ((encode_isSome i).trans (by rw [hz]; rfl))
  refine ⟨w, hw, fun hf => decode_of_encode z.agent i w ?_ hw⟩
  rw [hz, ← hf]
end

section
/-! SUPPORT. The fetch that every Zhomunyx instruction begins with (R42, R43, R48, R59, R70): which exception it raises, and that an
instruction which may execute is its body on the state after the fetch. -/
namespace Sys2Proof.Machine

/-! ### The fetch -/

section
variable {s : State} {z : Zx} (avail : Bool) (body : Ctx → State → State)

theorem zx_outside (hr : s.runs z.agent = true) (ho : fetchOut z.agent (s.ctxOf z.agent).pc = true) :
    s.zx z avail body = .next (s.raise z.agent 6 0) := by
  simp [State.zx, hr, ho]

theorem zx_uncorrectable (hr : s.runs z.agent = true) (ho : fetchOut z.agent (s.ctxOf z.agent).pc = false)
    (he : (s.fetchErr z.agent (s.ctxOf z.agent).pc).1 = true) : s.zx z avail body = .next (s.raise z.agent 5 0) := by
  simp [State.zx, hr, ho, he]

/-- A word fetched whole is judged on the state after the fetch. -/
theorem zx_fetched (hr : s.runs z.agent = true) (ho : fetchOut z.agent (s.ctxOf z.agent).pc = false)
    (he : (s.fetchErr z.agent (s.ctxOf z.agent).pc).1 = false) : s.zx z avail body =
      if z.flaw = .reserved ∨ !avail then .next ((s.fetched z).raise z.agent 1 0)
      else if z.flaw = .service then .next ((s.fetched z).raise z.agent 7 0)
      else .next (body (s.cx z) (s.fetched z)) := by
  unfold State.zx
  simp only [hr, ho, he, Bool.not_true, Bool.false_eq_true, if_false]
  rfl

theorem zx_of_mayExecute (h : s.mayExecute z) : s.zx z true body = .next (body (s.cx z) (s.fetched z)) := by
  obtain ⟨hr, ho, he, hf⟩ := h
  rw [zx_fetched true body hr ho he, hf, if_neg (by decide), if_neg (by decide)]

end

/-! ### Every instruction is fetched -/

/-- Every Zhomunyx command is a fetch and a body; SVC 0x05 has one more reserved field. -/
theorem exec_eq_zx (s : State) (i : Instr) (z : Zx) (hz : zxOfInstr i = some z) : ∃ z' avail body,
    exec i s = s.zx z' avail body ∧ z'.agent = z.agent ∧ (z.flaw = .reserved → z'.flaw = .reserved) := by
  cases i
  case svcReadAgreedTime z d a =>
    cases hz
    simp only [exec, execSvcReadAgreedTime]
    exact ⟨_, _, _, rfl, rfl, fun h => by simp [h]⟩
  case svcNoteRecord z d a =>
    cases hz
    obtain ⟨ag, f⟩ := z
    cases ag <;> simp only [exec, execSvcNoteRecord] <;> exact ⟨_, _, _, rfl, rfl, id⟩
  all_goals cases hz
  all_goals
    simp only [exec, execAdd, execSub, execAnd, execOr, execXor, execShl, execShr, execSra, execMul, execMulh, execMin, execMax,
      execClamp, execSel, execAddi, execAndi, execOri, execXori, execShli, execShri, execSrai, execLui, execCmpi, State.aluShift,
      State.aluZN, State.alu, State.aluImm, execLdW, execLdH, execLdHs, execLdB, execLdBs, State.load, execStW, execStH, execStB,
      State.storeReg, execLdPb, execParam, execCommit, execBcc, execCall, execRet, execLoop, execWait, execYield, execMer, execSend,
      execRecv, execTileLd, execTileSt, State.tileIssue, execSvcStartTransit, execSvcSelfTest, execSvcRequestRetirement, State.svc,
      execPost, execVld, execVst, execVadd, execVsub, execVmul, execVmac, execVpoly, execVmed3, execVclamp, execVsel, execVcmp,
      execVshr, execVsat, State.vop, State.vec]
    exact ⟨_, _, _, rfl, rfl, id⟩

theorem fetched_of_agent (s : State) {z z' : Zx} (h : z'.agent = z.agent) : s.fetched z' = s.fetched z := by
  unfold State.fetched
  rw [h]

end Sys2Proof.Machine
open Sys2Proof Sys2Proof.Machine

/-- Settles O6: every command is a fetch and a body, and the fetch is judged before the body. -/
theorem fetchTrapsComeFirst : Obligations.FetchTrapsComeFirst := by
  unfold Obligations.FetchTrapsComeFirst
  intro s i z hz hr out err
  obtain ⟨z', avail, body, hexec, hag, hflaw⟩ := exec_eq_zx s i z hz
  rw [hexec, ← fetched_of_agent s hag]
  simp only [out, err, ← hag] at hr ⊢
  refine ⟨zx_outside avail body hr, zx_uncorrectable avail body hr, fun ho he hf => ?reserved, ?service⟩
  case reserved => rw [zx_fetched avail body hr ho he, if_pos (.inl (hflaw hf))]
  case service =>
    rintro e d a ho he rfl
    rw [fetched_of_agent s hag, hag]
    rw [hag] at hr ho he
    simp only [exec, execSvcStartTransit, State.svc]
    rw [zx_fetched _ _ hr ho he, if_neg (by simp [isEng]), if_pos rfl]
end

section
/-! SUPPORT. The scalar instructions on the executing context (R44, R50–R53): what a register reads after a write, what an instruction that
may execute makes of its context, and the flags as facts about the exact results. -/
namespace Sys2Proof.Machine

/-! ### Registers -/

@[simp] theorem get_zero (c : Ctx) : c.get 0 = 0 := rfl

@[simp] theorem put_zero (c : Ctx) (w : W) : c.put 0 w = c := rfl

theorem get_put (c : Ctx) (r : Reg) (w : W) (h : r ≠ 0) : (c.put r w).get r = w := by
  simp only [Ctx.put, Ctx.get, if_neg h, get_set]

theorem get_put_ne (c : Ctx) (r q : Reg) (w : W) (h : q ≠ r) : (c.put r w).get q = c.get q := by
  unfold Ctx.get
  by_cases hr : r = 0
  · rw [hr, put_zero]
  · simp only [Ctx.put, if_neg hr, get_set_ne _ _ _ _ h]

/-! ### The executing context -/

@[simp] theorem ctxOf_putCtx (s : State) (ag : Agent) (c : Ctx) : (s.putCtx ag c).ctxOf ag = c := by
  cases ag with
  | eng e => simp [State.ctxOf, State.putCtx, get_set]
  | lane l => simp [State.ctxOf, State.putCtx]

theorem stepCtx_congr (s : State) (z : Zx) {f g : Ctx → Ctx} (h : f (s.cx z) = g (s.cx z)) : s.stepCtx z f = s.stepCtx z g := by
  rw [State.stepCtx, State.stepCtx, h]

section
variable {s : State} {z : Zx}

/-- An ALU function of registers changes its register and, where F is 1, the flags. -/
theorem alu_of_mayExecute (h : s.mayExecute z) (f : Bool) (d a b : Reg) (r : W → W → W → W) (fl : Ctx → W → W → W → Ctx) :
    s.alu z f d a b r fl = .next (s.stepCtx z fun c =>
      (if f then fl c (c.get d) (c.get a) (c.get b) else c).put d (r (c.get d) (c.get a) (c.get b))) :=
  zx_of_mayExecute _ h

theorem aluImm_of_mayExecute (h : s.mayExecute z) (d a : Reg) (r : W → W) :
    s.aluImm z d a r = .next (s.stepCtx z fun c => c.put d (r (c.get a))) :=
  zx_of_mayExecute _ h

end

/-! ### Z and N (R50) -/

theorem neg_eq_bit31 (r : W) : decide (r.toInt < 0) = r.getLsbD 31 := by
  rw [← BitVec.msb_eq_toInt, BitVec.msb_eq_getLsbD_last]

theorem flagsZN_eq (c : Ctx) (r : W) : c.flagsZN r = { c with z := decide (r = 0), n := decide (r.toInt < 0) } := by
  rw [neg_eq_bit31]
  rfl

theorem put_flagsZN (c : Ctx) (f : Bool) (d : Reg) (r : W) : (if f then c.flagsZN r else c).put d r = c.setZN f d r := by
  rw [flagsZN_eq, Ctx.setZN]

/-- The Z and N of `r` with C and V given. -/
theorem put_flags (c : Ctx) (f : Bool) (d : Reg) (r : W) (cy ov : Bool) :
    (if f then { c.flagsZN r with c := cy, v := ov } else c).put d r = c.setFlags f d r cy ov := by
  rw [flagsZN_eq, Ctx.setFlags]

/-! ### Exact results -/

theorem wn_toNat (a : W) : wn a.toNat = a := by simp [wn]

theorem wi_toInt (a : W) : wi a.toInt = a := BitVec.ofInt_toInt

theorem add_eq_wn (a b : W) : a + b = wn (a.toNat + b.toNat) := by
  rw [wn, BitVec.ofNat_add, ← wn, ← wn, wn_toNat, wn_toNat]

theorem add_eq_wi (a b : W) : a + b = wi (a.toInt + b.toInt) := by
  rw [wi, BitVec.ofInt_add, ← wi, ← wi, wi_toInt, wi_toInt]

theorem sub_eq_wi (a b : W) : a - b = wi (a.toInt - b.toInt) := by
  rw [wi, Int.sub_eq_add_neg, BitVec.ofInt_add, BitVec.ofInt_neg, ← wi, ← wi, wi_toInt, wi_toInt, BitVec.sub_eq_add_neg]

theorem mul_eq_wn (a b : W) : a * b = wn (a.toNat * b.toNat) := by
  rw [wn, BitVec.ofNat_mul, ← wn, ← wn, wn_toNat, wn_toNat]

theorem toInt_sx18 (imm : BitVec 18) : (imm.signExtend 32).toInt = imm.toInt :=
  BitVec.toInt_signExtend_of_le (by decide)

/-! ### Carry and overflow (R50) -/

theorem overflow_add (a b : W) :
    (a.getLsbD 31 == b.getLsbD 31 && (a + b).getLsbD 31 != a.getLsbD 31) = overflows (a.toInt + b.toInt) := by
  have h := BitVec.saddOverflow_eq a b
  simp only [BitVec.saddOverflow, BitVec.msb_eq_getLsbD_last] at h
  rw [overflows, bne, ← h, Bool.or_comm]

theorem overflow_sub (a b : W) :
    (a.getLsbD 31 != b.getLsbD 31 && (a - b).getLsbD 31 != a.getLsbD 31) = overflows (a.toInt - b.toInt) := by
  have h := BitVec.ssubOverflow_eq a b
  simp only [BitVec.ssubOverflow, BitVec.msb_eq_getLsbD_last] at h
  have signs : ∀ x y z : Bool, (x != y && z != x) = (!x && y && z || x && !y && !z) := by decide
  rw [overflows, signs]
  exact h.symm.trans (Bool.or_comm ..)

theorem flagsAdd_eq (c : Ctx) (a b : W) : c.flagsAdd a b =
    { c.flagsZN (a + b) with c := decide (2 ^ 32 ≤ a.toNat + b.toNat), v := overflows (a.toInt + b.toInt) } := by
  rw [Ctx.flagsAdd, overflow_add]

theorem flagsSub_eq (c : Ctx) (a b : W) : c.flagsSub a b =
    { c.flagsZN (a - b) with c := decide (b.toNat ≤ a.toNat), v := overflows (a.toInt - b.toInt) } := by
  rw [Ctx.flagsSub, overflow_sub]

/-- CMPI's flags are those of a subtraction whose result goes to g0 (R53). -/
theorem flagsSub_eq_setFlags (c : Ctx) (a b : W) : c.flagsSub a b =
    c.setFlags true 0 (wi (a.toInt - b.toInt)) (decide (b.toNat ≤ a.toNat)) (overflows (a.toInt - b.toInt)) := by
  rw [flagsSub_eq, ← sub_eq_wi, ← put_flags]
  rfl

theorem exec_cmpi {s : State} {z : Zx} (h : s.mayExecute z) (a : Reg) (imm : BitVec 18) :
    exec (.cmpi z a imm) s = .next (s.stepCtx z fun c => c.setFlags true 0 (wi (((s.cx z).get a).toInt - imm.toInt))
      (decide ((imm.signExtend 32).toNat ≤ ((s.cx z).get a).toNat)) (overflows (((s.cx z).get a).toInt - imm.toInt))) := by
  simp only [exec, execCmpi, zx_of_mayExecute _ h, flagsSub_eq_setFlags, sx18, toInt_sx18]
  rfl

/-! ### Conditions (R51) -/

@[simp] theorem setFlags_zero (c : Ctx) (r : W) (cy ov : Bool) : c.setFlags true 0 r cy ov =
    { c with z := decide (r = 0), n := decide (r.toInt < 0), c := cy, v := ov } := rfl

theorem toInt_bounds (a : W) : -2 ^ 31 ≤ a.toInt ∧ a.toInt < 2 ^ 31 :=
  ⟨BitVec.le_toInt a, BitVec.toInt_lt⟩

/-- The sign of a wrapped difference and its overflow together say the sign of the exact difference. -/
theorem neg_eq_overflows_iff (x : Int) (hl : -2 ^ 32 < x) (hu : x < 2 ^ 32) :
    decide ((wi x).toInt < 0) = overflows x ↔ 0 ≤ x := by
  rw [wi, BitVec.toInt_ofInt, overflows, Int.bmod_def, ← Bool.decide_or, decide_eq_decide]
  omega

theorem sub_eq_zero_iff (a b : W) : wi (a.toInt - b.toInt) = 0 ↔ a = b := by
  rw [← sub_eq_wi]
  exact sub_eq_zero

/-- The flags of a comparison answer every order of the operands. -/
theorem cond_compare (c : Ctx) (a b : W) :
    let x := c.setFlags true 0 (wi (a.toInt - b.toInt)) (decide (b.toNat ≤ a.toNat)) (overflows (a.toInt - b.toInt))
    (x.cond 0 ↔ a = b) ∧ (x.cond 1 ↔ a ≠ b) ∧ (x.cond 2 ↔ b.toNat ≤ a.toNat) ∧ (x.cond 3 ↔ a.toNat < b.toNat) ∧
      (x.cond 8 ↔ b.toNat < a.toNat) ∧ (x.cond 9 ↔ a.toNat ≤ b.toNat) ∧ (x.cond 10 ↔ b.toInt ≤ a.toInt) ∧
      (x.cond 11 ↔ a.toInt < b.toInt) ∧ (x.cond 12 ↔ b.toInt < a.toInt) ∧ (x.cond 13 ↔ a.toInt ≤ b.toInt) ∧ x.cond 14 := by
  have hs : decide ((wi (a.toInt - b.toInt)).toInt < 0) = overflows (a.toInt - b.toInt) ↔ 0 ≤ a.toInt - b.toInt := by
    have ha := toInt_bounds a
    have hb := toInt_bounds b
    exact neg_eq_overflows_iff _ (by omega) (by omega)
  have hz := sub_eq_zero_iff a b
  simp only [setFlags_zero, Ctx.cond, BitVec.reduceToNat, beq_iff_eq, bne_iff_ne, Bool.and_eq_true, Bool.or_eq_true, Bool.not_eq_true',
    decide_eq_true_eq, decide_eq_false_iff_not, ne_eq, hs, hz]
  refine ⟨trivial, trivial, trivial, ?cc, ?hi, ?ls, ?ge, ?lt, ?gt, ?le, trivial⟩
  case cc | ge | lt => omega
  case hi | ls => rw [← BitVec.toNat_inj]; omega
  case gt | le => rw [← BitVec.toInt_inj]; omega

end Sys2Proof.Machine
open Sys2Proof Sys2Proof.Machine

/-- Settles O9: the flags of a sum and a difference as R50 gives them (`flagsAdd_eq`, `flagsSub_eq`). -/
theorem addSubtractCompareWithFlags : Obligations.AddSubtractCompareWithFlags := by
  unfold Obligations.AddSubtractCompareWithFlags
  intro s z f d a b imm h y w
  refine ⟨?add, ?sub, exec_cmpi h a imm⟩
  case add =>
    simp only [exec, execAdd, alu_of_mayExecute h, flagsAdd_eq, put_flags]
    exact congrArg _ (stepCtx_congr s z (by rw [← add_eq_wn]))
  case sub =>
    simp only [exec, execSub, alu_of_mayExecute h, flagsSub_eq, put_flags]
    exact congrArg _ (stepCtx_congr s z (by rw [← sub_eq_wi]))

/-- Settles O10: CMPI leaves the flags of its comparison (`exec_cmpi`), and those order the operands (`cond_compare`). -/
theorem conditionsOrderTheOperands : Obligations.ConditionsOrderTheOperands := by
  unfold Obligations.ConditionsOrderTheOperands
  intro s z a imm h y w
  refine ⟨_, exec_cmpi h a imm, ?_⟩
  rw [← toInt_sx18, State.stepCtx, ctxOf_putCtx]
  exact cond_compare (s.cx z) y w
end

section
/-! SUPPORT. Logic, products, limits, immediates and shifts as exact functions of the operands (R52, R53), and the condition codes (R51). -/
namespace Sys2Proof.Machine

section
variable {s : State} {z : Zx}

/-- A function whose flags are Z and N of its result. -/
theorem aluZN_of_mayExecute (h : s.mayExecute z) (f : Bool) (d a b : Reg) (r : W → W → W → W) : s.aluZN z f d a b r =
    .next (s.stepCtx z fun c => c.setZN f d (r ((s.cx z).get d) ((s.cx z).get a) ((s.cx z).get b))) :=
  (alu_of_mayExecute h f d a b r _).trans (congrArg _ (stepCtx_congr s z (put_flagsZN ..)))

theorem aluShift_of_mayExecute (h : s.mayExecute z) (k : Shift) (f : Bool) (d a b : Reg) : s.aluShift k z f d a b =
    .next (s.stepCtx z fun c =>
      let y := (s.cx z).get a
      let n := ((s.cx z).get b).toNat % 64
      c.setFlags f d (shiftBy k y n) (if n = 0 then c.c else shiftOut k y n) c.v) := by
  refine (alu_of_mayExecute h f d a b _ _).trans (congrArg _ (stepCtx_congr s z ?_))
  have hn : fld ((s.cx z).get b) 5 0 = ((s.cx z).get b).toNat % 64 := by simp [fld]
  rw [hn]
  exact put_flags ..

/-- SEL chooses by its condition (R52); code 15 is an illegal operand (R51). -/
theorem exec_sel (h : s.mayExecute z) (cond : BitVec 4) (d a b : Reg) : exec (.sel z cond d a b) s = .next (
    if cond = 15 then (s.fetched z).raise z.agent 2 0
    else s.stepCtx z fun c => c.put d (if (s.cx z).cond cond then (s.cx z).get a else (s.cx z).get b)) := by
  simp only [exec, execSel, zx_of_mayExecute _ h]
  rfl

end

/-! ### Results -/

theorem mulHigh_eq (a b : W) : mulHigh a b = wi (a.toInt * b.toInt / 2 ^ 32) := by
  rw [mulHigh, Int.fdiv_eq_ediv_of_nonneg _ (by decide)]

theorem sMin_eq (a b : W) : sMin a b = wi (min a.toInt b.toInt) := by
  rw [sMin, Int.min_def, apply_ite wi, wi_toInt, wi_toInt]

theorem sMax_eq (a b : W) : sMax a b = wi (max a.toInt b.toInt) := by
  rw [sMax, Int.max_def, apply_ite wi, wi_toInt, wi_toInt]

theorem toInt_wi_max (a b : W) : (wi (max a.toInt b.toInt)).toInt = max a.toInt b.toInt := by
  rw [← sMax_eq, sMax, Int.max_def, apply_ite BitVec.toInt]

theorem lui_eq (imm : BitVec 18) : wn (imm.toNat * 2 ^ 14) = imm.zeroExtend 32 <<< 14 := by
  apply BitVec.eq_of_toNat_eq
  simp [wn, Nat.shiftLeft_eq]

theorem shl_eq (y : W) (n : Nat) : shiftBy .shl y n = wn (y.toNat * 2 ^ n) := by
  apply BitVec.eq_of_toNat_eq
  simp [shiftBy, wn, Nat.shiftLeft_eq]

theorem shr_eq (y : W) (n : Nat) : shiftBy .shr y n = wn (y.toNat / 2 ^ n) := by
  rw [← Nat.shiftRight_eq_div_pow, wn, ← BitVec.toNat_ushiftRight, ← wn, wn_toNat]
  rfl

theorem sra_eq (y : W) (n : Nat) : shiftBy .sra y n = wi (y.toInt / 2 ^ n) := by
  rw [shiftBy, BitVec.sshiftRight, Int.shiftRight_eq_div_pow]
  simp [wi]

theorem sraOut_eq (y : W) (n : Nat) : shiftOut .sra y n = bitOf y (min (n - 1) 31) := by
  unfold shiftOut bitOf
  dsimp only
  split
  · rw [Nat.min_eq_left (by omega)]
  · rw [Nat.min_eq_right (by omega)]

end Sys2Proof.Machine
open Sys2Proof Sys2Proof.Machine

/-- Settles O8. -/
theorem registerZeroIsHardWired : Obligations.RegisterZeroIsHardWired := by
  unfold Obligations.RegisterZeroIsHardWired
  exact fun c r q w => ⟨get_zero c, put_zero c w, get_put c r w, get_put_ne c r q w⟩

/-- Settles O11: each function is `State.aluZN` or `State.aluImm` of its result, which is the exact one. -/
theorem logicProductsLimitsAndImmediates : Obligations.LogicProductsLimitsAndImmediates := by
  unfold Obligations.LogicProductsLimitsAndImmediates
  refine ⟨fun s z f d a b h => ?registers, fun s z d a b imm cond h => ?immediates⟩
  case registers =>
    intro x y w
    have zn (r : W → W → W → W) {v : W} (hv : r x y w = v) : s.aluZN z f d a b r = .next (s.stepCtx z fun c => c.setZN f d v) :=
      hv ▸ aluZN_of_mayExecute h f d a b r
    simp only [exec, execAnd, execOr, execXor, execMul, execMulh, execMin, execMax, execClamp]
    refine ⟨zn _ rfl, zn _ rfl, zn _ rfl, zn _ (mul_eq_wn y w), zn _ (mulHigh_eq y w), zn _ (sMin_eq y w), zn _ (sMax_eq y w), zn _ ?_⟩
    rw [sMin_eq, sMax_eq, toInt_wi_max]
  case immediates =>
    intro y
    have imms (r : W → W) {v : W} (hv : r y = v) : s.aluImm z d a r = .next (s.stepCtx z fun c => c.put d v) :=
      (aluImm_of_mayExecute h d a r).trans (congrArg _ (stepCtx_congr s z (by rw [← hv])))
    simp only [exec_sel h]
    simp only [exec, execAddi, execAndi, execOri, execXori, execLui]
    refine ⟨imms _ ?_, imms _ rfl, imms _ rfl, imms _ rfl, ?_, fun hc => ?_, fun hc => ?_⟩
    · rw [add_eq_wi, sx18, toInt_sx18]
    · exact (aluImm_of_mayExecute h d 0 _).trans (by rw [lui_eq])
    · rw [if_neg hc]
    · rw [if_pos hc]

/-- Settles O12: a shift is a product or a quotient by a power of two (`shl_eq`, `shr_eq`, `sra_eq`). -/
theorem shiftsAndTheirCarry : Obligations.ShiftsAndTheirCarry := by
  unfold Obligations.ShiftsAndTheirCarry
  intro s z f d a b sh h y n k
  have shift (q : Shift) := aluShift_of_mayExecute h q f d a b
  have imm (q : Shift) {v : W} (hv : shiftBy q y k = v) :
      s.aluImm z d a (fun x => shiftBy q x k) = .next (s.stepCtx z fun c => c.put d v) :=
    (aluImm_of_mayExecute h d a _).trans (congrArg _ (stepCtx_congr s z (by rw [← hv])))
  simp only [exec, execShl, execShr, execSra, execShli, execShri, execSrai]
  refine ⟨(shift .shl).trans ?_, (shift .shr).trans ?_, (shift .sra).trans ?_, imm .shl (shl_eq y k), imm .shr (shr_eq y k),
    imm .sra (sra_eq y k)⟩
  · rw [← shl_eq]; rfl
  · rw [← shr_eq]; rfl
  · rw [← sra_eq, ← sraOut_eq]

/-- Settles O57: the table of R51, code by code, and code 15 in BCC, CALL and SEL. -/
theorem conditionCodes : Obligations.ConditionCodes := by
  unfold Obligations.ConditionCodes
  refine ⟨fun c => ?_, fun s z off d a b h => ?_⟩
  · simp [Ctx.cond]
  · refine ⟨?_, ?_, exec_sel h 15 d a b⟩ <;> simp only [exec, execBcc, execCall, zx_of_mayExecute _ h, if_true]
end

section
/-! SUPPORT. Branches, calls, returns and hardware loops (R59–R61), and what an exception captures of its engine (R78, R84). -/
namespace Sys2Proof.Machine

/-! ### Targets and loop levels -/

theorem branchTo_eq (pc : W) (off : BitVec 22) : branchTo pc off = pc + wi (4 * off.toInt) := by
  have hs : (off.signExtend 32).toInt = off.toInt := BitVec.toInt_signExtend_of_le (by decide)
  rw [branchTo, ← hs, BitVec.shiftLeft_eq_mul_twoPow, wi, BitVec.ofInt_mul, BitVec.ofInt_toInt, BitVec.mul_comm]
  rfl

theorem keepLoops_eq (ls : List LoopLv) (t : W) : keepLoops ls t =
    ls.dropWhile fun l => !(decide (l.first.toNat ≤ t.toNat) && decide (t.toNat ≤ l.last.toNat)) := by
  induction ls with
  | nil => rfl
  | cons l r ih =>
    rw [keepLoops, List.dropWhile_cons, ih]
    by_cases h : l.first.toNat ≤ t.toNat ∧ t.toNat ≤ l.last.toNat
    · simp [h.1, h.2]
    · rw [if_neg h, if_pos (by rw [← Bool.decide_and, decide_eq_false h]; rfl)]

/-! ### The end of a loop body (R60) -/

section
variable {c : Ctx} {l : LoopLv} {r : List LoopLv}

theorem advance_inside (hl : c.loops = l :: r) (hpc : c.pc ≠ l.last) : c.advance = { c with pc := c.pc + 4 } := by
  rw [Ctx.advance, hl, loopEnd, if_neg hpc, ← hl]

theorem advance_again (hl : c.loops = l :: r) (hpc : c.pc = l.last) (hn : l.count.toNat ≠ 1) :
    c.advance = { c with pc := l.first, loops := ⟨l.first, l.last, l.count - 1⟩ :: r } := by
  have h1 : ¬ l.count - 1 = 0 := fun h => hn (by rw [sub_eq_zero.mp h]; rfl)
  rw [Ctx.advance, hl, loopEnd, if_pos hpc, if_neg h1]

theorem advance_closes (hl : c.loops = l :: r) (hpc : c.pc = l.last) (hn : l.count.toNat = 1) :
    c.advance = { c with loops := r }.advance := by
  have h1 : l.count - 1 = 0 := by rw [BitVec.eq_of_toNat_eq (y := 1) hn]; rfl
  rw [Ctx.advance, hl, loopEnd, if_pos hpc, if_pos h1]
  rfl

end

/-! ### The instructions -/

section
variable {s : State} {z : Zx}

theorem exec_bcc (h : s.mayExecute z) (cond : BitVec 4) (off : BitVec 22) (hc : cond ≠ 15) :
    let t := (s.cx z).pc + wi (4 * off.toInt)
    exec (.bcc z cond off) s = .next (if (s.cx z).cond cond then
      (s.jumpCtx z fun c => { c with pc := t, loops := c.loops.dropWhile fun l =>
        !(decide (l.first.toNat ≤ t.toNat) && decide (t.toNat ≤ l.last.toNat)) }).flow z.agent 0 t
      else s.stepCtx z id) := by
  simp only [exec, execBcc, zx_of_mayExecute _ h, if_neg hc, branchTo_eq, keepLoops_eq]
  rfl

theorem exec_call (h : s.mayExecute z) (cond : BitVec 4) (off : BitVec 22) (hc : cond ≠ 15) :
    let t := (s.cx z).pc + wi (4 * off.toInt)
    exec (.call z cond off) s = .next (if (s.cx z).cond cond then
      (s.jumpCtx z fun c => { (c.put 15 (c.pc + 4)) with pc := t }).flow z.agent 1 t else s.stepCtx z id) := by
  simp only [exec, execCall, zx_of_mayExecute _ h, if_neg hc, branchTo_eq]
  rfl

theorem exec_ret (h : s.mayExecute z) (a : Reg) : exec (.ret z a) s = .next (
    if ((s.cx z).get a).toNat % 4 ≠ 0 then (s.fetched z).raise z.agent 3 ((s.cx z).get a)
    else (s.jumpCtx z fun c => { c with pc := (s.cx z).get a }).flow z.agent 2 ((s.cx z).get a)) := by
  simp only [exec, execRet, zx_of_mayExecute _ h]
  rfl

theorem exec_loop (h : s.mayExecute z) (a : Reg) (imm : BitVec 18) : exec (.loop z a imm) s = .next (
    if imm = 0 ∨ 2 ≤ (s.cx z).loops.length then (s.fetched z).raise z.agent 2 0
    else if (s.cx z).get a = 0 then s.stepCtx z fun c => { c with pc := c.pc + wn (4 * imm.toNat) }
    else s.jumpCtx z fun c =>
      { c with pc := c.pc + 4, loops := ⟨c.pc + 4, c.pc + wn (4 * imm.toNat), c.get a⟩ :: c.loops }) := by
  simp only [exec, execLoop, zx_of_mayExecute _ h]
  rfl

end

end Sys2Proof.Machine
open Sys2Proof Sys2Proof.Machine

/-- Settles O13: each clause is a branch of its instruction above, or of the end of a loop body. -/
theorem controlTransfersAndLoops : Obligations.ControlTransfersAndLoops := by
  unfold Obligations.ControlTransfersAndLoops
  refine ⟨fun s z cond off a imm h => ?transfers, fun c l r hl => ⟨advance_inside hl, advance_again hl, advance_closes hl⟩⟩
  case transfers =>
    intro c t inside
    refine ⟨fun hc ht => ⟨?_, ?_⟩, fun hc ht => ⟨?_, ?_⟩, fun ha => ?_, fun hi hl ha => ?_, fun hi hl ha => ?_, fun hi => ?_⟩
    · exact (exec_bcc h cond off hc).trans (congrArg _ (if_pos ht))
    · exact (exec_call h cond off hc).trans (congrArg _ (if_pos ht))
    · exact (exec_bcc h cond off hc).trans (congrArg _ (if_neg (ne_true_of_eq_false ht)))
    · exact (exec_call h cond off hc).trans (congrArg _ (if_neg (ne_true_of_eq_false ht)))
    · exact (exec_ret h a).trans (congrArg _ (if_neg (not_not_intro ha)))
    · rw [exec_loop h, if_neg (not_or.mpr ⟨hi, Nat.not_le.mpr hl⟩), if_neg ha]
    · rw [exec_loop h, if_neg (not_or.mpr ⟨hi, Nat.not_le.mpr hl⟩), if_pos ha]
    · rw [exec_loop h, if_pos hi]
end

section
/-! SUPPORT. What an exception captures of its engine stays (R78): the reports that follow it, and the restart of the ME (R84), change
neither the engine's state nor its capture registers. -/
namespace Sys2Proof.Machine

/-- An engine's state and its capture registers (R78, R81). -/
def State.trapped (s : State) (e : Eng) : BitVec 4 × ExcCap := ((s.eng e).st, (s.eng e).exc)

section
variable (s : State) (e : Eng)

theorem trapped_of_engines {s t : State} (h : t.engines = s.engines) (e : Eng) : t.trapped e = s.trapped e := by
  unfold State.trapped State.eng
  rw [h]

@[simp] theorem modTwin_trapped (f : Twin → Twin) : (s.modTwin f).trapped e = s.trapped e := rfl
@[simp] theorem modFm_trapped (f : Fm → Fm) : (s.modFm f).trapped e = s.trapped e := rfl
@[simp] theorem modNv_trapped (f : Nv → Nv) : (s.modNv f).trapped e = s.trapped e := rfl
@[simp] theorem modSerial_trapped (f : Serial → Serial) : (s.modSerial f).trapped e = s.trapped e := rfl
@[simp] theorem modBoot_trapped (f : Boot → Boot) : (s.modBoot f).trapped e = s.trapped e := rfl

@[simp] theorem occur_trapped (n : Nat) : (s.occur n).trapped e = s.trapped e := by
  unfold State.trapped
  rw [occur_eng]

@[simp] theorem traceFlow_trapped (d : Eng) (c : Fin 4) (r : Nat) (t : W) (k : List Byte) :
    (s.traceFlow d c r t k).trapped e = s.trapped e := trapped_of_engines (traceFlow_engines ..) e

theorem modEng_trapped (d : Eng) (f : Engine → Engine) (h : ∀ en, (f en).st = en.st ∧ (f en).exc = en.exc) :
    (s.modEng d f).trapped e = s.trapped e := by
  by_cases hd : e = d
  · subst hd
    simp [State.trapped, h]
  · simp [State.trapped, modEng_eng_ne _ _ _ _ hd]

/-! ### Records -/

@[simp] theorem linkPut_trapped (f : LinkFrame) : (s.linkPut f).trapped e = s.trapped e := by
  unfold State.linkPut
  dsimp only
  split <;> simp

@[simp] theorem linkPump_trapped (n : Nat) : (State.linkPump n s).trapped e = s.trapped e := by
  induction n generalizing s with
  | zero => rfl
  | succ n ih =>
    unfold State.linkPump
    split
    · split
      · rw [ih]; simp
      · rfl
    · rfl

@[simp] theorem linkSend_trapped (ty : Byte) (cls : Nat) (p : Port) (ws : List W) : (s.linkSend ty cls p ws).trapped e = s.trapped e := by
  unfold State.linkSend State.linkSendAll
  dsimp only
  split <;> simp

@[simp] theorem note_trapped (code sev src : Nat) (ws : List W) : (s.note code sev src ws).trapped e = s.trapped e := by
  unfold State.note State.queueRec State.sendRecord
  dsimp only
  repeat' split
  all_goals simp

@[simp] theorem programError_trapped (u : Fin 182) (cause : Byte) (addr word : W) :
    (s.programError u cause addr word).trapped e = s.trapped e := by
  simp [State.programError, State.life]

/-! ### The restart of the ME (R84) -/

@[simp] theorem swTake_trapped : s.swTake.trapped e = s.trapped e := by
  unfold State.swTake
  split
  · rfl
  · extract_lets x m0 m1 m new ctl t
    split
    · exact occur_trapped t e _
    · rfl

@[simp] theorem mp0Discard_trapped : s.mp0Discard.trapped e = s.trapped e := by
  unfold State.mp0Discard
  dsimp only
  rw [swTake_trapped, modSerial_trapped]
  exact modEng_trapped s e engME _ fun _ => ⟨rfl, rfl⟩

@[simp] theorem meRestart_trapped : s.meRestart.trapped e = s.trapped e := by
  unfold State.meRestart
  split <;> simp

/-! ### An exception -/

/-- A program error stops its engine and captures cause, address, word and data address (R78). -/
theorem engException_trapped (cause : Byte) (data : W) (h5 : cause ≠ 5) (h6 : cause ≠ 6) :
    (s.engException e cause data).trapped e =
      (4, ⟨cause, (s.ctxOf (.eng e)).pc, s.insnWord (.eng e) (s.ctxOf (.eng e)).pc, data⟩) := by
  unfold State.engException
  rw [if_neg h5, if_neg h6]
  extract_lets reported
  have hr : reported.trapped e = (4, ⟨cause, (s.ctxOf (.eng e)).pc, s.insnWord (.eng e) (s.ctxOf (.eng e)).pc, data⟩) := by
    simp only [reported, programError_trapped, occur_trapped, traceFlow_trapped]
    simp [State.trapped, State.ctxOf]
  refine Eq.trans ?_ hr
  split
  · exact meRestart_trapped reported e
  · rfl

end

/-- The fetch corrects a word in place: the agent's program memory stays (R43). -/
theorem fetched_prog (s : State) (z : Zx) (e : Eng) : ((s.fetched z).eng e).prog = (s.eng e).prog := by
  unfold State.fetched
  split
  · unfold State.fetchFix
    split
    next d _ =>
      rw [occur_eng]
      by_cases h : e = d
      · subst h; simp
      · simp [modEng_eng_ne _ _ _ _ h]
    · rw [occur_eng]
      rfl
  · rfl

end Sys2Proof.Machine
open Sys2Proof Sys2Proof.Machine

/-- Settles O7: RET raises the exception (`exec_ret`), and what it captures stays (`State.trapped`). -/
theorem engineExceptionCaptures : Obligations.EngineExceptionCaptures := by
  unfold Obligations.EngineExceptionCaptures
  intro s e a h z target ht
  have hc := engException_trapped (s.fetched z) e 3 target (by decide) (by decide)
  refine ⟨_, (exec_ret h a).trans (congrArg _ (if_pos ht)), rfl, congrArg Prod.fst hc, (congrArg Prod.snd hc).trans ?_⟩
  rw [State.insnWord, fetched_prog]
  rfl
end

section
/-! SUPPORT. Loads and stores (R43, R54, R69): what an access comes to, and what the memory of a place reads and keeps. -/
namespace Sys2Proof.Machine

/-! ### The four ends of an access -/

section
variable (s : State) (ag : Agent) (c : Ctx) {ea : W} {n : Nat} (whole : Bool) (k : Place → State → State) {pl : Place}

theorem access_misaligned (h : ea.toNat % n ≠ 0) : s.access ag c ea n whole k = s.raise ag 3 ea := if_pos h

theorem access_outside (h : ea.toNat % n = 0) (hp : placeAt ag ea.toNat n = none) :
    s.access ag c ea n whole k = s.raise ag 4 ea := by
  rw [State.access, if_neg (not_not_intro h), hp]

theorem access_stalls (h : ea.toNat % n = 0) (hp : placeAt ag ea.toNat n = some pl) (hs : s.stalls ag pl n = true) :
    s.access ag c ea n whole k = s.blockOn ag c (.interlock pl.off n) := by
  rw [State.access, if_neg (not_not_intro h), hp]
  exact if_pos hs

theorem access_whole (h : ea.toNat % n = 0) (hp : placeAt ag ea.toNat n = some pl) (hs : s.stalls ag pl n = false) :
    s.access ag c ea n true k = k pl s := by
  rw [State.access, if_neg (not_not_intro h), hp]
  exact if_neg (ne_true_of_eq_false hs)

theorem access_fixed (h : ea.toNat % n = 0) (hp : placeAt ag ea.toNat n = some pl) (hs : s.stalls ag pl n = false)
    (hb : s.wordBad ag pl = false) : s.access ag c ea n false k = k pl (s.softFix ag pl) := by
  rw [State.access, if_neg (not_not_intro h), hp]
  exact (if_neg (ne_true_of_eq_false hs)).trans (if_neg (ne_true_of_eq_false hb))

end

/-! ### Loads and stores as accesses -/

section
variable {s : State} {z : Zx} (h : s.mayExecute z) (d a : Reg) (imm : BitVec 18) (n : Nat)
include h

theorem load_of_mayExecute (r : Nat → W) : s.load z d a imm n r = .next ((s.fetched z).access z.agent (s.cx z)
    ((s.cx z).get a + imm.signExtend 32) n false fun pl t => t.done z.agent ((t.ctxOf z.agent).put d (r (t.loadAt z.agent pl n)))) :=
  zx_of_mayExecute _ h

theorem storeReg_of_mayExecute : s.storeReg z d a imm n = .next ((s.fetched z).access z.agent (s.cx z)
    ((s.cx z).get a + imm.signExtend 32) n (n == 4) fun pl t =>
      let u := (t.storeAt z.agent pl ((wordBytes ((s.cx z).get d)).take n)).putCtx z.agent (t.ctxOf z.agent).advance
      if z.agent = .eng engME ∧ pl.off / 4 = 0x7F00 / 4 then u.thermalTake else u) :=
  zx_of_mayExecute _ h

/-- An access that ends before it reads or writes ends a load and a store alike. -/
theorem load_storeReg_of_access {t : State} (hacc : ∀ whole k,
    (s.fetched z).access z.agent (s.cx z) ((s.cx z).get a + imm.signExtend 32) n whole k = t) :
    (∀ r, s.load z d a imm n r = .next t) ∧ s.storeReg z d a imm n = .next t :=
  ⟨fun r => by rw [load_of_mayExecute h, hacc], by rw [storeReg_of_mayExecute h, hacc]⟩

/-- A load whose access goes through (R54). -/
theorem load_of_accessOk (r : Nat → W) (pl : Place) (hok : s.accessOk z ((s.cx z).get a + imm.signExtend 32) n false pl) :
    let u := (s.fetched z).softFix z.agent pl
    s.load z d a imm n r = .next (u.putCtx z.agent ((u.ctxOf z.agent).put d (r (u.loadAt z.agent pl n))).advance) := by
  obtain ⟨hal, hp, hs, hb⟩ := hok
  exact (load_of_mayExecute h d a imm n r).trans (congrArg _ (access_fixed _ _ _ _ hal hp hs (hb rfl)))

end

/-! ### Little-endian values (R7) -/

theorem toNat_append_eq {m n : Nat} (x : BitVec m) (y : BitVec n) : (x ++ y).toNat = y.toNat + 2 ^ n * x.toNat := by
  rw [BitVec.toNat_append, Nat.shiftLeft_eq, Nat.mul_comm, ← Nat.two_pow_add_eq_or_of_lt y.isLt, Nat.add_comm]

theorem wn_toNat_zeroExtend {m : Nat} (x : BitVec m) : wn x.toNat = x.zeroExtend 32 := BitVec.ofNat_toNat ..

theorem sxN_toNat {m : Nat} (x : BitVec m) (hm : 0 < m) : sxN m x.toNat = x.signExtend 32 := by
  rw [BitVec.signExtend, BitVec.toInt_eq_toNat_cond, sxN]
  have h2 : 2 ^ m = 2 * 2 ^ (m - 1) := by rw [← Nat.pow_succ', Nat.succ_eq_add_one, Nat.sub_add_cancel hm]
  by_cases h : x.toNat < 2 ^ (m - 1)
  · rw [if_pos h, if_pos (by omega), BitVec.ofInt_natCast]
    rfl
  · rw [if_neg h, if_neg (by omega)]
    simp [wi]

section
variable (s : State) (ag : Agent) (pl : Place)

/-- The byte `k` of a place. -/
def State.byteAt (s : State) (ag : Agent) (pl : Place) (k : Nat) : Byte := Mem.get (s.memOf ag pl).1 (pl.off + k)

theorem loadAt_word : s.loadAt ag pl 4 = (s.byteAt ag pl 3 ++ s.byteAt ag pl 2 ++ s.byteAt ag pl 1 ++ s.byteAt ag pl 0).toNat := by
  simp only [toNat_append_eq]
  rfl

theorem loadAt_half : s.loadAt ag pl 2 = (s.byteAt ag pl 1 ++ s.byteAt ag pl 0).toNat := by
  rw [toNat_append_eq]
  rfl

theorem loadAt_byte : s.loadAt ag pl 1 = (s.byteAt ag pl 0).toNat := by
  rfl

/-! ### The memory of a place -/

@[simp] theorem memOf_modMemOf (f : Mem × List Nat × List Nat → Mem × List Nat × List Nat) :
    (s.modMemOf ag pl f).memOf ag pl = f (s.memOf ag pl) := by
  cases ag <;> cases pl <;> simp [State.memOf, State.modMemOf]

theorem modMemOf_eq_const (f : Mem × List Nat × List Nat → Mem × List Nat × List Nat) :
    s.modMemOf ag pl f = s.modMemOf ag pl fun _ => f (s.memOf ag pl) := by
  cases ag <;> cases pl <;> rfl

theorem memOf_wf (h : s.memsOk) : (s.memOf ag pl).1.wf = true := by
  obtain ⟨-, -, -, heng, hlane, hcluster⟩ := h
  cases ag with
  | eng e => exact (Bool.and_eq_true _ _ ▸ heng e).2
  | lane l =>
    cases pl with
    | data _ => exact hlane l
    | tile _ => exact (Bool.and_eq_true _ _ ▸ hcluster (clusterOf l)).2

theorem storeAt_mem (bs : List Byte) : ((s.storeAt ag pl bs).memOf ag pl).1 = Mem.write (s.memOf ag pl).1 pl.off bs := by
  rw [State.storeAt, memOf_modMemOf]
  split <;> rfl

theorem storeAt_eq_const (bs : List Byte) : ∃ m, s.storeAt ag pl bs = s.modMemOf ag pl fun _ => m := by
  rw [State.storeAt, modMemOf_eq_const]
  exact ⟨_, rfl⟩

end

theorem wordBytes_getElem (w : W) (k : Nat) (hk : k < 4) : (wordBytes w)[k] = w.extractLsb' (8 * k) 8 := by
  match k, hk with
  | 0, _ | 1, _ | 2, _ | 3, _ => rfl

end Sys2Proof.Machine
open Sys2Proof Sys2Proof.Machine

/-- Settles O14: each load reads the bytes of its place (`loadAt_word`, `loadAt_half`, `loadAt_byte`). -/
theorem loadsReadLittleEndian : Obligations.LoadsReadLittleEndian := by
  unfold Obligations.LoadsReadLittleEndian
  intro s z d a imm n pl h hn hok u b after
  have load (r : Nat → W) {v : W} (hv : r (u.loadAt z.agent pl n) = v) : s.load z d a imm n r = after v :=
    hv ▸ load_of_accessOk h d a imm n r pl hok
  simp only [exec, execLdW, execLdH, execLdHs, execLdB, execLdBs]
  refine ⟨?word, ?half, ?byte⟩
  case word =>
    rintro rfl
    exact load _ (by rw [loadAt_word, wn_toNat_zeroExtend]; rfl)
  case half =>
    rintro rfl
    exact ⟨load _ (by rw [loadAt_half, wn_toNat_zeroExtend]; rfl), load _ (by rw [loadAt_half]; exact sxN_toNat _ (by decide))⟩
  case byte =>
    rintro rfl
    exact ⟨load _ (by rw [loadAt_byte, wn_toNat_zeroExtend]; rfl), load _ (by rw [loadAt_byte]; exact sxN_toNat _ (by decide))⟩

/-- Settles O15: a store is `State.storeAt` of the low bytes, which writes its range of one memory. -/
theorem storesWriteTheirBytesOnly : Obligations.StoresWriteTheirBytesOnly := by
  unfold Obligations.StoresWriteTheirBytesOnly
  intro s z d a imm pl hm h ea low after fixed
  simp only [exec, execStW, execStH, execStB, storeReg_of_mayExecute h]
  refine ⟨fun hok => ?word, fun hok => ?half, fun hok => ?byte, fun n hn => ?stored⟩
  case word =>
    obtain ⟨hal, hp, hs, -⟩ := hok
    exact congrArg _ (access_whole _ _ _ _ hal hp hs)
  case half | byte =>
    obtain ⟨hal, hp, hs, hb⟩ := hok
    exact congrArg _ (access_fixed _ _ _ _ hal hp hs (hb rfl))
  case stored =>
    have hlen : (low n).length = n := by rcases hn with rfl | rfl | rfl <;> rfl
    have hwf := memOf_wf s z.agent pl hm
    refine ⟨fun k hk => ?_, fun x hx => ?_, storeAt_eq_const ..⟩
    · rw [storeAt_mem, Mem.get_write_in (low n) hwf (by omega), List.getElem_take]
      exact wordBytes_getElem _ k (by omega)
    · rw [storeAt_mem, Mem.get_write_out (low n) hwf (by omega)]

/-- Settles O16: an access that does not go through ends a load and a store alike (`load_storeReg_of_access`). -/
theorem accessesTrapOrWait : Obligations.AccessesTrapOrWait := by
  unfold Obligations.AccessesTrapOrWait
  intro s z d a imm h u ea word half byte waits
  have ends (n : Nat) {t : State} := load_storeReg_of_access (t := t) h d a imm n
  have word_of {t : State} (hacc : ∀ whole k, u.access z.agent (s.cx z) ea 4 whole k = t) : word t :=
    ⟨(ends 4 hacc).1 wn, (ends 4 hacc).2⟩
  have half_of {t : State} (hacc : ∀ whole k, u.access z.agent (s.cx z) ea 2 whole k = t) : half t :=
    ⟨(ends 2 hacc).1 wn, (ends 2 hacc).1 (sxN 16), (ends 2 hacc).2⟩
  have byte_of {t : State} (hacc : ∀ whole k, u.access z.agent (s.cx z) ea 1 whole k = t) : byte t :=
    ⟨(ends 1 hacc).1 wn, (ends 1 hacc).1 (sxN 8), (ends 1 hacc).2⟩
  exact ⟨fun ha => word_of fun _ _ => access_misaligned _ _ _ _ _ ha, fun ha => half_of fun _ _ => access_misaligned _ _ _ _ _ ha,
    fun ha hp => word_of fun _ _ => access_outside _ _ _ _ _ ha hp, fun ha hp => half_of fun _ _ => access_outside _ _ _ _ _ ha hp,
    fun hp => byte_of fun _ _ => access_outside _ _ _ _ _ (Nat.mod_one _) hp,
    fun pl ha hp hs => word_of fun _ _ => access_stalls _ _ _ _ _ ha hp hs,
    fun pl ha hp hs => half_of fun _ _ => access_stalls _ _ _ _ _ ha hp hs,
    fun pl hp hs => byte_of fun _ _ => access_stalls _ _ _ _ _ (Nat.mod_one _) hp hs⟩
end

section
/-! SUPPORT. The vector instructions of a lane (R72–R74): an element-by-element operation is `State.vecStep`, and the element functions are
the exact results. -/
namespace Sys2Proof.Machine

/-! ### Updates of one lane -/

theorem modLane_congr (s : State) (l : LaneNo) {f g : Lane → Lane} (h : f (s.lane l) = g (s.lane l)) : s.modLane l f = s.modLane l g := by
  unfold State.modLane
  rw [upd_congr _ _ _ _ h]

theorem modLane_modLane (s : State) (l : LaneNo) (f g : Lane → Lane) :
    (s.modLane l f).modLane l g = s.modLane l fun x => g (f x) := by
  unfold State.modLane
  dsimp only
  rw [upd_upd]

@[simp] theorem vecOf_get (f : Fin 8 → W) (i : Fin 8) : (vecOf f).get i = f i := by
  show (Vector.ofFn f)[i.val] = f i
  rw [Vector.getElem_ofFn]

/-! ### Element-by-element operations (R72) -/

section
variable {s : State} {l : LaneNo}

theorem vdone_eq (s : State) (l : LaneNo) (c : Ctx) (p : Fin 4) (vd : Fin 8) (r : Vec) : s.vdone l c p vd r = s.modLane l fun x =>
    { x with v := x.v.set vd (vecMask (x.pget p) (x.vget vd) r), ctx := c.advance } :=
  modLane_modLane ..

theorem vec_of_mayExecute (h : s.mayExecute ⟨.lane l, .none⟩) (body : LaneNo → Lane → Ctx → State → State) :
    s.vec ⟨.lane l, .none⟩ body =
      .next (body l ((s.fetched ⟨.lane l, .none⟩).lane l) (s.cx ⟨.lane l, .none⟩) (s.fetched ⟨.lane l, .none⟩)) := by
  unfold State.vec
  exact zx_of_mayExecute _ h

theorem vop_of_mayExecute (h : s.mayExecute ⟨.lane l, .none⟩) (p : Fin 4) (vd va vb : Fin 8) (f : W → W → W → W) :
    s.vop ⟨.lane l, .none⟩ p vd va vb none f = .next (s.vecStep l p vd va vb f) := by
  rw [State.vop, vec_of_mayExecute h]
  refine congrArg _ ((vdone_eq ..).trans (modLane_congr _ _ ?_))
  simp only [vecMask, vecOf_get]
  rfl

theorem vop_bad (h : s.mayExecute ⟨.lane l, .none⟩) (p : Fin 4) (vd va vb : Fin 8) (cause : Byte) (f : W → W → W → W) :
    s.vop ⟨.lane l, .none⟩ p vd va vb (some cause) f = .next ((s.fetched ⟨.lane l, .none⟩).raise (.lane l) cause 0) := by
  rw [State.vop, vec_of_mayExecute h]

/-- An operation whose element function is `g` on all words. -/
theorem vop_eq (h : s.mayExecute ⟨.lane l, .none⟩) (p : Fin 4) (vd va vb : Fin 8) {f g : W → W → W → W}
    (hf : ∀ d a b, f d a b = g d a b) :
    s.vop ⟨.lane l, .none⟩ p vd va vb none f = .next (s.vecStep l p vd va vb g) := by
  rw [show f = g from funext₃ hf]
  exact vop_of_mayExecute h p vd va vb g

end

/-! ### Elements (R74) -/

theorem vProd_eq (mode : Fin 4) (hm : mode ≠ 3) (a b : W) : vProd mode.val a b =
    (if mode = 1 then (a.toNat : Int) else a.toInt) * (if mode = 0 then b.toInt else b.toNat) := by
  match mode, hm with
  | 0, _ | 1, _ | 2, _ => rfl
  | 3, h3 => exact absurd rfl h3

theorem vSat_eq (u32 : Bool) (x : Int) : vSat u32 x = wi (if u32 then satU 32 x else satS 32 x) := by
  cases u32 <;> rfl

/-! ### Order of words -/

theorem toNat_vMin (a b : W) : (vMin true a b).toNat = min a.toNat b.toNat := by
  simp only [vMin, vLe, if_true, decide_eq_true_eq, Nat.min_def, apply_ite BitVec.toNat]

theorem toNat_vMax (a b : W) : (vMax true a b).toNat = max a.toNat b.toNat := by
  simp only [vMax, vLe, if_true, decide_eq_true_eq, Nat.max_def, apply_ite BitVec.toNat]

theorem toInt_vMin (a b : W) : (vMin false a b).toInt = min a.toInt b.toInt := by
  simp only [vMin, vLe, Bool.false_eq_true, if_false, decide_eq_true_eq, Int.min_def, apply_ite BitVec.toInt]

theorem toInt_vMax (a b : W) : (vMax false a b).toInt = max a.toInt b.toInt := by
  simp only [vMax, vLe, Bool.false_eq_true, if_false, decide_eq_true_eq, Int.max_def, apply_ite BitVec.toInt]

/-! ### Predicate bits -/

theorem bitsOf_succ (f : Nat → Bool) (n : Nat) : bitsOf f (n + 1) = if f n then bitsOf f n + 2 ^ n else bitsOf f n := by
  rw [bitsOf, List.range_succ, List.foldl_append]
  rfl

theorem bitsOf_lt (f : Nat → Bool) (n : Nat) : bitsOf f n < 2 ^ n := by
  induction n with
  | zero => exact Nat.one_pos
  | succ n ih =>
    rw [bitsOf_succ, Nat.pow_succ]
    split <;> omega

theorem testBit_bitsOf (f : Nat → Bool) (n i : Nat) (hi : i < n) : (bitsOf f n).testBit i = f i := by
  induction n with
  | zero => omega
  | succ n ih =>
    rw [bitsOf_succ, Nat.add_comm]
    rcases Nat.lt_succ_iff_lt_or_eq.mp hi with hlt | rfl
    · split
      · rw [Nat.testBit_two_pow_add_gt hlt, ih hlt]
      · exact ih hlt
    · have h0 : (bitsOf f i).testBit i = false := Nat.testBit_lt_two_pow (bitsOf_lt f i)
      split
      next hf => rw [Nat.testBit_two_pow_add_eq, h0, hf]; rfl
      next hf => rw [h0, eq_false_of_ne_true hf]

theorem getLsbD_bitsOf (f : Nat → Bool) (i : Fin 8) : (BitVec.ofNat 8 (bitsOf f 8)).getLsbD i.val = f i.val := by
  rw [BitVec.getLsbD_ofNat, testBit_bitsOf f 8 i.val i.isLt]
  simp

/-! ### Whole vectors (R72) -/

theorem modLane_eq_const (s : State) (l : LaneNo) (f : Lane → Lane) : s.modLane l f = s.modLane l fun _ => (s.modLane l f).lane l :=
  modLane_congr s l (modLane_lane s l f).symm

/-- All elements of p0 are active (R44). -/
theorem vecMask_p0 (x : Lane) (old new : Vec) : vecMask (x.pget 0) old new = new := by
  have all : ∀ i : Fin 8, (0xFF : Byte).getLsbD i.val = true := by decide
  refine vec_ext fun i => ?_
  rw [vecMask, vecOf_get]
  exact if_pos (all i)

section
variable {s : State} {l : LaneNo}

/-- VSEL writes every element of vd. -/
theorem exec_vsel (h : s.mayExecute ⟨.lane l, .none⟩) (p : Fin 4) (vd va vb : Fin 8) :
    exec (.vsel ⟨.lane l, .none⟩ p vd va vb) s = .next ((s.fetched ⟨.lane l, .none⟩).modLane l fun x =>
      { x with v := x.v.set vd (vecOf fun i => if (x.pget p).getLsbD i.val then (x.v.get va).get i else (x.v.get vb).get i)
               ctx := (s.cx ⟨.lane l, .none⟩).advance }) := by
  simp only [exec, execVsel, vec_of_mayExecute h, vdone_eq, vecMask_p0]
  exact congrArg _ (modLane_congr _ _ rfl)

/-- VCMP writes every bit of a predicate other than p0. -/
theorem exec_vcmp (h : s.mayExecute ⟨.lane l, .none⟩) (p : Fin 4) (va vb : Fin 8) (cond : Fin 8) (conj : Bool) :
    exec (.vcmp ⟨.lane l, .none⟩ p va vb cond conj) s = .next (
      if p = 0 then (s.fetched ⟨.lane l, .none⟩).raise (.lane l) 2 0
      else (s.fetched ⟨.lane l, .none⟩).modLane l fun x =>
        { x with p := x.p.set p (BitVec.ofNat 8 (bitsOf (fun i =>
                   (if h : i < 8 then vCond cond.val ((x.v.get va).get ⟨i, h⟩) ((x.v.get vb).get ⟨i, h⟩) else false) &&
                     (!conj || (x.pget p).getLsbD i)) 8))
                 ctx := (s.cx ⟨.lane l, .none⟩).advance }) := by
  simp only [exec, execVcmp, vec_of_mayExecute h]
  split
  · rfl
  next hp =>
    simp only [State.done, State.putCtx, modLane_modLane, Lane.pput, if_neg hp]
    exact congrArg _ (modLane_congr _ _ rfl)

theorem exec_vshr (h : s.mayExecute ⟨.lane l, .none⟩) (p : Fin 4) (vd va : Fin 8) (sh : BitVec 5) (mode : Fin 4) (width : BitVec 5)
    (sgn round : Bool) (hok : ¬ ((mode.val = 3 ∧ 32 < sh.toNat + (width.toNat + 1)) ∨ (round ∧ 2 ≤ mode.val))) {g : W → W}
    (hg : ∀ a, vShr mode.val sh.toNat (width.toNat + 1) sgn round a = g a) :
    exec (.vshr ⟨.lane l, .none⟩ p vd va sh mode width sgn round) s = .next (s.vecStep l p vd va va fun _ a _ => g a) := by
  simp only [exec, execVshr, if_neg hok]
  exact vop_eq h p vd va va fun _ a _ => hg a

end

theorem satU_eq (w n : Nat) : wi (satU w n) = wn (min n (2 ^ w - 1)) := by
  have h : satU w n = ((min n (2 ^ w - 1) : Nat) : Int) := by
    have h1 : 1 ≤ 2 ^ w := Nat.one_le_two_pow
    rw [satU, Nat.cast_min, Nat.cast_sub h1, Nat.cast_pow]
    exact max_eq_right (le_min (Int.natCast_nonneg n) (sub_nonneg.mpr (mod_cast h1)))
  rw [h, wi, BitVec.ofInt_natCast, wn]

end Sys2Proof.Machine
open Sys2Proof Sys2Proof.Machine

/-- Settles O22. -/
theorem vectorArithmetic : Obligations.VectorArithmetic := by
  unfold Obligations.VectorArithmetic
  intro s l p vd va vb sh s1 s2 mode u32 sub z h
  simp only [exec, execVadd, execVsub, execVmul, execVmac, execVpoly]
  have op {f g : W → W → W → W} := vop_eq (f := f) (g := g) h p vd va vb
  refine ⟨?wrap, ?satS, ?satU, ?products, ?poly, ?reserved⟩
  case wrap =>
    rintro rfl
    exact ⟨op fun _ a b => add_eq_wi a b, op fun _ a b => sub_eq_wi a b⟩
  case satS | satU =>
    rintro rfl
    exact ⟨op fun _ _ _ => rfl, op fun _ _ _ => rfl⟩
  case products =>
    intro hm
    have h3 : mode.val ≠ 3 := fun h => hm (Fin.ext h)
    rw [if_neg h3]
    exact ⟨op fun _ a b => by rw [vSat_eq, vProd_eq mode hm], op fun d a b => by rw [vSat_eq, vProd_eq mode hm]; rfl⟩
  case poly => exact op fun _ _ _ => rfl
  case reserved =>
    rintro rfl
    exact ⟨vop_bad h .., vop_bad h .., vop_bad h .., vop_bad h ..⟩

/-- Settles O23: the element functions are the orders and shifts of the operands' values; VSEL and VCMP write whole registers. -/
theorem vectorOrderAndShift : Obligations.VectorOrderAndShift := by
  unfold Obligations.VectorOrderAndShift
  intro s l p vd va vb sh width cond conj sgn z x w h
  have op {f g : W → W → W → W} := vop_eq (f := f) (g := g) h p vd va vb
  have signed (a : W) {v : Int} (hv : a.toInt = v) : a = wi v := by rw [← hv, wi_toInt]
  have unsigned (a : W) {v : Nat} (hv : a.toNat = v) : a = wn v := by rw [← hv, wn_toNat]
  have vsat (sgn : Bool) : exec (.vsat z p vd va width sgn) s = s.vop z p vd va va none
      fun _ a _ => if sgn then wi (satS w a.toInt) else wi (satU w a.toNat) := by simp only [exec, execVsat]; rfl
  have vmed (uns : Bool) : exec (.vmed3 z p vd va vb uns) s = s.vop z p vd va vb none (vMed3 uns) := by simp only [exec, execVmed3]
  have vclamp (uns : Bool) : exec (.vclamp z p vd va vb uns) s = s.vop z p vd va vb none fun d a b => vMin uns (vMax uns d a) b := by
    simp only [exec, execVclamp]
  rw [vmed, vmed, vclamp, vclamp, vsat, vsat]
  refine ⟨?med, ?medU, ?clamp, ?clampU, ?sel, fun hp => ?cmp, fun hp => ?cmp0, ?sra, ?srl, ?sll, fun hw => ?extract, fun hw => ?beyond,
    ?sat, ?satU⟩
  case med => exact op fun _ _ _ => signed _ (by rw [vMed3, toInt_vMax, toInt_vMin, toInt_vMin, toInt_vMax])
  case medU => exact op fun _ _ _ => unsigned _ (by rw [vMed3, toNat_vMax, toNat_vMin, toNat_vMin, toNat_vMax])
  case clamp => exact op fun _ _ _ => signed _ (by rw [toInt_vMin, toInt_vMax])
  case clampU => exact op fun _ _ _ => unsigned _ (by rw [toNat_vMin, toNat_vMax])
  case sel =>
    refine ⟨_, exec_vsel h p vd va vb, modLane_eq_const .., ?_, fun i => ?_, fun r hr => ?_⟩
    · rw [modLane_lane]
    · rw [modLane_lane, get_set, vecOf_get]
    · rw [modLane_lane, get_set_ne _ _ _ _ hr]
  case cmp =>
    refine ⟨_, (exec_vcmp h p va vb cond conj).trans (congrArg _ (if_neg hp)), modLane_eq_const .., ?_, fun i => ?_, fun q hq => ?_⟩
    · rw [modLane_lane]
    · rw [modLane_lane, get_set, getLsbD_bitsOf, dif_pos i.isLt]
    · rw [modLane_lane, get_set_ne _ _ _ _ hq]
  case cmp0 => exact (exec_vcmp h p va vb cond conj).trans (congrArg _ (if_pos hp))
  case sra => exact exec_vshr h p vd va sh 0 width sgn true (by simp) fun a => rfl
  case srl => exact exec_vshr h p vd va sh 1 width sgn false (by simp) fun a => shr_eq a sh.toNat
  case sll => exact exec_vshr h p vd va sh 2 width sgn false (by simp) fun a => shl_eq a sh.toNat
  case extract => exact exec_vshr h p vd va sh 3 width false false (by simp; omega) fun a => rfl
  case beyond =>
    simp only [exec, execVshr]
    rw [if_pos (.inl ⟨rfl, hw⟩)]
    exact vop_bad h ..
  case sat => exact vop_eq h p vd va va fun _ _ _ => rfl
  case satU => exact vop_eq h p vd va va fun _ a _ => satU_eq w a.toNat
end

section
/-! SUPPORT. VLD and VST of consecutive words in the lane's own memory (R72, R73): every element's access goes through, a load reads
the words in place, and a store writes the words of the active elements one after another. -/
namespace Sys2Proof.Machine

/-! ### The accesses of consecutive words -/

section
variable {s : State} {l : LaneNo} {base : W} {a : Nat}

/-- The address of element `i` of consecutive words. -/
theorem vAddr_words (hb : base.toNat = a) (hin : a + 32 ≤ 0x2000) (i : Fin 8) : (vAddr base 0 i.val).toNat = a + 4 * i.val := by
  have hi := i.isLt
  rw [vAddr, if_pos rfl, BitVec.toNat_add, wn, BitVec.toNat_ofNat, hb]
  omega

theorem placeAt_local (l : LaneNo) {x n : Nat} (h : x + n ≤ 0x2000) : placeAt (.lane l) x n = some (.data x) := if_pos h

/-- Aligned words of local memory without errors meet nothing (R54, R69). -/
theorem vTrouble_words (hb : base.toNat = a) (hal : a % 4 = 0) (hin : a + 32 ≤ 0x2000) (hbad : (s.lane l).locBad = []) (act : List (Fin 8))
    (whole : Bool) : s.vTrouble (.lane l) (act.map fun i => vAddr base 0 i.val) 4 whole = none := by
  have hcheck (i : Fin 8) : s.vCheck (.lane l) (vAddr base 0 i.val) 4 whole = none := by
    have hi := i.isLt
    rw [State.vCheck, vAddr_words hb hin, if_neg (by omega), placeAt_local l (by omega)]
    simp [State.stalls, State.wordBad, State.memOf, hbad]
  have hnone : (act.map fun i => vAddr base 0 i.val).filterMap (fun ea => s.vCheck (.lane l) ea 4 whole) = [] := by
    rw [List.filterMap_map, List.filterMap_eq_nil_iff]
    exact fun i _ => hcheck i
  rw [State.vTrouble, hnone]
  rfl

theorem softFix_clean (hs : (s.lane l).locSoft = []) (x : Nat) : s.softFix (.lane l) (.data x) = s := by
  simp [State.softFix, State.memOf, hs]

end

/-! ### Words of a memory (R7) -/

theorem word4_eq_append (b0 b1 b2 b3 : Byte) : word4 b0 b1 b2 b3 = b3 ++ b2 ++ b1 ++ b0 := by
  rw [← wn_toNat (b3 ++ b2 ++ b1 ++ b0), toNat_append_eq, toNat_append_eq, toNat_append_eq, word4]
  congr 1
  omega

theorem wn_loadAt_word (s : State) (l : LaneNo) (x : Nat) : wn (s.loadAt (.lane l) (.data x) 4) = Mem.word (s.lane l).loc x := by
  rw [loadAt_word, Mem.word, word4_eq_append]
  exact wn_toNat _

theorem Mem.word_setWord {m : Mem} (x : Nat) (w : W) (h : m.wf = true) : Mem.word (Mem.setWord m x w) x = w := by
  have byte (k : Nat) (hk : k < 4) : Mem.get (Mem.setWord m x w) (x + k) = w.extractLsb' (8 * k) 8 := by
    rw [Mem.setWord, Mem.get_write_in (wordBytes w) h hk, wordBytes_getElem w k hk]
  have h0 := byte 0 (by decide)
  rw [Nat.add_zero] at h0
  rw [Mem.word, h0, byte 1 (by decide), byte 2 (by decide), byte 3 (by decide)]
  refine BitVec.eq_of_toNat_eq ?_
  simp only [word4, wn, BitVec.extractLsb'_toNat, Nat.shiftRight_eq_div_pow, BitVec.toNat_ofNat]
  omega

/-- The words `v i` written at `a + 4 i`, one after another. -/
def writeWords (a : Nat) (v : Fin 8 → W) (act : List (Fin 8)) (m : Mem) : Mem :=
  act.foldl (fun m i => Mem.setWord m (a + 4 * i.val) (v i)) m

section
variable {a : Nat} {v : Fin 8 → W} {act : List (Fin 8)} {m : Mem}

theorem get_writeWords_out (hm : m.wf = true) {b : Nat} (hb : ∀ i ∈ act, b < a + 4 * i.val ∨ a + 4 * i.val + 4 ≤ b) :
    Mem.get (writeWords a v act m) b = Mem.get m b := by
  induction act generalizing m with
  | nil => rfl
  | cons j r ih =>
    rw [writeWords, List.foldl_cons, ← writeWords, ih (Mem.setWord_wf _ _ hm) fun i hi => hb i (List.mem_cons_of_mem j hi)]
    exact Mem.get_write_out (wordBytes (v j)) hm (hb j List.mem_cons_self)

theorem word_writeWords (hm : m.wf = true) {i : Fin 8} (hi : i ∈ act) : Mem.word (writeWords a v act m) (a + 4 * i.val) = v i := by
  induction act generalizing m with
  | nil => nomatch hi
  | cons j r ih =>
    rw [writeWords, List.foldl_cons, ← writeWords]
    by_cases hr : i ∈ r
    · exact ih (Mem.setWord_wf _ _ hm) hr
    · obtain rfl : i = j := (List.mem_cons.mp hi).resolve_right hr
      have out (b : Nat) (hb : a + 4 * i.val ≤ b ∧ b < a + 4 * i.val + 4) := get_writeWords_out (v := v) (act := r) (a := a)
        (Mem.setWord_wf (a + 4 * i.val) (v i) hm) (b := b) fun q hq => by
          have hne : q.val ≠ i.val := fun e => hr (Fin.ext e ▸ hq)
          omega
      rw [Mem.word, out _ (by omega), out _ (by omega), out _ (by omega), out _ (by omega)]
      exact Mem.word_setWord _ _ hm

end

/-! ### VLD and VST -/

theorem forEach_map {α β : Type} (g : α → β) (f : β → State → State) (r : List α) (s : State) :
    forEach (r.map g) f s = forEach r (fun x => f (g x)) s := List.foldl_map ..

theorem upd_self {α : Type} {n : Nat} (v : Vector α n) (i : Fin n) : (upd v i fun x => x) = v := by
  refine vec_ext fun j => ?_
  by_cases h : j = i
  · rw [h, upd_get]
  · rw [upd_get_ne _ _ _ _ h]

theorem modLane_self (s : State) (l : LaneNo) : (s.modLane l fun x => x) = s := by
  unfold State.modLane
  rw [upd_self]

/-- Words stored one after another change the lane's local memory alone. -/
theorem forEach_storeAt_words (a : Nat) (v : Fin 8 → W) (act : List (Fin 8)) (s : State) (l : LaneNo) (hbad : (s.lane l).locBad = [])
    (hsoft : (s.lane l).locSoft = []) :
    forEach act (fun i t => t.storeAt (.lane l) (.data (a + 4 * i.val)) (wordBytes (v i))) s =
      s.modLane l fun x => { x with loc := writeWords a v act x.loc } := by
  induction act generalizing s with
  | nil => exact (modLane_self s l).symm
  | cons j r ih =>
    have hstep : s.storeAt (.lane l) (.data (a + 4 * j.val)) (wordBytes (v j)) =
        s.modLane l fun x => { x with loc := Mem.setWord x.loc (a + 4 * j.val) (v j) } := by
      refine modLane_congr s l ?_
      simp [hbad, hsoft, wordBytes, Place.off, Mem.setWord]
    rw [forEach_cons, hstep, ih _ (by simpa using hbad) (by simpa using hsoft), modLane_modLane]
    rfl

theorem mem_vActive (pr : Byte) (i : Fin 8) : i ∈ vActive pr ↔ pr.getLsbD i.val = true := by
  simp [vActive, allFin]

/-- The fetch of a lane's instruction corrects its cluster's kernel memory: the lanes stay (R43). -/
theorem fetched_lane (s : State) (l j : LaneNo) : (s.fetched ⟨.lane l, .none⟩).lane j = s.lane j := by
  unfold State.fetched
  split
  · unfold State.fetchFix
    dsimp only
    rw [occur_frame]
    rfl
  · rfl

section
variable {s : State} {l : LaneNo} (h : s.mayExecute ⟨.lane l, .none⟩) (p : Fin 4) (vd : Fin 8) {g : Reg} {off : BitVec 9} {a : Nat}
  (ha : ((s.cx ⟨.lane l, .none⟩).get g).toNat + 4 * off.toNat = a) (hal : a % 4 = 0) (hin : a + 32 ≤ 0x2000)

include ha hin in
theorem toNat_base : ((s.cx ⟨.lane l, .none⟩).get g + wn (4 * off.toNat)).toNat = a := by
  rw [BitVec.toNat_add, wn, BitVec.toNat_ofNat]
  omega

variable (hbad : ((s.fetched ⟨.lane l, .none⟩).lane l).locBad = []) (hsoft : ((s.fetched ⟨.lane l, .none⟩).lane l).locSoft = [])
include h ha hal hin hbad hsoft

theorem exec_vld_words : exec (.vld ⟨.lane l, .none⟩ p vd g 0 off) s = .next ((s.fetched ⟨.lane l, .none⟩).modLane l fun x =>
    { x with v := x.v.set vd (vecMask (x.pget p) (x.v.get vd) (vecOf fun i => Mem.word x.loc (a + 4 * i.val)))
             ctx := (s.cx ⟨.lane l, .none⟩).advance }) := by
  have hb := toNat_base ha hin
  have place (i : Fin 8) : placeAt (.lane l) (a + 4 * i.val) 4 = some (.data (a + 4 * i.val)) := placeAt_local l (by omega)
  simp only [exec, execVld, vec_of_mayExecute h]
  rw [show vBytes (0 : Fin 4).val = 4 from rfl, show (0 : Fin 4).val = 0 from rfl, vTrouble_words hb hal hin hbad, forEach_map]
  simp only [vAddr_words hb hin, place, wn_loadAt_word, vdone_eq]
  rw [forEach_eq_self (fun i => softFix_clean hsoft (a + 4 * i.val))]
  exact congrArg _ (modLane_congr _ _ rfl)

theorem exec_vst_words : exec (.vst ⟨.lane l, .none⟩ p vd g 0 off) s = .next ((s.fetched ⟨.lane l, .none⟩).modLane l fun x =>
    { x with loc := writeWords a (x.v.get vd).get (vActive (x.pget p)) x.loc
             ctx := (s.cx ⟨.lane l, .none⟩).advance }) := by
  have hb := toNat_base ha hin
  have place (i : Fin 8) : placeAt (.lane l) (a + 4 * i.val) 4 = some (.data (a + 4 * i.val)) := placeAt_local l (by omega)
  simp only [exec, execVst, vec_of_mayExecute h]
  rw [show vBytes (0 : Fin 4).val = 4 from rfl, show (0 : Fin 4).val = 0 from rfl, vTrouble_words hb hal hin hbad]
  simp only [vAddr_words hb hin, place]
  refine congrArg _ ?_
  refine (congrArg (State.done · _ _) (forEach_storeAt_words a _ _ _ l hbad hsoft)).trans ?_
  exact (modLane_modLane ..).trans (modLane_congr _ _ rfl)

end

end Sys2Proof.Machine
open Sys2Proof Sys2Proof.Machine

/-- Settles O24: a load takes the words in place (`exec_vld_words`), a store writes the words of the active elements
(`exec_vst_words`, `writeWords`). -/
theorem vectorLoadsAndStores : Obligations.VectorLoadsAndStores := by
  unfold Obligations.VectorLoadsAndStores
  intro s l p vd g off z x a hm h hal hin hbad hsoft
  have hwf : x.loc.wf = true := by
    obtain ⟨-, -, -, -, hlanes, -⟩ := hm
    exact (congrArg (fun y : Lane => y.loc.wf) (fetched_lane s l l)).trans (hlanes l)
  refine ⟨⟨_, exec_vld_words h p vd rfl hal hin hbad hsoft, ?_, ?_, fun i => ?_, fun r hr => ?_⟩,
    ⟨_, exec_vst_words h p vd rfl hal hin hbad hsoft, ?_, ?_, fun i hi => ?_, fun b hb => ?_⟩⟩
  · exact modLane_eq_const ..
  · rw [modLane_lane]
  · rw [modLane_lane, get_set, vecMask, vecOf_get, vecOf_get]
  · rw [modLane_lane, get_set_ne _ _ _ _ hr]
  · exact modLane_eq_const ..
  · rw [modLane_lane]
  · rw [modLane_lane]
    exact word_writeWords hwf ((mem_vActive ..).mpr hi)
  · rw [modLane_lane]
    exact get_writeWords_out hwf fun i hi => hb i ((mem_vActive ..).mp hi)
end

section
/-! SUPPORT. The parameter instructions of an engine (R55, R56, R58, R100): what each is on the state after the fetch, and that a class P
block of a running port waits. -/
namespace Sys2Proof.Machine

/-- The control engines are all but the ME (R42). -/
theorem isControl_eng {e : Eng} (h : e.val ≠ 5) : isControl (.eng e) = true := bne_iff_ne.mpr h

/-- The committed copy of a class P block waits while its port runs (R56, R100). -/
theorem commitSettle_running (s : State) {blk : Nat} {p : Port} (hc : blkClass blk = .p) (hp : blkPort blk = some p)
    (hr : (s.port p).st = .running) : s.commitSettle blk = s := by
  have hany : s.anyRunning = true := List.any_eq_true.mpr ⟨p, List.mem_finRange p, by simp [hr]⟩
  simp [State.commitSettle, hany, hc, hp, hr]

theorem commitCopy_of_ne_zero (s : State) {blk : Nat} (h : blk ≠ 0) : s.commitCopy blk = s.modParams fun q =>
    { q with pending := insertN q.pending blk (q.staging.block blk) } := by
  simp [State.commitCopy, h]

section
variable {s : State} {e : Eng} (h : s.mayExecute ⟨.eng e, .none⟩)
include h

theorem exec_ldPb (d a : Reg) (imm : BitVec 18) : let i := paramIndex imm ((s.cx ⟨.eng e, .none⟩).get a)
    exec (.ldPb ⟨.eng e, .none⟩ d a imm) s = .next (if fieldExists (i / 256) (i % 256) then
        s.stepCtx ⟨.eng e, .none⟩ fun c => c.put d ((s.fetched ⟨.eng e, .none⟩).force (i / 256) (i % 256))
      else (s.fetched ⟨.eng e, .none⟩).raise (.eng e) 4 0) := by
  simp only [exec, execLdPb, zx_of_mayExecute _ h]
  rfl

theorem exec_param (hc : e.val ≠ 5) (d a : Reg) (imm : BitVec 18) : let i := paramIndex imm ((s.cx ⟨.eng e, .none⟩).get a)
    ∀ v, fieldInfo (i / 256) (i % 256) = some v →
    exec (.param ⟨.eng e, .none⟩ d a imm) s = .next (if fieldWritable (i / 256) (i % 256) e then
        (s.stepCtx ⟨.eng e, .none⟩ id).modParams fun q =>
          { q with staging := insertN q.staging i ((s.cx ⟨.eng e, .none⟩).get d &&& v.2) }
      else (s.fetched ⟨.eng e, .none⟩).raise (.eng e) 4 0) := by
  intro i v hv
  simp only [exec, execParam, isControl_eng hc, zx_of_mayExecute _ h]
  rw [hv]
  rfl

theorem exec_commit (hc : e.val ≠ 5) (blk : BitVec 10) : exec (.commit ⟨.eng e, .none⟩ blk) s =
    .next (if blkWritable blk.toNat e then ((s.stepCtx ⟨.eng e, .none⟩ id).commitCopy blk.toNat).commitSettle blk.toNat
      else (s.fetched ⟨.eng e, .none⟩).raise (.eng e) 4 0) := by
  simp only [exec, execCommit, isControl_eng hc, zx_of_mayExecute _ h]
  rfl

end

end Sys2Proof.Machine
open Sys2Proof Sys2Proof.Machine

/-- Settles O17: each form of the three instructions (`exec_ldPb`, `exec_param`, `exec_commit`); a running port's block waits
(`commitSettle_running`). -/
theorem parametersAreStagedAndCommitted : Obligations.ParametersAreStagedAndCommitted := by
  unfold Obligations.ParametersAreStagedAndCommitted
  intro s e d a imm blk p h z i
  have hblk (h0 : blk ≠ 0) : blk.toNat ≠ 0 := fun hz => h0 (BitVec.eq_of_toNat_eq hz)
  have commits (hc : e.val ≠ 5) (hw : blkWritable blk.toNat e = true) (h0 : blk ≠ 0) :
      exec (.commit z blk) s = .next (((s.stepCtx z id).modParams fun q =>
        { q with pending := insertN q.pending blk.toNat (q.staging.block blk.toNat) }).commitSettle blk.toNat) := by
    rw [exec_commit h hc, if_pos hw, commitCopy_of_ne_zero _ (hblk h0)]
  refine ⟨fun hf => ?_, fun hf => ?_, fun v hc hv hw => ?_, fun v hc hv hw => ?_, fun hc hw hp hpp h0 hr => ?_, commits, fun hc hw => ?_⟩
  · exact (exec_ldPb h d a imm).trans (congrArg _ (if_pos hf))
  · exact (exec_ldPb h d a imm).trans (congrArg _ (if_neg (ne_true_of_eq_false hf)))
  · exact (exec_param h hc d a imm v hv).trans (congrArg _ (if_pos hw))
  · exact (exec_param h hc d a imm v hv).trans (congrArg _ (if_neg (ne_true_of_eq_false hw)))
  · refine (commits hc hw h0).trans (congrArg _ (commitSettle_running _ hp hpp ?_))
    exact hr
  · rw [exec_commit h hc, if_neg (ne_true_of_eq_false hw)]
end

section
/-! SUPPORT. Context switching (R46): a switch, a context that blocks and one that becomes ready change one engine and its trace alone, and
of the engine the context that runs. -/
namespace Sys2Proof.Machine

/-! ### What the trace leaves unchanged (R480) -/

theorem trace_pending (s : State) (ty src : Nat) (body : List Byte) :
    (s.trace ty src body).events.pend = s.events.pend ∧ (s.trace ty src body).events.ovr = s.events.ovr := by
  unfold State.trace
  split
  · dsimp only
    split <;> exact ⟨rfl, rfl⟩
  · exact ⟨rfl, rfl⟩

theorem traceFlow_pending (s : State) (e : Eng) (c : Fin 4) (r : Nat) (t : W) (k : List Byte) :
    (s.traceFlow e c r t k).events.pend = s.events.pend ∧ (s.traceFlow e c r t k).events.ovr = s.events.ovr := by
  unfold State.traceFlow
  split
  · exact trace_pending ..
  · exact ⟨rfl, rfl⟩

/-! ### Only one engine -/

theorem onlyEng_refl (s : State) (e : Eng) : s.onlyEng s e := ⟨rfl, fun _ _ => rfl, rfl, rfl⟩

theorem onlyEng_trans {s t u : State} {e : Eng} (h : s.onlyEng t e) (h' : t.onlyEng u e) : s.onlyEng u e := by
  obtain ⟨heq, heng, hpend, hovr⟩ := h
  obtain ⟨heq', heng', hpend', hovr'⟩ := h'
  refine ⟨?_, fun d hd => (heng' d hd).trans (heng d hd), hpend'.trans hpend, hovr'.trans hovr⟩
  rw [heq', heq]

theorem onlyEng_modEng (s : State) (e : Eng) (f : Engine → Engine) : s.onlyEng (s.modEng e f) e :=
  ⟨rfl, fun d hd => modEng_eng_ne s e d f hd, rfl, rfl⟩

theorem onlyEng_traceFlow (s : State) (e d : Eng) (c : Fin 4) (r : Nat) (t : W) (k : List Byte) :
    s.onlyEng (s.traceFlow d c r t k) e := by
  obtain ⟨hpend, hovr⟩ := traceFlow_pending s d c r t k
  have heq := traceFlow_eq s d c r t k
  refine ⟨?_, fun _ _ => by rw [heq]; rfl, hpend, hovr⟩
  rw [heq]

/-! ### The next ready context -/

section
variable (s : State) (e : Eng)

/-- A switch to `k`. -/
theorem switch_to {k : Fin 4} (h : nextReady e (s.eng e) = some k) :
    s.onlyEng (s.switch e) e ∧ (s.switch e).eng e = { s.eng e with run := k } := by
  simp only [State.switch, h]
  have hrun : s.onlyEng (s.modEng e fun en => { en with run := k }) e := onlyEng_modEng ..
  split
  · exact ⟨hrun, modEng_eng ..⟩
  · refine ⟨onlyEng_trans hrun (onlyEng_traceFlow ..), ?_⟩
    rw [State.eng, traceFlow_engines]
    exact modEng_eng ..

theorem switch_onlyEng : s.onlyEng (s.switch e) e ∧ ∃ r, (s.switch e).eng e = { s.eng e with run := r } := by
  cases h : nextReady e (s.eng e) with
  | some k =>
    obtain ⟨honly, heng⟩ := switch_to s e h
    exact ⟨honly, k, heng⟩
  | none =>
    rw [State.switch, h]
    exact ⟨onlyEng_refl s e, (s.eng e).run, rfl⟩

theorem wake_onlyEng : s.onlyEng (s.wake e) e ∧ ∃ r, (s.wake e).eng e = { s.eng e with run := r } := by
  unfold State.wake
  dsimp only
  split
  · exact ⟨onlyEng_refl s e, (s.eng e).run, rfl⟩
  · exact switch_onlyEng s e

/-- A context that blocks leaves the engine to the next ready one. -/
theorem blockOn_onlyEng (x : Ctx) (b : Blocked) : s.onlyEng (s.blockOn (.eng e) x b) e ∧
    ∃ r, (s.blockOn (.eng e) x b).eng e = { s.eng e with run := r, ctxs := (s.eng e).ctxs.set (s.eng e).run { x with block := b } } := by
  obtain ⟨honly, r, heng⟩ := switch_onlyEng (s.putCtx (.eng e) { x with block := b }) e
  refine ⟨onlyEng_trans (onlyEng_modEng ..) honly, r, heng.trans ?_⟩
  rw [State.putCtx, modEng_eng]

/-- A context that becomes ready is taken up where the running one is blocked. -/
theorem ready_onlyEng (c : Fin 4) (f : Ctx → Ctx) : s.onlyEng (s.ready e c f) e ∧
    ∃ r, (s.ready e c f).eng e = { s.eng e with run := r, ctxs := upd (s.eng e).ctxs c fun x => { f x with block := .ready } } := by
  obtain ⟨honly, r, heng⟩ := wake_onlyEng (s.modEng e fun en => { en with ctxs := upd en.ctxs c fun x => { f x with block := .ready } }) e
  refine ⟨onlyEng_trans (onlyEng_modEng ..) honly, r, heng.trans ?_⟩
  rw [modEng_eng]

end

/-- The order in which a switch from `r` looks for a ready context. -/
theorem switchOrder_getElem (r i : Fin 4) : [r + 1, r + 2, r + 3, r][i.val]'i.isLt = r + 1 + i := by
  revert r i
  decide

/-- The first ready context in the order from the running one's successor. -/
theorem nextReady_eq_of_first {e : Eng} {en : Engine} {k : Fin 4} (hn : k.val < nCtx e) (hk : (en.ctxs.get k).block = .ready)
    (hmin : ∀ j : Fin 4, j.val < nCtx e → (en.ctxs.get j).block = .ready → (k - en.run - 1).val ≤ (j - en.run - 1).val) :
    nextReady e en = some k := by
  rw [nextReady, List.find?_eq_some_iff_getElem]
  refine ⟨by simp [hn, hk], (k - en.run - 1).val, (k - en.run - 1).isLt, ?_, fun j hj => ?_⟩
  · rw [switchOrder_getElem]
    omega
  · have hj4 : j < 4 := hj.trans (k - en.run - 1).isLt
    have hget := switchOrder_getElem en.run ⟨j, hj4⟩
    rw [show [en.run + 1, en.run + 2, en.run + 3, en.run][j] = en.run + 1 + ⟨j, hj4⟩ from hget]
    rw [Bool.not_eq_true', Bool.eq_false_iff]
    intro hready
    obtain ⟨hjn, hjr⟩ := Bool.and_eq_true _ _ ▸ hready
    have hle := hmin _ (of_decide_eq_true hjn) (eq_of_beq hjr)
    rw [show en.run + 1 + ⟨j, hj4⟩ - en.run - 1 = (⟨j, hj4⟩ : Fin 4) by omega] at hle
    exact absurd hj (Nat.not_lt.mpr hle)

end Sys2Proof.Machine
end

section
/-! SUPPORT. WAIT, MER and YIELD (R46, R63–R65): what each is on the state after the fetch, and the resumption of a blocked context. -/
namespace Sys2Proof.Machine

theorem tagsDone_iff (c : Ctx) (mask : W) : tagsDone c mask = true ↔ ∀ k : Fin 4, bitOf mask (28 + k.val) = true → c.tags.get k = none := by
  simp [tagsDone, allFin, or_iff_not_imp_left]

/-! ### The instructions -/

section
variable {s : State} {e : Eng} (h : s.mayExecute ⟨.eng e, .none⟩)
include h

theorem exec_wait_eng (d a : Reg) : exec (.wait ⟨.eng e, .none⟩ d a) s =
    let c := s.cx ⟨.eng e, .none⟩
    .next (if c.get a = 0 ∨ c.latches &&& c.get a ≠ 0 then s.jumpCtx ⟨.eng e, .none⟩ fun x => x.waitDone d (c.get a)
      else (s.fetched ⟨.eng e, .none⟩).blockOn (.eng e) c (.wait (c.get a) d)) := by
  simp only [exec, execWait, zx_of_mayExecute _ h]
  rfl

theorem exec_mer (d : Reg) (p : Port) : exec (.mer ⟨.eng e, .none⟩ d (BitVec.ofNat 18 p.val)) s =
    let u := s.fetched ⟨.eng e, .none⟩
    .next (if (u.port (u.merPort p)).st = .running then
        u.blockOn (.eng e) { s.cx ⟨.eng e, .none⟩ with merGot := none } (.mer (u.merPort p) d)
      else s.stepCtx ⟨.eng e, .none⟩ fun x => { (x.put d (u.agreedMer (u.merPort p))) with c := true }) := by
  have hp : (BitVec.ofNat 18 p.val).toNat = p.val := by
    rw [BitVec.toNat_ofNat]
    omega
  simp only [exec, execMer, isEng, zx_of_mayExecute _ h, hp, p.isLt, dif_pos]
  rfl

theorem exec_yield_eng : exec (.yield ⟨.eng e, .none⟩) s = .next ((s.stepCtx ⟨.eng e, .none⟩ id).switch e) := by
  simp only [exec, execYield, zx_of_mayExecute _ h]
  rfl

end

section
variable {s : State} {l : LaneNo} (h : s.mayExecute ⟨.lane l, .none⟩)
include h

theorem exec_wait_lane (d a : Reg) (hf : fld ((s.cx ⟨.lane l, .none⟩).get a) 27 0 = 0)
    (ht : tagsDone (s.cx ⟨.lane l, .none⟩) ((s.cx ⟨.lane l, .none⟩).get a) = true) :
    exec (.wait ⟨.lane l, .none⟩ d a) s = .next (s.stepCtx ⟨.lane l, .none⟩ fun x => x.put d ((s.cx ⟨.lane l, .none⟩).get a)) := by
  simp only [exec, execWait, zx_of_mayExecute _ h, hf, ht, ne_eq, not_true_eq_false, if_false, if_true]
  rfl

theorem exec_yield_lane : exec (.yield ⟨.lane l, .none⟩) s = .next ((s.stepCtx ⟨.lane l, .none⟩ id).invocEnd l) := by
  simp only [exec, execYield, zx_of_mayExecute _ h]
  rfl

end

/-! ### Resumption -/

theorem exec_waitResume_eng {s : State} {e : Eng} {c : Fin 4} {mask : W} {d : Reg} (hl : s.live (.eng e) = true)
    (hb : ((s.eng e).ctxs.get c).block = .wait mask d) (hm : ((s.eng e).ctxs.get c).latches &&& mask ≠ 0) :
    exec (.waitResume (.eng e) c) s = .next (s.ready e c fun x => x.waitDone d mask) := by
  simp only [exec, execWaitResume, hl, hb, Bool.not_true, Bool.false_eq_true, if_false, if_pos hm]

theorem exec_waitResume_lane {s : State} {l : LaneNo} (c : Fin 4) {mask : W} {d : Reg} (hl : s.live (.lane l) = true)
    (hb : (s.lane l).ctx.block = .wait mask d) (ht : tagsDone (s.lane l).ctx mask = true) :
    exec (.waitResume (.lane l) c) s = .next (s.modLane l fun x =>
      { x with ctx := { (x.ctx.put d mask).advance with block := .ready } }) := by
  simp only [exec, execWaitResume, hl, hb, ht, Bool.not_true, Bool.false_eq_true, if_false, if_true]
  exact congrArg _ (modLane_congr _ _ rfl)

theorem exec_merResume {s : State} {e : Eng} {c : Fin 4} {p : Port} {d : Reg} {m : W} (hl : s.live (.eng e) = true)
    (hb : ((s.eng e).ctxs.get c).block = .mer p d) (hm : ((s.eng e).ctxs.get c).merGot = some m) :
    exec (.merResume e c) s = .next (s.ready e c fun x => ({ (x.put d m) with c := false, merGot := none } : Ctx).advance) := by
  simp [exec, execMerResume, hl, hb, hm]

/-! ### The end of a lane's invocation -/

theorem clocksTake_lanes (s : State) : s.clocksTake.lanes = s.lanes := by
  unfold State.clocksTake
  refine forEach_eq_of_step (·.lanes) (fun k t => ?_) _ _
  split <;> rfl

/-- The lane without its invocation, and the group counted. -/
def State.invocLeft (s : State) (l : LaneNo) : State := (s.modLane l fun x => { x with invoc := none }).count (96 + l.val) 1

theorem invocEnd_of_none {s : State} {l : LaneNo} (h : (s.lane l).invoc = none) :
    s.invocEnd l = (((s.invocLeft l).retryDone (uLane l)).settleUnit (uLane l)).clocksTake := by
  rw [State.invocEnd, h]
  rfl

theorem invocEnd_of_some {s : State} {l : LaneNo} {v : Invoc} (h : (s.lane l).invoc = some v) :
    s.invocEnd l = ((((s.writeBack l v).invocLeft l).retryDone (uLane l)).settleUnit (uLane l)).clocksTake := by
  rw [State.invocEnd, h]
  rfl

theorem settleUnit_of_ne (s : State) (u : Fin 182) (h : (s.unit u).st ≠ 4) : s.settleUnit u = s := if_neg h

theorem retryDone_of_ne (s : State) (u : Fin 182) (h : (s.unit u).st ≠ 3) : s.retryDone u = s := if_neg h

/-- A lane in service is settled as it stands. -/
theorem settle_in_service {s : State} {u : Fin 182} (h : (s.unit u).st = 0) : (s.retryDone u).settleUnit u = s := by
  rw [retryDone_of_ne s u (h ▸ by decide), settleUnit_of_ne s u (h ▸ by decide)]

end Sys2Proof.Machine
open Sys2Proof Sys2Proof.Machine

/-- Settles O18: WAIT, MER and YIELD on an engine or a lane, and the switches between an engine's contexts (`blockOn_onlyEng`,
`ready_onlyEng`, `switch_to`). -/
theorem waitsAndYields : Obligations.WaitsAndYields := by
  unfold Obligations.WaitsAndYields
  refine ⟨fun s e l c d a mask => ⟨?engine, ?lane, blockOn_onlyEng s e, ready_onlyEng s e c⟩, ?meridian, ?invocation⟩
  case engine =>
    intro z finish
    refine ⟨?_, ?_, exec_waitResume_eng⟩
    · rintro h rfl hm
      exact (exec_wait_eng h d a).trans (congrArg _ (if_pos hm))
    · rintro h rfl h0 hm
      exact (exec_wait_eng h d a).trans (congrArg _ (if_neg (not_or.mpr ⟨h0, not_not.mpr hm⟩)))
  case lane =>
    intro z complete
    refine ⟨?_, fun hl hb ht => exec_waitResume_lane c hl hb ((tagsDone_iff ..).mpr ht)⟩
    rintro h rfl hf ht
    exact exec_wait_lane h d a hf ((tagsDone_iff ..).mpr ht)
  case meridian =>
    intro s e c d p m k z u en
    refine ⟨fun h hr => ?_, fun h hr => ?_, exec_merResume, fun h hn hk hmin => ?_⟩
    · exact (exec_mer h d p).trans (congrArg _ (if_neg hr))
    · exact (exec_mer h d p).trans (congrArg _ (if_pos hr))
    · exact ⟨_, exec_yield_eng h, switch_to _ e (nextReady_eq_of_first hn hk hmin)⟩
  case invocation =>
    intro s l v h t ended
    have hyield := exec_yield_lane h
    refine ⟨⟨_, hyield, rfl⟩, fun hi hu => ?_, fun hi hu => ⟨?_, ?_⟩, fun hi hu => ?_⟩
    · exact hyield.trans (congrArg _ ((invocEnd_of_none hi).trans (congrArg State.clocksTake (settle_in_service hu))))
    · exact hyield.trans (congrArg _ ((invocEnd_of_some hi).trans (congrArg State.clocksTake (settle_in_service hu))))
    · rw [State.lane, clocksTake_lanes]
      exact congrArg Lane.invoc (modLane_lane ..)
    · exact hyield.trans (congrArg _ ((invocEnd_of_some hi).trans
        (congrArg (fun u : State => (u.settleUnit (uLane l)).clocksTake) (if_pos hu))))
end

section
/-! SUPPORT. SEND, RECV and the channels between engines (R62, R66, R67). -/
namespace Sys2Proof.Machine

/-! ### A word enters a channel (R62) -/

theorem latch_ctx (s : State) (e : Eng) (c q : Fin 4) (input : Nat) : ((s.latch e c input).eng e).ctxs.get q =
    { (s.eng e).ctxs.get q with latches := if q = c then ((s.eng e).ctxs.get q).latches ||| (1 <<< input : W)
                                           else ((s.eng e).ctxs.get q).latches } := by
  rw [State.latch, modEng_eng]
  by_cases h : q = c
  · subst h
    rw [upd_get, if_pos rfl]
  · rw [upd_get_ne _ _ _ _ h, if_neg h]

/-- The latches of several contexts of one engine. -/
theorem forEach_latch (l : List (Fin 4)) (s : State) (e : Eng) (input : Nat) :
    let t := forEach l (fun c t => t.latch e c input) s
    s.onlyEng t e ∧ t.eng e = { s.eng e with ctxs := (t.eng e).ctxs } ∧
      ∀ q, (t.eng e).ctxs.get q = { (s.eng e).ctxs.get q with
        latches := if q ∈ l then ((s.eng e).ctxs.get q).latches ||| (1 <<< input : W) else ((s.eng e).ctxs.get q).latches } := by
  induction l generalizing s with
  | nil => exact ⟨onlyEng_refl s e, rfl, fun q => rfl⟩
  | cons c r ih =>
    obtain ⟨honly, heng, hctx⟩ := ih (s.latch e c input)
    refine ⟨onlyEng_trans (onlyEng_modEng s e _) honly, ?_, fun q => ?_⟩
    · refine heng.trans ?_
      rw [State.latch, modEng_eng]
      rfl
    · refine (hctx q).trans ?_
      rw [latch_ctx]
      by_cases hq : q = c
      · subst hq
        simp [BitVec.or_assoc]
      · simp [hq]

theorem bitOf_latched (x : W) : bitOf (x ||| (1 <<< 24 : W)) 24 = true := by
  simp [bitOf]

theorem latches_of_eq {c d : Ctx} {x : W} (h : c = { d with latches := x }) : c = { d with latches := c.latches } := by
  subst h
  rfl

theorem chanPut_onlyEng (s : State) (f : Eng) (ch : Fin 16) (w : W) : let t := s.chanPut f ch w
    s.onlyEng t f ∧ (t.eng f).chans = upd (s.eng f).chans ch (· ++ [w]) ∧
      (∀ q : Fin 4, q.val < nCtx f → bitOf ((t.eng f).ctxs.get q).latches 24 = true) ∧
      t.eng f = { s.eng f with chans := (t.eng f).chans, ctxs := (t.eng f).ctxs } ∧
      ∀ q : Fin 4, (t.eng f).ctxs.get q = { (s.eng f).ctxs.get q with latches := ((t.eng f).ctxs.get q).latches } := by
  intro t
  obtain ⟨honly, heng, hctx⟩ := forEach_latch ((allFin 4).filter fun c => c.val < nCtx f)
    (s.modEng f fun en => { en with chans := upd en.chans ch (· ++ [w]) }) f 24
  rw [modEng_eng] at heng hctx
  have hchans : (t.eng f).chans = upd (s.eng f).chans ch (· ++ [w]) := congrArg Engine.chans heng
  refine ⟨onlyEng_trans (onlyEng_modEng ..) honly, hchans, fun q hq => ?_, heng.trans ?_, fun q => ?_⟩
  · have hin : q ∈ (allFin 4).filter fun c => c.val < nCtx f := List.mem_filter.mpr ⟨List.mem_finRange q, decide_eq_true hq⟩
    have hlatches := congrArg Ctx.latches (hctx q)
    dsimp only at hlatches
    rw [if_pos hin] at hlatches
    exact (congrArg (bitOf · 24) hlatches).trans (bitOf_latched _)
  · rw [hchans]
    rfl
  · exact latches_of_eq (hctx q)

/-! ### The instructions -/

section
variable {s : State} {e : Eng} (h : s.mayExecute ⟨.eng e, .none⟩)
include h

theorem exec_send (a : Reg) (ch dst : Fin 16) : exec (.send ⟨.eng e, .none⟩ a ch dst) s =
    let u := s.fetched ⟨.eng e, .none⟩
    let c := s.cx ⟨.eng e, .none⟩
    .next (match sendCause e dst ch with
      | some cause => u.raise (.eng e) cause 0
      | none =>
        if dst.val = 6 ∧ u.linkUp = false then s.stepCtx ⟨.eng e, .none⟩ fun x => { x with c := true }
        else if 16 ≤ u.outstanding e then (u.blockOn (.eng e) c (.send (c.get a) ch dst)).occur (srcEng e 3)
        else (s.stepCtx ⟨.eng e, .none⟩ fun x => { x with c := false }).modEng e fun en =>
          { en with out := en.out ++ [⟨dst, ch, c.get a, (u.eng e).run⟩] }) := by
  simp only [exec, execSend, isEng, zx_of_mayExecute _ h, Bool.not_eq_true']
  rfl

theorem exec_recv_cons (d : Reg) (ch : Fin 16) (nb : Bool) {w : W} {r : List W}
    (hw : ((s.fetched ⟨.eng e, .none⟩).eng e).chans.get ch = w :: r) : exec (.recv ⟨.eng e, .none⟩ d ch nb) s =
      .next ((s.stepCtx ⟨.eng e, .none⟩ fun x => if nb then { (x.put d w) with z := false } else x.put d w).chanTake e ch) := by
  simp only [exec, execRecv, isEng, zx_of_mayExecute _ h, hw]
  rfl

theorem exec_recv_nil (d : Reg) (ch : Fin 16) (nb : Bool) (hw : ((s.fetched ⟨.eng e, .none⟩).eng e).chans.get ch = []) :
    exec (.recv ⟨.eng e, .none⟩ d ch nb) s = .next (if nb then s.stepCtx ⟨.eng e, .none⟩ fun x => { x with z := true }
      else (s.fetched ⟨.eng e, .none⟩).blockOn (.eng e) (s.cx ⟨.eng e, .none⟩) (.recv ch d)) := by
  simp only [exec, execRecv, isEng, zx_of_mayExecute _ h, hw]
  rfl

end

theorem modEng_congr (s : State) (e : Eng) {f g : Engine → Engine} (h : f (s.eng e) = g (s.eng e)) : s.modEng e f = s.modEng e g := by
  unfold State.modEng
  rw [upd_congr _ _ _ _ h]

/-- The oldest word leaves a channel that no fixed logic serves. -/
theorem chanTake_cons {s : State} {e : Eng} {ch : Fin 16} {w : W} {r : List W} (hch : ch.val < 13) (h : (s.eng e).chans.get ch = w :: r) :
    s.chanTake e ch = s.modEng e fun en => { en with chans := upd en.chans ch fun _ => r } := by
  have h15 : ¬(e.val = 0 ∧ ch.val = 15) := by omega
  have h13 : ¬ch.val = 13 := by omega
  simp only [State.chanTake, h15, h13, if_false]
  have hdrop := upd_congr (s.eng e).chans ch (·.drop 1) (fun _ => r) (by rw [h]; rfl)
  refine modEng_congr s e ?_
  rw [hdrop]

theorem exec_sendUnblock {s : State} {e : Eng} {c : Fin 4} {w : W} {ch dst : Fin 16} (hl : s.live (.eng e) = true)
    (hb : ((s.eng e).ctxs.get c).block = .send w ch dst) (hup : ¬(dst.val = 6 ∧ s.linkUp = false)) (ho : s.outstanding e < 16) :
    exec (.sendUnblock e c) s = .next ((s.modEng e fun en => { en with out := en.out ++ [⟨dst, ch, w, c⟩] }).ready e c
      fun x => ({ x with c := false } : Ctx).advance) := by
  simp only [exec, execSendUnblock, hl, hb, Bool.not_eq_true', Bool.true_eq_false, if_false, if_neg hup, if_neg (Nat.not_le.mpr ho)]

theorem exec_recvResume {s : State} {e : Eng} {c : Fin 4} {d : Reg} {ch : Fin 16} {w : W} {r : List W} (hl : s.live (.eng e) = true)
    (hb : ((s.eng e).ctxs.get c).block = .recv ch d) (hw : (s.eng e).chans.get ch = w :: r) :
    exec (.recvResume e c) s = .next ((s.ready e c fun x => (x.put d w).advance).chanTake e ch) := by
  simp only [exec, execRecvResume, hl, hb, hw, Bool.not_true, Bool.false_eq_true, if_false]

/-- An engine that runs has no stop to complete. -/
theorem stopSettle_running {s : State} {e : Eng} (h : (s.eng e).st = 1) : s.stopSettle e = s := by
  simp [State.stopSettle, h]

theorem chanPut_st (s : State) (f e : Eng) (ch : Fin 16) (w : W) : ((s.chanPut f ch w).eng e).st = (s.eng e).st := by
  obtain ⟨⟨-, hother, -, -⟩, -, -, heng, -⟩ := chanPut_onlyEng s f ch w
  by_cases h : e = f
  · subst h
    rw [heng]
  · rw [hother e h]

theorem exec_messageDelivery {s : State} {e f : Eng} {k : Nat} {m : Msg} (hheld : s.thermal.held = false) (hm : (s.eng e).out[k]? = some m)
    (hold : ∀ x ∈ (s.eng e).out.take k, ¬(x.dst = m.dst ∧ x.ch = m.ch)) (hf : m.dst.val = f.val) (h14 : ¬(m.dst.val = 0 ∧ m.ch.val = 14))
    (hroom : ((s.eng f).chans.get m.ch).length < 4) (hst : (s.eng e).st = 1) : exec (.messageDelivery e k) s =
      .next ((s.modEng e fun en => { en with out := en.out.eraseIdx k }).chanPut f m.ch m.word) := by
  have hnot6 : ¬m.dst.val = 6 := by omega
  have hlt : m.dst.val < 6 := by omega
  have hfirst : ((s.eng e).out.take k).any (fun x => x.dst == m.dst && x.ch == m.ch) = false := by
    simpa using hold
  have hto : (⟨m.dst.val, hlt⟩ : Eng) = f := Fin.ext hf
  have hsettled : ((s.outDrop e k).chanPut f m.ch m.word).stopSettle e = (s.outDrop e k).chanPut f m.ch m.word :=
    stopSettle_running (by rw [chanPut_st, State.outDrop, modEng_eng, hst])
  simp only [exec, execMessageDelivery, hheld, hm, hfirst, Bool.false_eq_true, if_false, if_neg h14, if_neg hnot6, dif_pos hlt, hto,
    State.chanRoom, decide_eq_true hroom, if_true, hsettled]
  rfl

end Sys2Proof.Machine
open Sys2Proof Sys2Proof.Machine

/-- Settles O19: the forms of SEND and RECV (`exec_send`, `exec_recv`), the delivery of a message and what a word does that enters a
channel (`chanPut_onlyEng`). -/
theorem messagesGoInOrder : Obligations.MessagesGoInOrder := by
  unfold Obligations.MessagesGoInOrder
  refine ⟨fun s e c a ch dst w => ?send, fun s e f c k m d ch nb w r => ?receive⟩
  case send =>
    intro z u
    refine ⟨fun h hc hup ho => ?_, fun h hc hup ho => ?_, fun h hc h6 hup => ?_, fun cause h hc => ?_, exec_sendUnblock⟩
    all_goals rw [exec_send h, hc]
    · exact congrArg _ ((if_neg hup).trans (if_neg (Nat.not_le.mpr ho)))
    · exact congrArg _ ((if_neg hup).trans (if_pos ho))
    · exact congrArg _ (if_pos ⟨h6, hup⟩)
  case receive =>
    intro z
    refine ⟨exec_messageDelivery, fun t ht => ht ▸ chanPut_onlyEng s f ch w, fun h hch hw => ?_, fun h hw => ⟨?_, ?_⟩,
      fun hl hch hb hw => ?_⟩
    · refine (exec_recv_cons h d ch nb hw).trans (congrArg _ (chanTake_cons hch (w := w) ?_))
      exact (congrArg (fun en : Engine => en.chans.get ch) (modEng_eng ..)).trans hw
    · exact exec_recv_nil h d ch true hw
    · exact exec_recv_nil h d ch false hw
    · obtain ⟨-, run, heng⟩ := ready_onlyEng s e c fun x => (x.put d w).advance
      rw [exec_recvResume hl hb hw, chanTake_cons hch (w := w) (r := r)]
      rw [heng]
      exact hw
end

section
/-! SUPPORT. TILE transfers (R68, R69, R71): the issue under the lowest free tag, and what the store's reads and writes leave unchanged. -/
namespace Sys2Proof.Machine

/-! ### Reads and writes of the store leave the lanes alone -/

theorem occur_lanes (s : State) (n : Nat) : (s.occur n).lanes = s.lanes := by
  rw [occur_frame]

section
-- What occurrences and changes of the events, the store and the fault manager leave alone.
variable {β : Type} {P : State → β} (hoccur : ∀ s n, P (State.occur s n) = P s) (hevents : ∀ s f, P (State.modEvents s f) = P s)
  (hstore : ∀ s f, P (State.modStore s f) = P s) (hfm : ∀ s f, P (State.modFm s f) = P s)

include hstore hfm in
theorem rowDetect_keeps (s : State) (ch : Fin 16) (bank row : Nat) (cause : Byte) : P (s.rowDetect ch bank row cause) = P s := by
  unfold State.rowDetect
  dsimp only
  repeat' split
  · rfl
  · exact hstore ..
  · exact hstore ..
  · exact hfm ..

include hoccur hstore in
theorem copyWord_keeps (s : State) (w : Nat) : P (s.copyWord w) = P s := by
  unfold State.copyWord
  dsimp only
  repeat' split
  · exact hstore ..
  · exact (hoccur ..).trans (hstore ..)
  · exact (hoccur ..).trans (hstore ..)
  · rfl

include hoccur hstore hfm in
theorem checkWord_keeps (s : State) (w : Nat) : P (s.checkWord w) = P s := by
  have hcopy := copyWord_keeps hoccur hstore s w
  have hrow (ch : Fin 16) (bank row : Nat) (cause : Byte) := (rowDetect_keeps hstore hfm (s.copyWord w) ch bank row cause).trans hcopy
  unfold State.checkWord
  dsimp only
  repeat' split
  · exact hcopy
  · exact hrow ..
  · exact hrow ..
  · exact hcopy
  · rfl

include hevents in
theorem countLines_keeps_of (s : State) (a n : Nat) : P (s.countLines a n) = P s := by
  unfold State.countLines
  split
  · rfl
  · exact forEach_eq_of_step P (fun _ _ => hevents ..) _ _

include hoccur hstore hfm in
theorem storePart_keeps (s : State) (a : Nat) (bs : List Byte) : P (s.storePart a bs) = P s := by
  have hcheck := checkWord_keeps hoccur hstore hfm s (a / 8)
  unfold State.storePart
  dsimp only
  repeat' split
  · exact hstore ..
  · exact (hstore ..).trans hcheck
  · exact (hstore ..).trans hcheck

include hoccur hevents hstore hfm in
theorem storeRead_keeps (s : State) (a n : Nat) : P (s.storeRead a n).2 = P s :=
  (forEach_eq_of_step P (fun w t => checkWord_keeps hoccur hstore hfm t w) _ _).trans (countLines_keeps_of hevents s a n)

include hoccur hstore hfm in
theorem storeParts_keeps (n a : Nat) (bs : List Byte) (s : State) : P (State.storeParts n a bs s) = P s := by
  induction n generalizing a bs s with
  | zero => rfl
  | succ n ih =>
    unfold State.storeParts
    split
    · rfl
    · exact (ih _ _ _).trans (storePart_keeps hoccur hstore hfm s ..)

include hoccur hevents hstore hfm in
theorem storeWrite_keeps (s : State) (a : Nat) (bs : List Byte) : P (s.storeWrite a bs) = P s :=
  (storeParts_keeps hoccur hstore hfm ..).trans (countLines_keeps_of hevents ..)

end

theorem storeRead_lanes (s : State) (a n : Nat) : (s.storeRead a n).2.lanes = s.lanes :=
  storeRead_keeps (P := State.lanes) occur_lanes (fun _ _ => rfl) (fun _ _ => rfl) (fun _ _ => rfl) s a n

theorem storeWrite_lanes (s : State) (a : Nat) (bs : List Byte) : (s.storeWrite a bs).lanes = s.lanes :=
  storeWrite_keeps (P := State.lanes) occur_lanes (fun _ _ => rfl) (fun _ _ => rfl) (fun _ _ => rfl) s a bs

theorem softFix_tile_lanes (s : State) (l : LaneNo) (a : Nat) : (s.softFix (.lane l) (.tile a)).lanes = s.lanes := by
  unfold State.softFix
  dsimp only
  split
  · exact occur_lanes ..
  · rfl

/-- A transfer of a lane moves tile memory and the store. -/
theorem xferMove_lanes (s : State) (l : LaneNo) (x : Xfer) : (s.xferMove (.lane l) x).lanes = s.lanes := by
  unfold State.xferMove
  dsimp only
  split
  · exact storeRead_lanes ..
  · exact (storeWrite_lanes ..).trans (forEach_eq_of_step State.lanes (fun _ t => softFix_tile_lanes t l _) _ _)

/-- A TILE.ST from words without single-bit errors writes them to the store. -/
theorem xferMove_store {s : State} {ag : Agent} {x : Xfer} (hx : x.load = false) (hs : (s.memOf ag (tilePlace ag x.loc)).2.2 = []) :
    s.xferMove ag x = s.storeWrite x.store (Mem.read (s.memOf ag (tilePlace ag x.loc)).1 x.loc (64 * x.units)) := by
  simp [State.xferMove, hx, hs]

/-! ### The issue of a transfer -/

/-- The lowest free tag. -/
theorem freeTag_eq {c : Ctx} {tag : Fin 4} (hfree : c.tags.get tag = none) (hlow : ∀ k, k < tag → c.tags.get k ≠ none) :
    freeTag c = some tag := by
  rw [freeTag, List.find?_eq_some_iff_getElem]
  refine ⟨by simp [hfree], tag.val, by simp [allFin], by simp [allFin], fun j hj => ?_⟩
  have hk := hlow ⟨j, hj.trans tag.isLt⟩ hj
  simpa [allFin, Option.isSome_iff_ne_none] using hk

theorem tileIssue_eq {s : State} {z : Zx} (h : s.mayExecute z) (load : Bool) (d a b : Reg) {x : Xfer} {tag : Fin 4}
    (hx : xferOf load ((s.cx z).get a) ((s.cx z).get b) = x) (hcause : (s.fetched z).tileCause z.agent x = none)
    (hmeets : (((s.fetched z).xfers z.agent).any fun v => v.meets x.loc (64 * x.units)) = false)
    (hbad : (s.fetched z).tileBadWord z.agent x = none) (htag : freeTag (s.cx z) = some tag) : s.tileIssue z load d a b =
      .next (s.stepCtx z fun c => ({ c with tags := c.tags.set tag (some x) } : Ctx).put d (wn tag.val)) := by
  unfold State.tileIssue
  simp only [zx_of_mayExecute _ h, hx, hcause, hmeets, hbad, htag, Bool.false_eq_true, if_false]
  rfl

/-! ### The completion of a lane's transfer -/

theorem afterTile_ready {c : Ctx} (h : c.block = .ready) (others : List Xfer) : c.afterTile others = c := by
  rw [Ctx.afterTile, h]

theorem exec_tileTransferComplete_ready {s : State} {l : LaneNo} {tag : Fin 4} {x : Xfer} (hheld : s.thermal.held = false)
    (htag : (s.lane l).ctx.tags.get tag = some x) (hready : (s.lane l).ctx.block = .ready) :
    exec (.tileTransferComplete (.lane l) 0 tag) s = .next ((s.xferMove (.lane l) x).modLane l fun y =>
      { y with ctx := { y.ctx with tags := y.ctx.tags.set tag none, latches := y.ctx.latches ||| (1 <<< (28 + tag.val) : W) } }) := by
  have hmoved : ((s.xferMove (.lane l) x).lane l).ctx.block = .ready := by
    rw [State.lane, xferMove_lanes]
    exact hready
  simp only [exec, execTileTransferComplete, hheld, htag, Bool.false_eq_true, if_false]
  rw [modLane_modLane]
  refine congrArg _ (modLane_congr _ _ ?_)
  rw [afterTile_ready]
  exact hmoved

theorem exec_tileInterlockStall_held {s : State} {l : LaneNo} {a n : Nat} (hheld : s.thermal.held = false)
    (hb : (s.lane l).ctx.block = .interlock a n) : exec (.tileInterlockStall l) s = .next ((s.count l.val 1024).occur (srcLane l 3)) := by
  simp [exec, execTileInterlockStall, hb, hheld]

end Sys2Proof.Machine
open Sys2Proof Sys2Proof.Machine

/-- Settles O20: a transfer is issued under the lowest free tag (`tileIssue_eq`, `freeTag_eq`), and completes with its move
(`exec_tileTransferComplete_ready`, `xferMove_store`). -/
theorem tileTransfersUseTags : Obligations.TileTransfersUseTags := by
  unfold Obligations.TileTransfersUseTags
  intro s z d a b tag l x loc n
  refine ⟨?issue, exec_tileTransferComplete_ready, xferMove_store, exec_tileInterlockStall_held⟩
  intro h u issues issued ld st
  have issue (load : Bool) (y : Xfer) (hy : xferOf load ((s.cx z).get a) ((s.cx z).get b) = y) (hi : issues y) :
      s.tileIssue z load d a b = issued y := by
    obtain ⟨hcause, hmeets, hbad, hfree, hlow⟩ := hi
    exact tileIssue_eq h load d a b hy hcause hmeets hbad (freeTag_eq hfree hlow)
  exact ⟨issue true ld rfl, issue false st rfl⟩
end

section
/-! SUPPORT. Invocations of a lane (R75, R158–R161, R291): how one starts. -/
namespace Sys2Proof.Machine

/-! ### The invocation registers -/

/-- g1 to g6 take the words in order. -/
theorem setRegs_eq (c : Ctx) (w1 w2 w3 w4 w5 w6 : W) :
    c.setRegs [w1, w2, w3, w4, w5, w6] = (((((c.put 1 w1).put 2 w2).put 3 w3).put 4 w4).put 5 w5).put 6 w6 := rfl

theorem setRegs_get (c : Ctx) (w1 w2 w3 w4 w5 w6 : W) :
    (c.setRegs [w1, w2, w3, w4, w5, w6]).get 1 = w1 ∧ (c.setRegs [w1, w2, w3, w4, w5, w6]).get 2 = w2 := by
  constructor <;> simp (disch := decide) only [setRegs_eq, get_put, get_put_ne]

/-! ### The start of an invocation -/

theorem invocGo_lane (s : State) (l : LaneNo) (v : Invoc) (first : Nat) : let t := s.invocGo l v first
    (t.lane l).invoc = some v ∧ (t.lane l).ctx.pc = wn (t.cluster (clusterOf l)).entry.toNat &&& 0xFFFFFFFC ∧
      (t.lane l).ctx.block = .ready ∧ (t.lane l).ctx.get 1 = wn v.row ∧ (t.lane l).ctx.get 2 = wn v.col := by
  intro t
  have hlane : t.lane l = _ := modLane_lane s l _
  obtain ⟨hrow, hcol⟩ := setRegs_get v.ctx0 (wn v.row) (wn v.col) (arrBase l 13 0) (arrBase l 14 0)
    (wn (elemAddr l 1 (placeOfRow 1 v.row) first v.col)) 0x1F00
  rw [hlane]
  exact ⟨rfl, rfl, rfl, hrow, hcol⟩

section
variable {s : State} (hup : s.up)
include hup

theorem exec_hearthInvocation {p : Port} {tail : Bool} {l : LaneNo} {row col : Nat} {fr : Frame} (hf : (s.port p).fr tail = some fr)
    (hm : s.mayInvoke p fr l row col = true) (whole : Bool) : exec (.hearthInvocation p tail l row col whole) s =
      let u := (s.kernelTake (clusterOf l)).constsPlace l p fr (fr.bandOf l) row
      .next (if whole then (((u.modLane l fun x => { x with ctx := x.ctx.setRegs (hearthRegs l row col (fr.bandOf l).first) }).groupRun
          p tail row col).count (96 + l.val) 1).clocksTake
        else u.invocStart l p tail fr row col) := by
  have hheld : s.thermal.held = false := hup
  simp only [exec, execHearthInvocation, hheld, hf, hm, Bool.not_true, Bool.false_eq_true, if_false]

theorem exec_invocationTimeout {l : LaneNo} (hi : (s.lane l).invoc.isSome = true) : exec (.invocationTimeout l) s =
    let t := s.detect (uLane l) 0xFE
    .next ((if (t.unit (uLane l)).st = 0 then t.dropInvoc l else t).settleUnit (uLane l)) := by
  have hheld : s.thermal.held = false := hup
  have hsome : (s.lane l).invoc.isNone = false := by rw [Option.isNone_eq_false_iff, hi]
  simp only [exec, execInvocationTimeout, hheld, hsome, Bool.false_eq_true, or_self, if_false]

end

end Sys2Proof.Machine
open Sys2Proof Sys2Proof.Machine

/-- Settles O43: an invocation is taken whole or started (`exec_hearthInvocation`, `invocGo_lane`). -/
theorem hearthInvocations : Obligations.HearthInvocations := by
  unfold Obligations.HearthInvocations
  intro s p tail l row col fr hup
  refine ⟨fun hf hm => ?_, exec_invocationTimeout hup, fun a n => exec_tileInterlockStall_held hup⟩
  have hexec := exec_hearthInvocation hup hf hm
  refine ⟨hexec true, _, hexec false, rfl, ?_⟩
  obtain ⟨hinvoc, hpc, hblock, hrow, hcol⟩ := invocGo_lane _ l _ _
  exact ⟨⟨_, hinvoc, rfl, rfl, rfl, rfl⟩, hpc, hblock, hrow, hcol⟩
end

section
/-! SUPPORT. POST and the services of fixed logic (R70, R71, R204, R301, R304, R425, R326): the immediate result, and what a service does
that is accepted. -/
namespace Sys2Proof.Machine

/-! ### The immediate result (R70) -/

section
variable {s : State} {e : Eng} (h : s.mayExecute ⟨.eng e, .none⟩) (d : Reg) {service : Nat} {res : Eng → Ctx → State → Nat}
  {act : Eng → Ctx → State → State}
include h

theorem svc_forbidden (hp : svcPermitted e service = false) : s.svc ⟨.eng e, .none⟩ d service res act =
    .next ((s.fetched ⟨.eng e, .none⟩).raise (.eng e) 7 0) := by
  unfold State.svc
  simp only [isEng, zx_of_mayExecute _ h, hp, Bool.not_false, if_true]

theorem svc_accepted (hp : svcPermitted e service = true) (hr : res e (s.cx ⟨.eng e, .none⟩) (s.fetched ⟨.eng e, .none⟩) = 0) :
    s.svc ⟨.eng e, .none⟩ d service res act =
      .next (act e (s.cx ⟨.eng e, .none⟩) (s.stepCtx ⟨.eng e, .none⟩ fun c => c.put d 0)) := by
  unfold State.svc
  simp only [isEng, zx_of_mayExecute _ h, hp, hr, Bool.not_true, Bool.false_eq_true, if_false, if_true]
  rfl

theorem svc_refused (hp : svcPermitted e service = true) (hr : res e (s.cx ⟨.eng e, .none⟩) (s.fetched ⟨.eng e, .none⟩) = 2) :
    s.svc ⟨.eng e, .none⟩ d service res act = .next ((s.stepCtx ⟨.eng e, .none⟩ fun c => c.put d 2).occur (srcEng e 2)) := by
  unfold State.svc
  simp only [isEng, zx_of_mayExecute _ h, hp, hr, Bool.not_true, Bool.false_eq_true, if_false]
  rfl

end

theorem svcPermitted_transit (e : Eng) : svcPermitted e 1 = (e.val == 0) := rfl

theorem svcPermitted_test {e : Eng} (h : e.val = 0 ∨ e.val = 5) : svcPermitted e 2 = true ∧ svcPermitted e 4 = true := by
  simpa [svcPermitted] using h

/-- The context that executes keeps its number when it goes on. -/
theorem stepCtx_run (s : State) (e : Eng) (f : Ctx → Ctx) :
    ((s.stepCtx ⟨.eng e, .none⟩ f).eng e).run = ((s.fetched ⟨.eng e, .none⟩).eng e).run := by
  show (((s.fetched ⟨.eng e, .none⟩).modEng e _).eng e).run = _
  rw [modEng_eng]

/-! ### A transit becomes due (R204) -/

theorem transitDue_new {s : State} {p : Port} (h : (s.transit.queue.any fun q => q.1 = p) = false) (req : Bool) :
    s.transitDue p req = s.modTransit fun t => { t with queue := t.queue ++ [(p, req)] } := by
  simp [State.transitDue, State.modTransit, h]

/-! ### Tests and retirements (R301, R304) -/

theorem modUnit_modUnit (s : State) (u : Fin 182) (f g : UnitS → UnitS) : (s.modUnit u f).modUnit u g = s.modUnit u fun x => g (f x) := by
  unfold State.modUnit State.modFm
  dsimp only
  rw [upd_upd]

theorem settleIdle_running {s : State} (h : s.anyRunning = true) : s.settleIdle = s := if_pos h

/-- A lane that no band is on begins its test at once. -/
theorem testPlace_lane {s : State} {u : Fin 182} (hu : u.val < 96) (hrot : s.needsRotation u = false) (r : Req) : s.testPlace u r =
    (s.modUnit u fun x => { x with st := 2, reqTest := some r, cause := 0xFF, byError := false }).modLane ⟨u.val, hu⟩ fun l =>
      { l with ctx := { l.ctx with tags := Vector.replicate 4 none } } := by
  have h108 : ¬(108 ≤ u.val ∧ u.val < 112) := by omega
  have h120 : ¬(120 ≤ u.val ∧ u.val < 128) := by omega
  have h134 : ¬134 ≤ u.val := by omega
  have hmod (t : State) : ¬(120 ≤ u.val ∧ u.val < 128 ∧ t.sextant.stopped = true) := by omega
  simp only [State.testPlace, hrot, Bool.false_eq_true, if_false, if_neg h108, dif_neg h120, dif_neg h134, State.testBegin, if_neg (hmod _),
    dif_pos hu, modUnit_modUnit]

/-- A modulator goes to state 4 alone. -/
theorem retirePlace_mod (s : State) {u : Fin 182} (h1 : 120 ≤ u.val) (r : Req) : s.retirePlace u r =
    s.modUnit u fun x => { x with st := 4, reqRetire := some r, cause := 0xFF, byError := false } := by
  have h96 : ¬u.val < 96 := by omega
  have h112 : ¬(112 ≤ u.val ∧ u.val < 120) := by omega
  rw [State.retirePlace, dif_neg h96, dif_neg h112]

/-- The fault manager but for the outcomes that wait. -/
def Fm.noOutcomes (m : Fm) : Fm := { m with outcomes := [] }

/-- The delivery of outcomes changes nothing of the fault manager but the outcomes that wait. -/
theorem fmDeliver_noOutcomes (s : State) : s.fmDeliver.fm.noOutcomes = s.fm.noOutcomes := by
  refine forEach_eq_of_step (fun t => t.fm.noOutcomes) (fun o t => ?_) s.fm.outcomes s
  dsimp only
  split
  · refine (forEach_eq_of_step (fun t => t.fm.noOutcomes) ?_ (allFin 4) _).trans rfl
    exact fun _ _ => rfl
  · rfl

theorem fmDeliver_keeps (s : State) (u : Fin 182) :
    s.fmDeliver.unit u = s.unit u ∧ s.fmDeliver.fm.permanent = s.fm.permanent ∧ s.fmDeliver.fm.fault = s.fm.fault := by
  have keeps {α : Type} (f : Fm → α) := congrArg f (fmDeliver_noOutcomes s)
  exact ⟨keeps fun m => m.units.get u, keeps Fm.permanent, keeps Fm.fault⟩

/-! ### Records (R425, R426) -/

theorem forEach_eq_self_of_mem {α : Type} {f : α → State → State} {s : State} {l : List α} (h : ∀ x ∈ l, f x s = s) :
    forEach l f s = s := by
  induction l with
  | nil => rfl
  | cons x r ih =>
    rw [forEach_cons, h x List.mem_cons_self]
    exact ih fun y hy => h y (List.mem_cons_of_mem x hy)

theorem softFix_eng_clean {s : State} {e : Eng} {q : Nat} (h : (s.eng e).dataSoft.contains (q / 4) = false) :
    s.softFix (.eng e) (.data q) = s := by
  simp only [State.softFix, State.memOf, Place.off, h, Bool.false_eq_true, if_false]

/-- A record that the queue has room for is queued and sent to the partner. -/
theorem queueRec_room {s : State} {r : Rec} (who : Option Req) (h : queuedBytes s.nv.queue + recSize r ≤ 4096) :
    s.queueRec r who = (s.modNv fun n => { n with queue := n.queue ++ [(r, who)] }).sendRecord r := by
  have hin : inQueue (s.nv.queue ++ [(r, who)]) ((s.nv.queue ++ [(r, who)]).length - 1) = true := by
    rw [inQueue, List.length_append, List.length_singleton, Nat.add_sub_cancel, List.take_of_length_le (by simp)]
    simpa [queuedBytes] using h
  rw [State.queueRec]
  simp only [hin, if_true]
  rfl

/-! ### The instructions -/

section
variable {s : State}

theorem exec_post_eng {e : Eng} (h : s.mayExecute ⟨.eng e, .none⟩) (imm : BitVec 18) : exec (.post ⟨.eng e, .none⟩ imm) s =
    .next (if 11 < imm.toNat then (s.fetched ⟨.eng e, .none⟩).raise (.eng e) 2 0
      else (s.stepCtx ⟨.eng e, .none⟩ id).occur (srcEng e (4 + imm.toNat))) := by
  simp only [exec, execPost, zx_of_mayExecute _ h]
  rfl

theorem exec_post_lane {l : LaneNo} (h : s.mayExecute ⟨.lane l, .none⟩) (imm : BitVec 18) : exec (.post ⟨.lane l, .none⟩ imm) s =
    .next (if 3 < imm.toNat then (s.fetched ⟨.lane l, .none⟩).raise (.lane l) 2 0
      else (s.stepCtx ⟨.lane l, .none⟩ id).occur (srcLane l (4 + imm.toNat))) := by
  simp only [exec, execPost, zx_of_mayExecute _ h]
  rfl

variable {e : Eng} (h : s.mayExecute ⟨.eng e, .none⟩) (d a : Reg)
include h

theorem exec_svcReadAgreedTime (ha : a = 0) : exec (.svcReadAgreedTime ⟨.eng e, .none⟩ d a) s =
    .next (s.stepCtx ⟨.eng e, .none⟩ fun c => c.put d (wn (s.fetched ⟨.eng e, .none⟩).agreed)) := by
  simp only [exec, execSvcReadAgreedTime, isEng, ha, if_true, zx_of_mayExecute _ h]
  rfl

/-- A transit of a port that does not wait becomes due as requested. -/
theorem exec_svcStartTransit_accepted {p : Port} (he : e.val = 0) (hx : ((s.cx ⟨.eng e, .none⟩).get a).toNat = p.val)
    (hr : (s.fetched ⟨.eng e, .none⟩).svcTransit ((s.cx ⟨.eng e, .none⟩).get a) = 0)
    (hq : ((s.fetched ⟨.eng e, .none⟩).transit.queue.any fun q => q.1 = p) = false) :
    exec (.svcStartTransit ⟨.eng e, .none⟩ d a) s = .next ((s.stepCtx ⟨.eng e, .none⟩ fun c => c.put d 0).modTransit fun t =>
      { t with waiters := t.waiters ++ [(((s.fetched ⟨.eng e, .none⟩).eng e).run, p)], queue := t.queue ++ [(p, true)] }) := by
  simp only [exec, execSvcStartTransit]
  rw [svc_accepted h d ((svcPermitted_transit e).trans (beq_iff_eq.mpr he)) hr]
  have hlt : ((s.cx ⟨.eng e, .none⟩).get a).toNat < 4 := hx ▸ p.isLt
  rw [dif_pos hlt, show (⟨((s.cx ⟨.eng e, .none⟩).get a).toNat, hlt⟩ : Port) = p from Fin.ext hx]
  refine congrArg _ ((transitDue_new ?_ true).trans ?_)
  · exact hq
  · rw [stepCtx_run]
    rfl

/-- The test of a lane that no band is on begins. -/
theorem exec_svcSelfTest_lane {u : Fin 182} (hu : u.val < 96) (he : e.val = 0 ∨ e.val = 5)
    (hs : uidSlot ((s.cx ⟨.eng e, .none⟩).get a) = some u)
    (hr : (s.fetched ⟨.eng e, .none⟩).svcTest ((s.cx ⟨.eng e, .none⟩).get a) = 0)
    (hrot : (s.fetched ⟨.eng e, .none⟩).needsRotation u = false) (hrun : (s.fetched ⟨.eng e, .none⟩).anyRunning = true) :
    exec (.svcSelfTest ⟨.eng e, .none⟩ d a) s = .next (((s.stepCtx ⟨.eng e, .none⟩ fun c => c.put d 0).modUnit u fun y =>
      { y with st := 2, reqTest := some ⟨e, ((s.fetched ⟨.eng e, .none⟩).eng e).run⟩, cause := 0xFF, byError := false }).modLane
        ⟨u.val, hu⟩ fun l => { l with ctx := { l.ctx with tags := Vector.replicate 4 none } }) := by
  have hrot' : (s.stepCtx ⟨.eng e, .none⟩ fun c => c.put d 0).needsRotation u = false := by
    rw [State.needsRotation, if_pos hu] at hrot ⊢
    exact hrot
  simp only [exec, execSvcSelfTest]
  rw [svc_accepted h d (svcPermitted_test he).1 hr, hs]
  dsimp only
  rw [testPlace_lane hu hrot', stepCtx_run]
  exact congrArg _ (settleIdle_running hrun)

/-- A modulator becomes pending for retirement. -/
theorem exec_svcRequestRetirement_mod {u : Fin 182} (hu : 120 ≤ u.val) (he : e.val = 0 ∨ e.val = 5)
    (hs : uidSlot ((s.cx ⟨.eng e, .none⟩).get a) = some u)
    (hr : (s.fetched ⟨.eng e, .none⟩).svcRetire ((s.cx ⟨.eng e, .none⟩).get a) = 0)
    (hrun : (s.fetched ⟨.eng e, .none⟩).anyRunning = true) :
    exec (.svcRequestRetirement ⟨.eng e, .none⟩ d a) s = .next (((s.stepCtx ⟨.eng e, .none⟩ fun c => c.put d 0).modUnit u fun y =>
      { y with st := 4, reqRetire := some ⟨e, ((s.fetched ⟨.eng e, .none⟩).eng e).run⟩, cause := 0xFF,
               byError := false }).fmPermanent).fmDeliver := by
  simp only [exec, execSvcRequestRetirement]
  rw [svc_accepted h d (svcPermitted_test he).2 hr, hs]
  dsimp only
  rw [retirePlace_mod _ hu, stepCtx_run]
  exact congrArg (fun t : State => Host.Outcome.next t.fmDeliver) (settleIdle_running hrun)

/-- A record that the engine's data memory holds whole, and that the queue has room for, is noted. -/
theorem exec_svcNoteRecord_accepted {x : Nat} {w : W} (hx : ((s.cx ⟨.eng e, .none⟩).get a).toNat = x)
    (hw : noteHeader ((s.fetched ⟨.eng e, .none⟩).eng e) e x = some w) (hr : (s.fetched ⟨.eng e, .none⟩).svcNote e x = 0)
    (hwords : ∀ q ∈ noteRange ((s.fetched ⟨.eng e, .none⟩).eng e) e x, (s.fetched ⟨.eng e, .none⟩).stalls (.eng e) (.data q) 4 = false ∧
      (s.fetched ⟨.eng e, .none⟩).wordBad (.eng e) (.data q) = false ∧
      ((s.fetched ⟨.eng e, .none⟩).eng e).dataSoft.contains (q / 4) = false) :
    exec (.svcNoteRecord ⟨.eng e, .none⟩ d a) s = .next (((s.stepCtx ⟨.eng e, .none⟩ fun c => c.put d 0).modNv fun n =>
      { n with queue := n.queue ++ [((s.fetched ⟨.eng e, .none⟩).noteRec e x w,
        some ⟨e, ((s.fetched ⟨.eng e, .none⟩).eng e).run⟩)] }).sendRecord ((s.fetched ⟨.eng e, .none⟩).noteRec e x w)) := by
  have hstalls : (noteRange ((s.fetched ⟨.eng e, .none⟩).eng e) e x).find? (fun q =>
      (s.fetched ⟨.eng e, .none⟩).stalls (.eng e) (.data q) 4) = none := List.find?_eq_none.mpr fun q hq => by simp [(hwords q hq).1]
  have hbad : (noteRange ((s.fetched ⟨.eng e, .none⟩).eng e) e x).find? (fun q =>
      (s.fetched ⟨.eng e, .none⟩).wordBad (.eng e) (.data q)) = none := List.find?_eq_none.mpr fun q hq => by simp [(hwords q hq).2.1]
  have hsoft : forEach (noteRange ((s.fetched ⟨.eng e, .none⟩).eng e) e x) (fun q t => t.softFix (.eng e) (.data q))
      (s.fetched ⟨.eng e, .none⟩) = s.fetched ⟨.eng e, .none⟩ :=
    forEach_eq_self_of_mem fun q hq => softFix_eng_clean (hwords q hq).2.2
  have hroom : queuedBytes (s.fetched ⟨.eng e, .none⟩).nv.queue + recSize ((s.fetched ⟨.eng e, .none⟩).noteRec e x w) ≤ 4096 := by
    rw [State.svcNote, hw] at hr
    by_contra hfull
    exact absurd hr (by simp [Nat.lt_of_not_le hfull])
  simp only [exec, execSvcNoteRecord, zx_of_mayExecute _ h, hx, hstalls, hbad, hsoft, hr, hw]
  exact congrArg _ (queueRec_room _ hroom)

end

end Sys2Proof.Machine
open Sys2Proof Sys2Proof.Machine

/-- Settles O21: POST (`exec_post_eng`, `exec_post_lane`), and each service that is refused, forbidden or accepted. -/
theorem servicesAndPosts : Obligations.ServicesAndPosts := by
  unfold Obligations.ServicesAndPosts
  refine ⟨?post, ?services⟩
  case post =>
    rintro s ⟨ag, flaw⟩ imm h
    obtain ⟨-, -, -, hf⟩ := id h
    obtain rfl : flaw = .none := hf
    refine ⟨?_, ?_, fun hlarge => ?_⟩
    · rintro e rfl hle
      exact (exec_post_eng h imm).trans (congrArg _ (if_neg (Nat.not_lt.mpr hle)))
    · rintro l rfl hle
      exact (exec_post_lane h imm).trans (congrArg _ (if_neg (Nat.not_lt.mpr hle)))
    · cases ag with
      | eng e => exact (exec_post_eng h imm).trans (congrArg _ (if_pos (hlarge.resolve_right fun hl => nomatch hl.1)))
      | lane l => exact (exec_post_lane h imm).trans (congrArg _ (if_pos (hlarge.elim (Nat.lt_trans (by decide)) And.right)))
  case services =>
    intro s e d a u p h z v x hm
    refine ⟨fun he hr => ?_, exec_svcStartTransit_accepted hm d a, fun he => ?_, fun hu => exec_svcSelfTest_lane hm d a hu,
      fun he hs hlo _ hr hrun => ⟨_, exec_svcRequestRetirement_mod hm d a hlo he hs hr hrun, rfl, ?_⟩,
      exec_svcNoteRecord_accepted hm d a rfl, exec_svcReadAgreedTime hm d a⟩
    · simp only [exec, execSvcStartTransit]
      exact svc_refused hm d ((svcPermitted_transit e).trans (beq_iff_eq.mpr he)) hr
    · simp only [exec, execSvcStartTransit]
      exact svc_forbidden hm d ((svcPermitted_transit e).trans (beq_eq_false_iff_ne.mpr he))
    · obtain ⟨hunit, hpermanent, hfault⟩ := fmDeliver_keeps _ u
      rw [hunit, hpermanent, hfault]
      exact ⟨congrArg UnitS.st (modUnit_unit ..), rfl, rfl⟩
end

section
/-! SUPPORT. Write frames of an idle host port (R402, R403), the requests of LOAD_CTL and the load window (R82, R83, R94, R96), and the start
of an engine (R44, R45). -/
namespace Sys2Proof.Machine

/-! ### Write frames at an idle host port (R402, R403) -/

theorem hostBegin_of_idle {s : State} (h : s.hostIdle) :
    s.hostBegin = s.modSerial fun x => { x with statusOut := s.statusByte, wordsOut := [], xipWait := [], frameWait := none } := by
  obtain ⟨-, -, -, hend⟩ := h
  simp only [State.hostBegin, State.readClose, hend]

theorem framed_of_idle {s : State} (h : s.hostIdle) : s.framed =
    s.modSerial fun x => { x with statusOut := s.statusByte, wordsOut := [], xipWait := [], frameWait := none, rej := false } := by
  rw [State.framed, hostBegin_of_idle h]
  rfl

theorem ahead_of_empty {s : State} (h : s.serial.bufs = []) : s.ahead = s := by
  rw [State.ahead, h]
  rfl

theorem hostDrain_of_empty {s : State} (h : s.serial.bufs = []) : s.hostDrain = s := by
  rw [State.hostDrain, h]
  rfl

theorem regionOf_queue {a : Nat} (hlo : 0x1000 ≤ a) (hhi : a < 0x2000) : regionOf a = some .queue := by
  have h : ¬ a < 0x1000 := Nat.not_lt.mpr hlo
  simp [regionOf, regions, h, hlo, hhi]

theorem regionOf_load {a : Nat} (hlo : 0x10000 ≤ a) (hhi : a < 0x20000) : regionOf a = some .load := by
  have h1 : ¬ a < 0x1000 := by omega
  have h2 : ¬ a < 0x2000 := by omega
  simp [regionOf, regions, h1, h2, hlo, hhi]

/-- The oldest frame is the only one that waits, and it need not wait longer. -/
theorem hostDrain_one {s : State} {f : W × List W} (h : s.serial.bufs = [f]) (hn : inNvWin f.1.toNat = false)
    (hp : inNvPwin f.1.toNat = false) : s.hostDrain = (s.modSerial fun x => { x with bufs := [] }).hostApply f.1.toNat f.2 := by
  rw [State.hostDrain, h]
  show s.hostApplyOne = _
  simp [State.hostApplyOne, h, State.hostBlocked, hn, hp]

/-- A frame that nothing rejects is applied at once by an idle host port, outside the windows of the NV store. -/
theorem hostWrite_of_admitted {s : State} (h : s.hostIdle) {a : Nat} {ws : List W} (ha : a < 2 ^ 32) (hn : inNvWin a = false)
    (hp : inNvPwin a = false) (hw : ws ≠ []) (hc : s.hostBegin.writeCause a ws .whole = none) :
    s.hostWrite a ws = s.framed.hostApply a ws := by
  have hbegin := hostBegin_of_idle h
  obtain ⟨hup, -, hbufs, -⟩ := h
  have hempty : s.hostBegin.serial.bufs = [] := by rw [hbegin]; exact hbufs
  have hframed : s.framed.serial.bufs = [] := hempty
  have hwn : (wn a).toNat = a := (BitVec.toNat_ofNat ..).trans (Nat.mod_eq_of_lt ha)
  have htake : s.hostBegin.hostTake (wn a) ws .whole = s.framed.modSerial fun x => { x with bufs := [(wn a, ws)] } := by
    rw [State.hostTake, if_neg (by simp [hempty]), State.hostJudge, hwn, hc]
    show (if ws = [] then _ else _) = _
    rw [if_neg hw]
    show (s.framed.modSerial fun x => { x with bufs := s.framed.serial.bufs ++ [(wn a, ws)] }) = _
    rw [hframed]
    rfl
  have hback : ((s.framed.modSerial fun x => { x with bufs := [(wn a, ws)] }).modSerial fun x => { x with bufs := [] }) = s.framed := by
    show (s.framed.modSerial fun x => { x with bufs := [] }) = _
    rw [← hframed]
    rfl
  rw [State.hostWrite, if_neg (by simp [hup]), hostDrain_of_empty hempty, htake, hostDrain_one (f := (wn a, ws)) rfl, hback]
  all_goals rw [hwn]
  all_goals assumption

/-- The judgement of a whole frame of words that lies in one region, or in a window that wraps (R402). -/
theorem writeCause_none {s : State} {a : Nat} {ws : List W} {r : Region} (hb : s.serial.bufs = []) (hr : s.hostReady = true)
    (h4 : a % 4 = 0) (hw : ws ≠ []) (hlen : ws.length ≤ 1024) (hreg : regionOf a = some r)
    (hall : inSubmit a = false → ∀ x ∈ wordAddrs a ws.length, regionOf x = some r) (hown : s.ownerRejects a ws = false) :
    s.writeCause a ws .whole = none := by
  simp [State.writeCause, hw, h4, Nat.not_lt.mpr hlen, hreg, ahead_of_empty hb, hown, hr]
  exact fun hsub _ _ => hall hsub

/-! ### The registers of the queue and the loader (R94, R110) -/

/-- A frame of one word in the queue's region, outside the submit window, writes that word. -/
theorem hostWrite_queueWord {s : State} (h : s.hostIdle) {a : Nat} (hlo : 0x1410 ≤ a) (hhi : a < 0x2000) (h4 : a % 4 = 0) (w : W) :
    s.hostWrite a [w] = s.framed.hostSet a w := by
  have hreg : regionOf a = some .queue := regionOf_queue (by omega) hhi
  have hsub : inSubmit a = false := by simp [inSubmit]; omega
  have hn : inNvWin a = false := by simp [inNvWin]; omega
  have hp : inNvPwin a = false := by simp [inNvPwin]; omega
  have hbegin := hostBegin_of_idle h
  rw [hostWrite_of_admitted h (by omega) hn hp (List.cons_ne_nil w [])]
  · simp [State.hostApply, hsub, hn, hp, hreg, State.hostSets, show a ≠ 0x28110 by omega, show a ≠ 0x28120 by omega]
  · obtain ⟨-, hready, hbufs, -⟩ := h
    refine writeCause_none (by rw [hbegin]; exact hbufs) (by rw [hbegin]; exact hready) h4 (List.cons_ne_nil w []) (by simp) hreg ?_ ?_
    · simp [wordAddrs, hreg]
    · simp [State.ownerRejects, hreg, hsub]

/-- A write of LOAD_CTL is a request: the upper digit its kind, the lower one the engine's code (R94). -/
theorem hostWrite_loadCtl {s : State} (h : s.hostIdle) (w : W) : s.hostWrite 0x1C04 [w] = s.framed.loadCtl w :=
  hostWrite_queueWord h (by decide) (by decide) (by decide) w

/-- The two digits of a request for the engine of a code. -/
theorem loadCtl_digits (k : Nat) (hk : k < 16) (code : Fin 16) : fld (wn (16 * k + code.val)) 7 4 = k ∧
    (⟨fld (wn (16 * k + code.val)) 3 0 % 16, Nat.mod_lt _ (by decide)⟩ : Fin 16) = code := by
  simp [fld, wn, Fin.ext_iff]
  omega

theorem exec_go {s : State} (h : s.hostIdle) : exec .go s = .next s.framed.loadGo :=
  congrArg Host.Outcome.next (hostWrite_loadCtl h 0x10)

theorem exec_startEngine {s : State} (h : s.hostIdle) (code : Fin 16) : exec (.startEngine code) s = .next (s.framed.startReq code) := by
  obtain ⟨hkind, hcode⟩ := loadCtl_digits 2 (by decide) code
  refine congrArg Host.Outcome.next ((hostWrite_loadCtl h _).trans ?_)
  simp only [State.loadCtl, hkind, hcode]

theorem exec_stopEngine {s : State} (h : s.hostIdle) (code : Fin 16) : exec (.stopEngine code) s = .next (s.framed.stopReq code) := by
  obtain ⟨hkind, hcode⟩ := loadCtl_digits 3 (by decide) code
  refine congrArg Host.Outcome.next ((hostWrite_loadCtl h _).trans ?_)
  simp only [State.loadCtl, hkind, hcode]

theorem exec_abortStop {s : State} (h : s.hostIdle) (code : Fin 16) : exec (.abortStop code) s = .next (s.framed.abortReq code) := by
  obtain ⟨hkind, hcode⟩ := loadCtl_digits 4 (by decide) code
  refine congrArg Host.Outcome.next ((hostWrite_loadCtl h _).trans ?_)
  simp only [State.loadCtl, hkind, hcode]

/-! ### What reports leave as it is -/

/-- `P` says nothing of what reports, counts and the correction of memory errors change. -/
structure Quiet {β : Type} (P : State → β) : Prop where
  occur : ∀ s n, P (State.occur s n) = P s
  nv : ∀ s f, P (State.modNv s f) = P s
  twin : ∀ s f, P (State.modTwin s f) = P s
  events : ∀ s f, P (State.modEvents s f) = P s
  store : ∀ s f, P (State.modStore s f) = P s
  fm : ∀ s f, P (State.modFm s f) = P s
  soft : ∀ (s : State) e (f : Engine → List Nat), P (s.modEng e fun en => { en with dataSoft := f en }) = P s

/-- A part of an engine that holds neither its contexts nor its single-bit errors. -/
theorem quiet_eng {β : Type} (e : Eng) (f : Engine → β) (hctxs : ∀ en y, f { en with ctxs := y } = f en)
    (hsoft : ∀ en y, f { en with dataSoft := y } = f en) : Quiet fun s => f (s.eng e) where
  occur s n := by
    rw [occur_eng]
    exact hctxs ..
  nv _ _ := rfl
  twin _ _ := rfl
  events _ _ := rfl
  store _ _ := rfl
  fm _ _ := rfl
  soft s d g := by
    by_cases h : e = d
    · subst h
      rw [modEng_eng]
      exact hsoft ..
    · rw [modEng_eng_ne _ _ _ _ h]

section
variable {β : Type} {P : State → β} (hq : Quiet P)
include hq

theorem Quiet.dataFix (s : State) (e : Eng) (a n : Nat) : P (s.dataFix e a n) = P s := by
  unfold State.dataFix
  extract_lets hit soft
  split
  · rfl
  · exact (forEach_eq_of_step P (fun _ t => hq.occur t _) _ _).trans (hq.soft ..)

end

/-! ### The start of an engine (R44, R45, R82) -/

theorem quiet_entryOf (e : Eng) (c : Fin 4) : Quiet fun s => entryOf e (s.eng e) c :=
  quiet_eng e (fun en => entryOf e en c) (fun _ _ => rfl) fun _ _ => rfl

/-- The CE's queue and completions, where it starts again, leave its contexts alone (R111). -/
theorem ceRestart_ctxs (s : State) (e : Eng) : (s.ceRestart.eng e).ctxs = (s.eng e).ctxs := by
  by_cases h : e = engCE
  · subst h
    simp only [State.ceRestart, modEng_eng]
    rfl
  · simp only [State.ceRestart, modEng_eng_ne _ _ _ _ h]
    rfl

/-- A reset puts each context at its entry point, everything else of it zero (R45). -/
theorem engReset_ctx (s : State) (e : Eng) (c : Fin 4) :
    ((s.engReset e).eng e).ctxs.get c = { Ctx.zero with pc := entryOf e (s.eng e) c } := by
  unfold State.engReset
  extract_lets fixed checked zero reset detached
  have hentry : entryOf e (checked.eng e) c = entryOf e (s.eng e) c := by
    have hfix := (quiet_entryOf e c).dataFix
    unfold checked
    split
    · exact hfix ..
    · exact (hfix ..).trans (hfix ..)
  have hreset : (reset.eng e).ctxs.get c = { Ctx.zero with pc := entryOf e (s.eng e) c } := by
    unfold reset
    rw [modEng_eng]
    refine (updAll_get ..).trans ?_
    rw [← hentry]
    split <;> rfl
  have hdetached : detached.eng e = reset.eng e := by
    unfold detached
    split <;> rfl
  split
  · rw [ceRestart_ctxs, hdetached, hreset]
  · rw [hdetached, hreset]

theorem engStart_eng (s : State) (e : Eng) : ((s.engStart e).eng e).st = 1 ∧ ∀ c, (((s.engStart e).eng e).ctxs.get c).pc =
    entryOf e (s.eng e) c ∧ (((s.engStart e).eng e).ctxs.get c).block = .ready := by
  rw [State.engStart, modEng_eng]
  refine ⟨rfl, fun c => ?_⟩
  rw [engReset_ctx]
  exact ⟨rfl, rfl⟩

/-! ### Requests to an engine that a code names (R82, R83) -/

section
variable {s : State} {code : Fin 16} {e : Eng} (hc : cepsOf code = some e)
include hc

theorem startReq_of_stopped (hst : (s.eng e).st = 3 ∨ (s.eng e).st = 4) (hr : s.engRetired e = false) :
    s.startReq code = s.engStart e := by
  simp only [State.startReq, hc]
  exact if_pos ⟨hst, by simp [hr]⟩

theorem stopReq_of_running (hst : (s.eng e).st = 1) (hrun : s.anyRunning = true) :
    s.stopReq code = s.modEng e fun en => { en with st := 2, stopDue := false } := by
  simp only [State.stopReq, hc]
  rw [if_pos hst]
  exact if_pos hrun

theorem abortReq_of_running (hst : (s.eng e).st = 1 ∨ (s.eng e).st = 2) : s.abortReq code = (s.modEng e fun en =>
    { en with st := 3, stopDue := false, out := [],
              ctxs := updAll en.ctxs fun _ c => { c with tags := Vector.replicate 4 none } }).count (210 + e.val)
      ((s.eng e).out.length + (s.xfers (.eng e)).length) := by
  simp only [State.abortReq, hc]
  exact if_pos hst

end

@[simp] theorem count_eng (s : State) (i n : Nat) (d : Eng) : (s.count i n).eng d = s.eng d := rfl

/-! ### The load window (R96) -/

/-- A word through the window lands in the data memory of the engine that LOAD_SEL names. -/
theorem loadPuts_word {s : State} {off : Nat} (w : W) {e : Eng} {base size : Nat} (hmap : s.loadMap = some (.eng e true base size))
    (hfit : base + off + 4 ≤ size) : s.loadPuts off [w] = s.modEng e fun en =>
      { en with data := Mem.setWord en.data (base + off) w, dataBad := freshWords en.dataBad (base + off) 4,
                dataSoft := freshWords en.dataSoft (base + off) 4 } := by
  have hput : s.loadPuts off [w] = s.loadPut off w := by
    simp only [State.loadPuts, hmap]
    rfl
  rw [hput]
  simp only [State.loadPut, hmap, if_true]
  exact if_neg (Nat.not_lt.mpr hfit)

/-- A frame of one word in the load window, where the window admits it, goes through the window. -/
theorem hostWrite_loadWord {s : State} (h : s.hostIdle) {off : Nat} (hoff : off < 0x10000) (h4 : off % 4 = 0) (w : W)
    (hadm : s.loadAdmits = true) : s.hostWrite (0x10000 + off) [w] = s.framed.loadPuts off [w] := by
  have hreg : regionOf (0x10000 + off) = some .load := regionOf_load (by omega) (by omega)
  have hsub : inSubmit (0x10000 + off) = false := by simp [inSubmit]; omega
  have hn : inNvWin (0x10000 + off) = false := by simp [inNvWin]; omega
  have hp : inNvPwin (0x10000 + off) = false := by simp [inNvPwin]; omega
  have hbegin := hostBegin_of_idle h
  rw [hostWrite_of_admitted h (by omega) hn hp (List.cons_ne_nil w [])]
  · simp [State.hostApply, hsub, hn, hp, hreg, show 0x10000 + off ≠ 0x28110 by omega, show 0x10000 + off ≠ 0x28120 by omega]
  · obtain ⟨-, hready, hbufs, -⟩ := h
    refine writeCause_none (by rw [hbegin]; exact hbufs) (by rw [hbegin]; exact hready) (by omega) (List.cons_ne_nil w []) (by simp)
      hreg ?_ ?_
    · simp [wordAddrs, hreg]
    · have hadm' : s.hostBegin.loadAdmits = true := by rw [hbegin]; exact hadm
      simp [State.ownerRejects, hreg, hadm']

end Sys2Proof.Machine
open Sys2Proof Sys2Proof.Machine

/-- Settles O27: GO and the requests of LOAD_CTL as writes of an idle host port (`hostWrite_loadCtl`), the start of an engine
(`engStart_eng`) and a word through the load window (`hostWrite_loadWord`, `loadPuts_word`). -/
theorem loadsIntoEngines : Obligations.LoadsIntoEngines := by
  unfold Obligations.LoadsIntoEngines
  refine ⟨fun s code e h hc => ?requests, fun s off w e base size h hmap hadm h4 hfit => ?window⟩
  case requests =>
    intro u
    have hgo : exec .go s = .next u.loadGo := exec_go h
    have hstart : exec (.startEngine code) s = .next (u.startReq code) := exec_startEngine h code
    have hstop : exec (.stopEngine code) s = .next (u.stopReq code) := exec_stopEngine h code
    have habort : exec (.abortStop code) s = .next (u.abortReq code) := exec_abortStop h code
    have hu : u = s.modSerial _ := framed_of_idle h
    clear_value u
    subst hu
    refine ⟨fun hb hboot => ?_, fun hb => ?_, fun hst hr => ?_, fun hst hrun => ?_, fun hst => ?_⟩
    · exact hgo.trans (congrArg _ ((if_neg (ne_true_of_eq_false hb)).trans (if_pos hboot)))
    · exact hgo.trans (congrArg _ (if_pos hb))
    · exact ⟨_, hstart.trans (congrArg _ (startReq_of_stopped hc hst hr)), rfl, engStart_eng _ e⟩
    · exact hstop.trans (congrArg _ (stopReq_of_running hc hst hrun))
    · refine ⟨_, habort.trans (congrArg _ (abortReq_of_running hc hst)), rfl, ?_⟩
      rw [count_eng, modEng_eng]
      refine ⟨rfl, rfl, fun c k => ?_, rfl, rfl, fun d hd => ?_⟩
      · rw [updAll_get, Vector.get_replicate]
      · rw [count_eng, modEng_eng_ne _ _ _ _ hd]
  case window =>
    have hmap' : s.framed.loadMap = some (.eng e true base size) := by rw [framed_of_idle h]; exact hmap
    exact congrArg Host.Outcome.next ((hostWrite_loadWord h off.isLt h4 w hadm).trans (loadPuts_word w hmap' hfit))
end

section
/-! SUPPORT. The command queue and the completion ring (R107, R108, R110). -/
namespace Sys2Proof.Machine

/-- An entry of four words through the submit window, where the queue has room, joins the queue (R107). -/
theorem exec_cmdSubmit_entry {s : State} (h : s.hostIdle) {a : W} (h16 : a.toNat % 16 = 0) (hroom : s.queue.entries.length < 64)
    (w0 w1 w2 w3 : W) : exec (.cmdSubmit a [w0, w1, w2, w3]) s = .next (s.framed.modQueue fun q =>
      { q with entries := q.entries ++ [[w0, w1, w2, w3]], accepted := q.accepted + 1 }) := by
  have hbegin := hostBegin_of_idle h
  have hwrite : s.hostWrite 0x1400 [w0, w1, w2, w3] = s.framed.submitPut [w0, w1, w2, w3] := by
    refine hostWrite_of_admitted h (by decide) rfl rfl (List.cons_ne_nil w0 [w1, w2, w3]) ?_
    obtain ⟨-, hready, hbufs, -⟩ := h
    have hbufs' : s.hostBegin.serial.bufs = [] := by rw [hbegin]; exact hbufs
    have hqueue : s.hostBegin.queue = s.queue := by rw [hbegin]; rfl
    have hcause : s.hostBegin.submitCause [w0, w1, w2, w3] = none := by
      simp [State.submitCause, State.bufferedEntries, hbufs', hqueue]
      omega
    refine writeCause_none hbufs' (by rw [hbegin]; exact hready) rfl (List.cons_ne_nil w0 [w1, w2, w3]) (by simp) (r := .queue) rfl ?_ ?_
    · exact fun hsub => absurd hsub (by decide)
    · simp [State.ownerRejects, hcause, show regionOf 0x1400 = some .queue from rfl]
  show Host.Outcome.next (s.hostWrite (0x1400 + a.toNat % 16) _) = _
  rw [h16, hwrite]
  simp [State.submitPut, entriesOf]

/-- A write of CPL_CI (R110). -/
theorem exec_cplCiWrite {s : State} (h : s.hostIdle) (v : W) : exec (.cplCiWrite v) s = .next (s.framed.cplCi v) :=
  congrArg Host.Outcome.next (hostWrite_queueWord h (by decide) (by decide) (by decide) v)

/-- The oldest entry feeds channel 15 of the CE (R107). -/
theorem exec_cmdEntryDeliver_room {s : State} {q : List W} {r : List (List W)} (hup : s.up) (hq : s.queue.entries = q :: r)
    (hg : s.queue.given < 4) (hroom : s.chanRoom engCE 15 = true) : exec .cmdEntryDeliver s =
      .next ((s.chanPut engCE 15 (nthW q s.queue.given)).modQueue fun q => { q with given := q.given + 1 }) := by
  have hheld : s.thermal.held = false := hup
  simp only [exec, execCmdEntryDeliver, hheld, hq, hg, hroom, and_self, if_true, Bool.false_eq_true, if_false]

/-- The oldest completion enters the ring (R108). -/
theorem exec_completionPlace_room {s : State} {q : List W} {r : List (List W)} (hup : s.up) (hq : s.queue.waiting = q :: r)
    (hfull : s.queue.ringFull = false) (hst : (s.eng engCE).st = 1) : exec .completionPlace s =
      .next ((s.modQueue fun x =>
        { x with waiting := r, ring := insertN x.ring (x.pi.toNat % 64) q, pi := x.pi + 1 }).occur (srcSerial 0)) := by
  have hheld : s.thermal.held = false := hup
  simp only [exec, execCompletionPlace, hheld, hq, hfull, Bool.false_eq_true, if_false]
  refine congrArg _ (stopSettle_running ?_)
  rw [occur_eng]
  exact hst

end Sys2Proof.Machine
open Sys2Proof Sys2Proof.Machine

/-- Settles O28: frames of the queue's region as writes of an idle host port (`hostWrite_of_admitted`, `hostWrite_queueWord`), and the two
ends of the queue (`exec_cmdEntryDeliver_room`, `exec_completionPlace_room`). -/
theorem queueAndRing : Obligations.QueueAndRing := by
  unfold Obligations.QueueAndRing
  intro s a w0 w1 w2 w3 v q r
  refine ⟨fun h hroom h16 => exec_cmdSubmit_entry h h16 hroom w0 w1 w2 w3, exec_cmdEntryDeliver_room, exec_completionPlace_room,
    fun h => ?index⟩
  case index =>
    rw [exec_cplCiWrite h, framed_of_idle h]
    have hfld : fld v 6 0 = v.toNat % 128 := by simp [fld]
    rw [State.cplCi, hfld]
    exact ⟨fun hle => congrArg _ (if_pos hle), fun hnot => congrArg _ (if_neg hnot)⟩
end

section
/-! SUPPORT. Class I blocks at their units' idle points (R100, R103, R200, R338, R347, R364, R414): what each unit waits for, and that a copy
takes effect whole or is refused whole. -/
namespace Sys2Proof.Machine

/-! ### A copy that may take effect -/

section
variable (s : State) (b : Nat) (c : PMap)

/-- The copies of parameters once a copy of the block is settled: it is no longer pending. -/
def State.settledParams : Params :=
  if lookupN s.params.pending b = some c then
    { s.params with pending := eraseN s.params.pending b, streamTie := eraseN s.params.streamTie b }
  else s.params

/-- The state in which a copy has taken effect: in force, with one more commit generation. -/
def State.adopted : State :=
  { s with
    params := { s.settledParams b c with
      force := s.params.force.setBlock b c, gens := insertN s.params.gens b (getN s.params.gens b 0 + 1) }
    twin := { s.twin with agreedI := eraseN s.twin.agreedI b } }

/-- The state in which a copy has been refused: its block, the count and the failing field shown. -/
def State.refusedCopy (i : Nat) : State :=
  { s with
    params := { s.settledParams b c with lastRefused := wn b, lastIndex := wn i, refusals := satAdd s.params.refusals 1 }
    twin := { s.twin with agreedI := eraseN s.twin.agreedI b } }.noteRefused b i

end

section
variable {s : State} {b : Nat} {c : PMap} (hr : s.readyI b = some c) (after : PMap → State → State)
include hr

/-- What comes of a copy that may take effect is its check's to say. -/
theorem applyI_of_ready : s.applyI b after =
    match checkBlock s.chkEnv (s.params.force.setBlock b c) s.params.force b with
    | some i => s.refusedCopy b c i
    | none => after s.params.force (s.adopted b c) := by
  unfold State.applyI
  rw [hr]
  by_cases hp : lookupN s.params.pending b = some c
  · simp only [hp, if_true, State.refusedCopy, State.adopted, State.settledParams]
    rfl
  · simp only [hp, if_false, State.refusedCopy, State.adopted, State.settledParams]
    rfl

/-- A sound copy takes effect whole. -/
theorem applyI_of_sound (hc : checkBlock s.chkEnv (s.params.force.setBlock b c) s.params.force b = none) :
    s.applyI b after = after s.params.force (s.adopted b c) := by
  rw [applyI_of_ready hr, hc]

/-- A copy that fails its check is refused whole. -/
theorem applyI_of_bad {i : Nat} (hc : checkBlock s.chkEnv (s.params.force.setBlock b c) s.params.force b = some i) :
    s.applyI b after = s.refusedCopy b c i := by
  rw [applyI_of_ready hr, hc]

end

/-! ### Idle points -/

/-- The unit of a class I block is at its idle point (R100, R200, R338, R347, R364, R414). -/
def State.idlePoint (s : State) (b : Nat) : Prop :=
  (b = 1 ∧ s.anyRunning = false ∧ s.transitIdle = true) ∨ (b = 2 ∧ s.twinAtOnce = true) ∨
    (∃ k : Fin 8, b = 0x1C0 + k.val ∧ bitOf (sxCtl s.params.force k) 0 = false) ∨ b = 0x1C8 ∨ b = 0x1C9 ∨
    (∃ k : Fin 8, b = 0x1D0 + k.val) ∨ (b = 0x1E0 ∧ s.serial.mp1 = none)

section
variable (s : State) {b : Nat}

theorem applyIdle_transit (hb : b = 1) (period : Bool) : s.applyIdle b period =
    if s.anyRunning then s else if s.transitIdle then s.applyI b fun _ s => s.transitBlock else s := by
  subst hb
  rfl

theorem applyIdle_twin (hb : b = 2) (period : Bool) : s.applyIdle b period =
    if s.twinAtOnce then s.applyI b fun o s => s.twinBlock o else s := by
  subst hb
  rfl

theorem applyIdle_modulator {k : Fin 8} (hb : b = 0x1C0 + k.val) (period : Bool) : s.applyIdle b period =
    if bitOf (sxCtl s.params.force k) 0 then s else s.applyI b fun o s => s.sxBlock k o := by
  have hk : (⟨b - 0x1C0, by omega⟩ : Fin 8) = k := Fin.ext (Nat.sub_eq_of_eq_add' hb)
  rw [State.applyIdle, if_neg (by omega), if_neg (by omega), dif_pos (by omega)]
  simp only [hk]

theorem applyIdle_table (hb : b = 0x1C8 ∨ b = 0x1C9) (period : Bool) : s.applyIdle b period = s.applyI b fun _ s => s := by
  rcases hb with rfl | rfl <;> rfl

theorem applyIdle_channel {k : Fin 8} (hb : b = 0x1D0 + k.val) : s.applyIdle b true = s.applyI b fun o s => s.blwBlock k o := by
  have hk : (⟨b - 0x1D0, by omega⟩ : Fin 8) = k := Fin.ext (Nat.sub_eq_of_eq_add' hb)
  rw [State.applyIdle, if_neg (by omega), if_neg (by omega), dif_neg (by omega), if_neg (by omega), dif_pos (by omega)]
  simp only [hk, Bool.true_or, if_true]

theorem applyIdle_master (hb : b = 0x1E0) (period : Bool) : s.applyIdle b period =
    if s.serial.mp1.isNone then s.applyI b fun _ s => s else s := by
  subst hb
  rfl

/-- The condition that belongs to the number of a block. -/
theorem idlePoint_conditions (h : s.idlePoint b) : (b = 1 → s.anyRunning = false ∧ s.transitIdle = true) ∧
    (b = 2 → s.twinAtOnce = true) ∧ (∀ k : Fin 8, b = 0x1C0 + k.val → bitOf (sxCtl s.params.force k) 0 = false) ∧
    (b = 0x1E0 → s.serial.mp1 = none) := by
  unfold State.idlePoint at h
  refine ⟨?_, ?_, ?_, ?_⟩
  all_goals grind

/-- At its idle point a unit settles the copy of its block. -/
theorem applyIdle_of_idlePoint (h : s.idlePoint b) :
    (b = 1 → s.applyIdle b true = s.applyI b fun _ s => s.transitBlock) ∧
    (b = 2 → s.applyIdle b true = s.applyI b fun o s => s.twinBlock o) ∧
    (∀ k : Fin 8, b = 0x1C0 + k.val → s.applyIdle b true = s.applyI b fun o s => s.sxBlock k o) ∧
    (b = 0x1C8 ∨ b = 0x1C9 ∨ b = 0x1E0 → s.applyIdle b true = s.applyI b fun _ s => s) ∧
    (∀ k : Fin 8, b = 0x1D0 + k.val → s.applyIdle b true = s.applyI b fun o s => s.blwBlock k o) := by
  obtain ⟨htransit, htwin, hmod, hmp⟩ := idlePoint_conditions s h
  refine ⟨fun hb => ?_, fun hb => ?_, fun k hb => ?_, fun hb => ?_, fun k hb => applyIdle_channel s hb⟩
  · obtain ⟨hrun, hidle⟩ := htransit hb
    rw [applyIdle_transit s hb, if_neg (ne_true_of_eq_false hrun), if_pos hidle]
  · rw [applyIdle_twin s hb, if_pos (htwin hb)]
  · rw [applyIdle_modulator s hb, if_neg (ne_true_of_eq_false (hmod k hb))]
  · rcases or_assoc.mpr hb with hb | hb
    · exact applyIdle_table s hb true
    · rw [applyIdle_master s hb, hmp hb]
      rfl

theorem applyIdle_eq_applyI (h : s.idlePoint b) : ∃ after, s.applyIdle b true = s.applyI b after := by
  obtain ⟨htransit, htwin, hmod, htable, hchan⟩ := applyIdle_of_idlePoint s h
  rcases h with ⟨hb, -⟩ | ⟨hb, -⟩ | ⟨k, hb, -⟩ | hb | hb | ⟨k, hb⟩ | ⟨hb, -⟩
  · exact ⟨_, htransit hb⟩
  · exact ⟨_, htwin hb⟩
  · exact ⟨_, hmod k hb⟩
  · exact ⟨_, htable (.inl hb)⟩
  · exact ⟨_, htable (.inr (.inl hb))⟩
  · exact ⟨_, hchan k hb⟩
  · exact ⟨_, htable (.inr (.inr hb))⟩

/-- Before its idle point a unit leaves the copy of its block waiting. -/
theorem applyIdle_of_not_idlePoint (h : ¬ s.idlePoint b) : s.applyIdle b true = s := by
  simp only [State.idlePoint, not_or, not_and, not_exists] at h
  obtain ⟨htransit, htwin, hmod, h8, h9, hchan, hmp⟩ := h
  by_cases h1 : b = 1
  · rw [applyIdle_transit s h1]
    split
    case isTrue => rfl
    case isFalse hrun => exact if_neg (htransit h1 (by simpa using hrun))
  by_cases h2 : b = 2
  · rw [applyIdle_twin s h2, if_neg (htwin h2)]
  by_cases hm : 0x1C0 ≤ b ∧ b < 0x1C8
  · have hk : b = 0x1C0 + (⟨b - 0x1C0, by omega⟩ : Fin 8).val := (Nat.add_sub_of_le hm.1).symm
    rw [applyIdle_modulator s hk, if_pos (by simpa using hmod _ hk)]
  have hc : ¬(0x1D0 ≤ b ∧ b < 0x1D8) := fun hc => hchan ⟨b - 0x1D0, by omega⟩ (Nat.add_sub_of_le hc.1).symm
  by_cases hE : b = 0x1E0
  · rw [applyIdle_master s hE, if_neg (by simpa using hmp hE)]
  rw [State.applyIdle, if_neg h1, if_neg h2, dif_neg hm, if_neg (not_or.mpr ⟨h8, h9⟩), dif_neg hc, if_neg hE]

end

end Sys2Proof.Machine
open Sys2Proof Sys2Proof.Machine

/-- Settles O40: a copy's check decides what comes of it (`applyI_of_ready`), at the idle point of its unit (`applyIdle_of_idlePoint`) and
not before (`applyIdle_of_not_idlePoint`). -/
theorem copiesTakeEffectWholeOrNot : Obligations.CopiesTakeEffectWholeOrNot := by
  unfold Obligations.CopiesTakeEffectWholeOrNot
  intro s blk c hup hr b o v q w u idle
  have hexec : exec (.paramBlockIdleApply blk) s = .next (s.applyIdle b true) := if_neg (ne_true_of_eq_false hup)
  rw [hexec]
  refine ⟨fun hc hidle => ?sound, fun i hc hidle => ?refused, fun hidle => ?waits⟩
  case sound =>
    obtain ⟨htransit, htwin, hmod, htable, hchan⟩ := applyIdle_of_idlePoint s hidle
    have hsound := fun after => applyI_of_sound hr after hc
    exact ⟨fun hb => congrArg _ ((htransit hb).trans (hsound _)), fun hb => congrArg _ ((htwin hb).trans (hsound _)),
      fun k hb => congrArg _ ((hmod k hb).trans (hsound _)), fun hb => congrArg _ ((htable hb).trans (hsound _)),
      fun k hb => congrArg _ ((hchan k hb).trans (hsound _))⟩
  case refused =>
    obtain ⟨after, happly⟩ := applyIdle_eq_applyI s hidle
    exact congrArg _ (happly.trans (applyI_of_bad hr after hc))
  case waits => exact congrArg _ (applyIdle_of_not_idlePoint s hidle)
end

section
/-! SUPPORT. What reports, reads of the store and of the NV store, and what boot reads from it leave as it is (R315, R426, R435, R439). -/
namespace Sys2Proof.Machine

section
variable {β : Type} {P : State → β} (hq : Quiet P)
include hq

/-! ### Records and the link -/

theorem Quiet.linkPut (s : State) (f : LinkFrame) : P (s.linkPut f) = P s := by
  unfold State.linkPut
  dsimp only
  split
  · exact (hq.occur ..).trans (hq.twin ..)
  · exact hq.twin ..

theorem Quiet.linkPump (n : Nat) (s : State) : P (State.linkPump n s) = P s := by
  induction n generalizing s with
  | zero => rfl
  | succ n ih =>
    unfold State.linkPump
    split
    · split
      · exact (ih _).trans ((hq.linkPut ..).trans (hq.twin ..))
      · rfl
    · rfl

theorem Quiet.linkSend (s : State) (ty : Byte) (cls : Nat) (p : Port) (ws : List W) : P (s.linkSend ty cls p ws) = P s := by
  unfold State.linkSend State.linkSendAll
  extract_lets fs held queued pumped
  have hpumped : P pumped = P s := (hq.linkPump ..).trans (hq.twin ..)
  split
  · exact (hq.occur ..).trans hpumped
  · exact hpumped

theorem Quiet.note (s : State) (code sev src : Nat) (ws : List W) : P (s.note code sev src ws) = P s := by
  unfold State.note State.queueRec State.sendRecord
  extract_lets q queued
  have hqueued : P queued = P s := hq.nv ..
  split
  · split
    · exact (hq.linkSend ..).trans hqueued
    · exact hqueued
  · exact hqueued

/-! ### Memories -/

theorem Quiet.storeRead (s : State) (a n : Nat) : P (s.storeRead a n).2 = P s :=
  storeRead_keeps hq.occur hq.events hq.store hq.fm s a n

theorem Quiet.imgBuffer (s : State) : P s.imgBuffer.2 = P s := by
  unfold State.imgBuffer
  exact hq.storeRead ..

theorem Quiet.nvRead (s : State) (a n : Nat) : P (s.nvRead a n).2 = P s := by
  unfold State.nvRead
  extract_lets soft corrected bad gs view bs
  have hcorrected : P corrected = P s := forEach_eq_of_step P (fun _ _ => (hq.occur ..).trans (hq.nv ..)) _ _
  exact (forEach_eq_of_step P (fun _ _ => (hq.occur ..).trans ((hq.note ..).trans (hq.nv ..))) _ _).trans hcorrected

theorem Quiet.itemCheck (s : State) (t : NvItem) : P (s.itemCheck t) = P s := by
  unfold State.itemCheck
  extract_lets size read
  have hread : P read = P s := (hq.nvRead ..).trans (hq.nvRead ..)
  split
  · exact (hq.occur ..).trans hread
  · exact hread

theorem Quiet.imgChecked (s : State) : P s.imgChecked = P s := (hq.nv ..).trans (hq.itemCheck ..)

theorem Quiet.bootItem (s : State) (t : NvItem) : P (s.bootItem t) = P s := by
  unfold State.bootItem
  extract_lets checked
  have hchecked : P checked = P s := hq.itemCheck ..
  split
  · exact (hq.note ..).trans hchecked
  · exact hchecked

end

/-! ### Boot (R91, R240) -/

theorem quiet_thermal : Quiet State.thermal where
  occur s n := congrArg Kept.thermal (occur_kept s n)
  nv _ _ := rfl
  twin _ _ := rfl
  events _ _ := rfl
  store _ _ := rfl
  fm _ _ := rfl
  soft _ _ _ := rfl

theorem quiet_boot : Quiet State.boot where
  occur s n := by rw [occur_frame]
  nv _ _ := rfl
  twin _ _ := rfl
  events _ _ := rfl
  store _ _ := rfl
  fm _ _ := rfl
  soft _ _ _ := rfl

theorem takeCounters_thermal (s : State) (ws : List W) : (s.takeCounters ws).thermal = s.thermal := by
  simp only [State.takeCounters, modTransit_thermal, modNv_thermal]

/-- What boot reads from the NV store leaves the temperature and power unit alone. -/
theorem bootNv_thermal (s : State) : s.bootNv.thermal = s.thermal := by
  unfold State.bootNv
  extract_lets cw sw counted logged pend clear read trimmed enforced saved interrupted emptied written mapped warm
  have hread : read.thermal = s.thermal := by
    unfold read logged counted
    rw [forEach_eq_of_step State.thermal (fun t s => quiet_thermal.bootItem s t), modNv_thermal, takeCounters_thermal, modNv_thermal]
  have hsaved : saved.thermal = s.thermal := by
    unfold saved enforced trimmed
    rw [State.saveCounters, modNv_thermal]
    split <;> simp only [State.bootTrims, modNv_thermal, modTransit_thermal, hread]
  have hinterrupted : interrupted.thermal = s.thermal := by
    unfold interrupted
    split
    · rw [quiet_thermal.occur, quiet_thermal.note, modNv_thermal, hsaved]
    · exact hsaved
  have hwarm : warm.thermal = s.thermal := by
    unfold warm mapped written emptied
    rw [modBoot_thermal]
    split <;> simp only [modNv_thermal, modFm_thermal, hinterrupted]
  split
  · rw [quiet_thermal.occur, modNv_thermal, hwarm]
  · exact hwarm

theorem bootStart_thermal (s : State) (bootsel : BitVec 2) (role : Bool) : (s.bootStart bootsel role).thermal = s.thermal := by
  simp only [State.bootStart, State.storeInit, modStore_thermal, modTransit_thermal, modFm_thermal, modTwin_thermal, modBoot_thermal,
    bootNv_thermal]

end Sys2Proof.Machine
end

section
/-! SUPPORT. Images: the end of a boot load and of a GO (R85, R92, R94, R95). -/
namespace Sys2Proof.Machine

theorem imgCheck_of_short (s : State) {img : List Byte} (h : img.length < 64) : (s.imgCheck img).1 = 0x10 := by
  unfold State.imgCheck
  dsimp only
  rw [if_pos (.inl h)]

/-- The mask ROM's last act is to set BOOT. -/
theorem bootEnter_boot (s : State) : s.bootEnter.boot.step = 3 ∧ s.bootEnter.boot.boot = true := ⟨rfl, rfl⟩

theorem modBoot_modBoot (s : State) (f g : Boot → Boot) : (s.modBoot f).modBoot g = s.modBoot fun b => g (f b) := rfl

section
variable (s : State) (img : List Byte) (copy : Bool)

theorem bootLoad_of_sound (h : (s.imgCheck img).1.toNat ≤ 3) : s.bootLoad img copy =
    ((s.imgChecked.modBoot fun b => { b with code := BitVec.ofNat 7 (s.imgCheck img).1.toNat, copy := copy }).imgInstall img
      (s.imgCheck img).2.1 (s.imgCheck img).2.2).bootEnter := if_pos h

theorem bootLoad_of_short (h : img.length < 64) : s.bootLoad img copy =
    s.imgChecked.modBoot fun b => { b with step := 4, code := 0x10, copy := copy } := by
  have hcode : (s.imgCheck img).1 = 0x10 := imgCheck_of_short s h
  have hneg : ¬(s.imgCheck img).1.toNat ≤ 3 := by simp [hcode]
  rw [State.bootLoad, if_neg hneg, modBoot_modBoot, hcode]
  rfl

end

/-- Of two copies in the flash the second is taken where the first has no sound header (R91, R92). -/
theorem exec_bootLoadComplete_flash {s : State} (hup : s.up) (hstep : s.boot.step = 2) (hsel : s.boot.bootsel = 0) (c0 c1 : List Byte) :
    exec (.bootLoadComplete c0 c1) s = .next (
      if 0x10 ≤ (s.imgCheck c0).1.toNat ∧ (s.imgCheck c0).1.toNat ≤ 0x15 then s.bootLoad c1 true else s.bootLoad c0 false) := by
  have hheld : s.thermal.held = false := hup
  show execBootLoadComplete c0 c1 s = _
  rw [execBootLoadComplete, if_neg (by simp [hheld, hstep]), if_pos hsel]
  dsimp only
  split <;> rfl

theorem bootLoadComplete_of_short {s : State} (hup : s.up) (hstep : s.boot.step = 2) (hsel : s.boot.bootsel = 0) {c0 : List Byte}
    (c1 : List Byte) (h : c0.length < 64) : exec (.bootLoadComplete c0 c1) s = .next (s.bootLoad c1 true) := by
  rw [exec_bootLoadComplete_flash hup hstep hsel, imgCheck_of_short s h]
  rfl

theorem bootLoadComplete_of_sound {s : State} (hup : s.up) (hstep : s.boot.step = 2) (hsel : s.boot.bootsel = 0) {c0 : List Byte}
    (c1 : List Byte) (h : (s.imgCheck c0).1.toNat ≤ 3) : exec (.bootLoadComplete c0 c1) s = .next (s.bootLoad c0 false) := by
  rw [exec_bootLoadComplete_flash hup hstep hsel, if_neg (by omega)]

/-- The end of a GO once BOOT is set (R94, R95). -/
theorem exec_loadGoDone_booted {s : State} (hup : s.up) (hbusy : s.queue.busy = true) (hboot : s.boot.boot = true) :
    let v := s.imgBuffer.2
    let c := v.imgCheck s.imgBuffer.1
    let u := v.imgChecked.modQueue fun q => { q with busy := false, code := c.1 }
    exec .loadGoDone s = .next (if c.1.toNat ≤ 3 then u.imgInstall s.imgBuffer.1 c.2.1 c.2.2 else u) := by
  have hheld : s.thermal.held = false := hup
  have hbooted (f : Queue → Queue) : (s.imgBuffer.2.imgChecked.modQueue f).boot.boot = true := by
    rw [modQueue_boot, quiet_boot.imgChecked, quiet_boot.imgBuffer, hboot]
  show execLoadGoDone s = _
  rw [execLoadGoDone, if_neg (by simp [hheld, hbusy])]
  simp only [hbooted, Bool.not_true, Bool.false_eq_true, if_false]
  split <;> rfl

end Sys2Proof.Machine
open Sys2Proof Sys2Proof.Machine

/-- Settles O39: the two copies of the flash (`bootLoadComplete_of_sound`, `bootLoadComplete_of_short`), what a boot load comes to
(`bootLoad_of_sound`, `bootLoad_of_short`), and the end of a GO (`exec_loadGoDone_booted`). -/
theorem imagesBoot : Obligations.ImagesBoot := by
  unfold Obligations.ImagesBoot
  intro s img c0 c1 hup
  refine ⟨fun hstep hsel => ⟨fun copy hsound hshort => ?image, fun h0 h1 => ?none⟩, fun hstep hsel => ?timeout, fun hbusy hboot => ?go⟩
  case image =>
    intro c u
    refine ⟨_, ?_, rfl, bootEnter_boot _⟩
    cases copy with
    | false => exact (bootLoadComplete_of_sound hup hstep hsel c1 hsound).trans (congrArg _ (bootLoad_of_sound s img false hsound))
    | true => exact (bootLoadComplete_of_short hup hstep hsel img hshort).trans (congrArg _ (bootLoad_of_sound s img true hsound))
  case none => exact (bootLoadComplete_of_short hup hstep hsel c1 h0).trans (congrArg _ (bootLoad_of_short s c1 true h1))
  case timeout =>
    have hheld : s.thermal.held = false := hup
    exact if_neg (by rw [hheld, hstep]; simpa using hsel)
  case go =>
    intro v c u
    have hgo := exec_loadGoDone_booted hup hbusy hboot
    exact ⟨fun hbad => hgo.trans (congrArg _ (if_neg (Nat.not_le.mpr hbad))), fun hok => hgo.trans (congrArg _ (if_pos hok))⟩
end

section
/-! SUPPORT. The release of RESET_N, the rise of PFAIL_N, the end of the store's initialisation (R91, R92, R391, R450, R488, R511), and the
restart of the ME (R84, R385). -/
namespace Sys2Proof.Machine

/-! ### The beginning of boot -/

/-- The pins that a boot samples, and the store that it zeroes (R91, R240, R488). -/
theorem bootStart_begins (s : State) (bootsel : BitVec 2) (role : Bool) : let t := s.bootStart bootsel role
    t.boot.step = 1 ∧ t.boot.bootsel = bootsel ∧ t.twin.strap = role ∧ t.store.mem = [] ∧ t.store.poison = [] :=
  ⟨rfl, rfl, rfl, rfl, rfl⟩

section
variable {s : State} (hn : s.thermal.resetN = false) (hs : s.thermal.shutdown = false) (hp : s.thermal.pfStep = 0)
  (hh : s.thermal.handCause = 0)
include hn hs hp hh

theorem exec_resetRelease_powered (hpf : s.thermal.pfail = true) (hr : s.railsUp = true) (hb : s.boot.step = 0) (bootsel : BitVec 2)
    (role : Bool) : exec (.resetRelease bootsel role) s = .next ((s.modThermal fun h => { h with resetN := true }).bootStart bootsel role) := by
  have hr' : (s.modThermal fun h => { h with resetN := true }).railsUp = true := hr
  show execResetRelease bootsel role s = _
  simp [execResetRelease, hn, hs, hp, hh, hpf, hr', hb]

theorem exec_resetRelease_waits (hw : s.thermal.pfail = false ∨ s.railsUp = false) (bootsel : BitVec 2) (role : Bool) :
    exec (.resetRelease bootsel role) s = .next (((s.modThermal fun h => { h with resetN := true }).modBoot fun b =>
      { b with step := 5, bootsel := bootsel }).modTwin fun t => { t with strap := role }) := by
  have hr' : (s.modThermal fun h => { h with resetN := true }).railsUp = s.railsUp := rfl
  show execResetRelease bootsel role s = _
  simp [execResetRelease, hn, hs, hp, hh, hr', hw]

end

/-- PFAIL_N is high; the rails are in range where the command says so (R510, R511). -/
def State.powered (s : State) (ok : Bool) : State :=
  s.modThermal fun t => { t with pfail := true, rails := if ok then 0x1F else t.rails, vio := t.vio || ok }

/-- A boot that was held back starts, with the pins as they were sampled at the release of RESET_N (R391, R488). -/
theorem exec_pfailNRise_starts {s : State} {ok : Bool} (hb : s.boot.step = 5) (hp : s.thermal.pfStep = 0)
    (hs : s.thermal.shutdown = false) (hr : (s.powered ok).railsUp = true) (bootsel : BitVec 2) (role : Bool) :
    exec (.pfailNRise bootsel role ok) s = .next ((s.powered ok).bootStart s.boot.bootsel s.twin.strap) :=
  if_pos ⟨hb, hp, by simp [hs], hr⟩

theorem exec_pfailNRise_none {s : State} {ok : Bool} (h : s.boot.step ≠ 5 ∨ (s.powered ok).railsUp = false) (bootsel : BitVec 2)
    (role : Bool) : exec (.pfailNRise bootsel role ok) s = .next (s.powered ok) :=
  if_neg fun ⟨hb, _, _, hr⟩ => h.elim (absurd hb) fun h => absurd hr (ne_true_of_eq_false h)

/-! ### The thermal unit takes its settings (R379–R381, R385) -/

/-- `P` says nothing of the clusters and their lanes either, nor of the readings and stages of the thermal unit. -/
structure QuietStages {β : Type} (P : State → β) : Prop extends Quiet P where
  cluster : ∀ s k f, P (State.modCluster s k f) = P s
  lane : ∀ s l f, P (State.modLane s l f) = P s
  sensor : ∀ s t f, P (State.modSensor s t f) = P s
  zones : ∀ (s : State) (f : Thermal → Vector (Fin 5) 4) (g : Thermal → Nat),
    P (s.modThermal fun t => { t with zones := f t, stage := g t }) = P s

section
variable {β : Type} {P : State → β} (hq : QuietStages P)
include hq

theorem QuietStages.kernelLoad (s : State) (k : Fin 12) (slot : Fin 16) : P (s.kernelLoad k slot) = P s := by
  unfold State.kernelLoad
  extract_lets base read loaded bad ks cleared
  have hcleared : P cleared = P s := (hq.cluster ..).trans (hq.storeRead ..)
  exact (forEach_eq_of_step P (fun _ _ => hq.lane ..) _ _).trans hcleared

theorem QuietStages.clusterSet (s : State) (k : Fin 12) (slot : Option (Fin 16)) (mhz : Nat) : P (s.clusterSet k slot mhz) = P s := by
  unfold State.clusterSet State.clusterClock
  extract_lets c slotted
  have hslotted : P slotted = P s := by
    unfold slotted
    split
    · split
      · exact hq.cluster ..
      · split
        · exact hq.cluster ..
        · exact hq.kernelLoad ..
    · rfl
  exact (hq.cluster ..).trans hslotted

theorem QuietStages.clustersSet (s : State) (p : Port) (v : PMap) (pl : Plan) (stage : Nat) (duty : Option (Fin 12)) :
    P (s.clustersSet p v pl stage duty) = P s := by
  unfold State.clustersSet
  extract_lets users f
  refine forEach_eq_of_step P (fun k t => ?_) _ _
  split
  · extract_lets clean
    split
    · exact hq.clusterSet ..
    · split <;> exact hq.clusterSet ..
  · split
    · exact hq.clusterSet ..
    · rfl

theorem QuietStages.stageFollow (s : State) (old : Nat) : P (s.stageFollow old) = P s := by
  unfold State.stageFollow State.stageIdle
  extract_lets n v r
  split
  · rfl
  · split
    · exact hq.note ..
    · exact (hq.clustersSet ..).trans (hq.note ..)

theorem QuietStages.setZone (s : State) (z : Fin 4) (n : Fin 5) : P (s.setZone z n) = P s := by
  unfold State.setZone
  extract_lets old changed
  split
  · rfl
  · exact (hq.stageFollow ..).trans ((hq.note ..).trans (hq.zones ..))

theorem QuietStages.zoneAfter (s : State) (z : Fin 4) (wasHot : Bool) : P (s.zoneAfter z wasHot) = P s := by
  unfold State.zoneAfter
  extract_lets n
  split
  · exact hq.setZone ..
  · split
    · exact hq.setZone ..
    · rfl

theorem QuietStages.sensorNews (s o : State) : P (s.sensorNews o) = P s := by
  unfold State.sensorNews
  refine forEach_eq_of_step P (fun t x => ?_) _ _
  extract_lets a b told
  have htold : P told = P x := by
    unfold told
    split
    · exact hq.occur ..
    · rfl
  split
  · exact htold
  · exact (hq.occur ..).trans htold

/-- Settings that come into force change no more than the conditions, the zones and what follows the device stage. -/
theorem QuietStages.thermalApply (s : State) (ws : List W) (seq : Byte) :
    P (s.thermalApply ws seq) = P (s.modThermal fun t => { t with table := ws, seq := seq }) := by
  unfold State.thermalApply
  extract_lets taken judged
  have hjudged : P judged = P taken := by
    refine forEach_eq_of_step P (fun x t => ?_) _ _
    split
    · exact hq.sensor ..
    · rfl
  exact (hq.sensorNews ..).trans ((forEach_eq_of_step P (fun _ _ => hq.zoneAfter ..) _ _).trans hjudged)

end

/-- The settings table of the thermal unit and its number. -/
theorem quietStages_table : QuietStages fun s => (s.thermal.table, s.thermal.seq) where
  occur s n := congrArg (fun t : Thermal => (t.table, t.seq)) (quiet_thermal.occur s n)
  nv _ _ := rfl
  twin _ _ := rfl
  events _ _ := rfl
  store _ _ := rfl
  fm _ _ := rfl
  soft _ _ _ := rfl
  cluster _ _ _ := rfl
  lane _ _ _ := rfl
  sensor _ _ _ := rfl
  zones _ _ _ := rfl

/-- The memories of an engine. -/
theorem quietStages_memories (e : Eng) : QuietStages fun s => ((s.eng e).prog, (s.eng e).data) where
  toQuiet := quiet_eng e (fun en => (en.prog, en.data)) (fun _ _ => rfl) fun _ _ => rfl
  cluster _ _ _ := rfl
  lane _ _ _ := rfl
  sensor _ _ _ := rfl
  zones _ _ _ := rfl

/-! ### The restart of the ME (R84) -/

theorem engReset_thermal (s : State) (e : Eng) : (s.engReset e).thermal = s.thermal := by
  unfold State.engReset
  extract_lets fixed checked zero reset detached
  have hchecked : checked.thermal = s.thermal := by
    unfold checked
    split
    · exact quiet_thermal.dataFix ..
    · exact (quiet_thermal.dataFix ..).trans (quiet_thermal.dataFix ..)
  have hdetached : detached.thermal = s.thermal := by
    unfold detached
    split <;> exact hchecked
  split <;> exact hdetached

/-- The ME has no ring of MP1, so its reset leaves its memories as they are. -/
theorem engReset_memories (s : State) : ((s.engReset engME).eng engME).prog = (s.eng engME).prog ∧
    ((s.engReset engME).eng engME).data = (s.eng engME).data := by
  have hfix := (quietStages_memories engME).dataFix s engME 0x7B00 (0x40 * nCtx engME)
  obtain ⟨hprog, hdata⟩ := Prod.mk.inj hfix
  show (((s.dataFix engME 0x7B00 (0x40 * nCtx engME)).modEng engME _).eng engME).prog = _ ∧
    (((s.dataFix engME 0x7B00 (0x40 * nCtx engME)).modEng engME _).eng engME).data = _
  rw [modEng_eng]
  exact ⟨hprog, hdata⟩

/-- What enters its image: the ME with the copy of its sections, the default settings in force. -/
def State.meLoaded (s : State) (p d : List Byte) : State :=
  s.modEng engME fun en =>
    { en with prog := Mem.write [] 0 p, data := Mem.write [] 0 d, progBad := [], progSoft := [], dataBad := [], dataSoft := [] }

theorem meRestarted_memories (s : State) (p d : List Byte) :
    let t := (((s.meLoaded p d).thermalApply thermalDefaults 0).engReset engME).modEng engME fun en => { en with st := 1 }
    (t.eng engME).st = 1 ∧ (t.eng engME).prog = Mem.write [] 0 p ∧ (t.eng engME).data = Mem.write [] 0 d ∧
      t.thermal.table = thermalDefaults ∧ t.thermal.seq = 0 := by
  intro t
  obtain ⟨hprog, hdata⟩ := Prod.mk.inj ((quietStages_memories engME).thermalApply (s.meLoaded p d) thermalDefaults 0)
  obtain ⟨htable, hseq⟩ := Prod.mk.inj (quietStages_table.thermalApply (s.meLoaded p d) thermalDefaults 0)
  obtain ⟨hprog', hdata'⟩ := engReset_memories ((s.meLoaded p d).thermalApply thermalDefaults 0)
  have hloaded : (((s.meLoaded p d).modThermal fun t => { t with table := thermalDefaults, seq := 0 }).eng engME).prog =
      Mem.write [] 0 p ∧ (((s.meLoaded p d).modThermal fun t => { t with table := thermalDefaults, seq := 0 }).eng engME).data =
      Mem.write [] 0 d := by
    rw [modThermal_eng_other, State.meLoaded, modEng_eng]
    exact ⟨rfl, rfl⟩
  unfold t
  rw [modEng_eng, modEng_thermal, engReset_thermal]
  exact ⟨rfl, hprog'.trans (hprog.trans hloaded.1), hdata'.trans (hdata.trans hloaded.2), htable, hseq⟩

/-- The restart of an ME in service is decided by the CRC words of its copy. -/
theorem exec_meRestartDone {s : State} (hup : s.up) (hm : s.boot.meRestarting = true) :
    let p := (s.modBoot fun b => { b with meRestarting := false }).storeRead meCopyBase 0x8000
    let d := p.2.storeRead (meCopyBase + 0x8000) 0x8000
    let c := d.2.storeRead (meCopyBase + 0x10000) 8
    let u := (c.2.modEng engME fun en => { en with st := 4 }).setFault
    c.2.engRetired engME = false → exec .meRestartDone s = .next (if [crc32c p.1, crc32c d.1] = bytesWords c.1 then
        (((c.2.meLoaded p.1 d.1).thermalApply thermalDefaults 0).engReset engME).modEng engME fun en => { en with st := 1 }
      else u.note 0x101 3 (uEng engME).val [slotUid (uEng engME), 0xFD, u.decisionMer]) := by
  intro p d c u hr
  have hheld : s.thermal.held = false := hup
  show execMeRestartDone s = _
  rw [execMeRestartDone, if_neg (by simp [hheld, hm])]
  extract_lets s1 p' d' c' s2
  rw [if_neg (ne_true_of_eq_false hr)]
  split <;> rfl

end Sys2Proof.Machine
open Sys2Proof Sys2Proof.Machine

/-- Settles O38: the forms of RESET_RELEASE and PFAIL_N_RISE and what boot begins with (`bootStart_begins`, `bootStart_thermal`), and the
restart of the ME (`exec_meRestartDone`, `meRestarted_memories`). -/
theorem bootAndRestart : Obligations.BootAndRestart := by
  unfold Obligations.BootAndRestart
  refine ⟨fun s bootsel role ok => ?boot, fun s hup hm hr => ?restart⟩
  case boot =>
    intro m i
    refine ⟨fun hn hs hp hh hb => ⟨fun hpf hrails => ?_, fun hw => exec_resetRelease_waits hn hs hp hh hw bootsel role⟩, fun hb hp hs hrails => ?_,
      fun hw => exec_pfailNRise_none hw bootsel role, fun hb hlk => ?_, fun hb hlk => ?_⟩
    · obtain ⟨hstep, hsel, hstrap, hmem, hpoison⟩ := bootStart_begins (s.modThermal fun h => { h with resetN := true }) bootsel role
      exact ⟨_, exec_resetRelease_powered hn hs hp hh hpf hrails hb bootsel role, rfl, hstep, hsel, hstrap,
        congrArg Thermal.resetN (bootStart_thermal ..), hmem, hpoison⟩
    · obtain ⟨hstep, hsel, hstrap, hmem, -⟩ := bootStart_begins m s.boot.bootsel s.twin.strap
      exact ⟨_, exec_pfailNRise_starts hb hp hs hrails bootsel role, rfl, hstep, hsel, hstrap,
        congrArg Thermal.pfail (bootStart_thermal ..), hmem⟩
    · exact if_pos ⟨hb, hlk⟩
    · exact if_neg fun h => absurd h.2 (ne_true_of_eq_false hlk)
  case restart =>
    intro p d c hr'
    have hexec := exec_meRestartDone hup hm hr'
    refine ⟨fun hcrc => ?_, fun hcrc => ?_⟩
    · exact ⟨_, hexec.trans (congrArg _ (if_pos hcrc)), rfl, meRestarted_memories c.2 p.1 d.1⟩
    · exact hexec.trans (congrArg _ (if_neg hcrc))
end

section
/-! SUPPORT. When a port is overdue (R203), at its meridian, as it is shown and after a commit. -/
namespace Sys2Proof.Machine

/-! ### The effective interval (R203) -/

theorem effInterval_of_assay {s : State} {p : Port} (h : (s.port p).profile = 2) :
    s.effInterval p = 16 * min (fld (s.params.force.fld 1 2) 31 16) 120 := by
  rw [State.effInterval, if_pos h, State.t1]

theorem effInterval_of_not_assay {s : State} {p : Port} (h : (s.port p).profile ≠ 2) :
    s.effInterval p = 16 * fld (s.params.force.fld 1 2) 31 16 := by
  rw [State.effInterval, if_neg h, State.t1]

/-! ### The transit part of a port under the steps of its meridian (R202, R218) -/

/-- Joining the queue changes the queue alone (R205). -/
@[simp] theorem transitDue_tport (s : State) (p q : Port) (req : Bool) : (s.transitDue p req).tport q = s.tport q := by
  unfold State.transitDue State.tport
  rw [modTransit_transit]
  split <;> rfl

@[simp] theorem latch_tport (s : State) (e : Eng) (c : Fin 4) (i : Nat) (q : Port) : (s.latch e c i).tport q = s.tport q := rfl

/-- The contexts that wait for a port's transit are woken, and no longer listed. -/
@[simp] theorem transitWake_tport (s : State) (p q : Port) : (s.transitWake p).tport q = s.tport q :=
  forEach_eq_of_step (fun t => t.tport q) (fun _ _ => latch_tport ..) _ _

/-- The Start mark that the other triggers clear says nothing of OVERDUE, nor does the queue that the port joins (R202). -/
theorem transitTriggers_overdue (s : State) (p : Port) :
    ((s.transitTriggers p).tport p).overdue = ((s.tport p).overdue || s.intervalOver p) := by
  unfold State.transitTriggers
  extract_lets pb judged busy start temp
  have hjudged : (judged.tport p).overdue = ((s.tport p).overdue || s.intervalOver p) := by
    unfold judged
    split
    next h => rw [modTPort_tport, h, Bool.or_true]
    next h => rw [eq_false_of_ne_true h, Bool.or_false]
  split
  · exact hjudged
  · split
    · rw [transitDue_tport, modTPort_tport]
      exact hjudged
    · exact hjudged

theorem transitShown_overdue (s : State) (p : Port) :
    (s.transitShown.ports.get p).overdue = ((s.tport p).overdue || s.intervalOver p) :=
  congrArg TransitPort.overdue (updAll_get ..)

theorem transitCommit_overdue {s : State} {c : Transit} (hc : s.transit.cur = some c) (p : Port) :
    ((s.transitCommit p).tport p).overdue = false := by
  unfold State.transitCommit
  rw [hc]
  dsimp only
  rw [transitWake_tport, modPort_tport_other]
  exact congrArg TransitPort.overdue (modTPort_tport ..)

end Sys2Proof.Machine
open Sys2Proof Sys2Proof.Machine

/-- Settles O60: at the meridian and as shown, OVERDUE is what it was or that the interval has passed (`transitTriggers_overdue`,
`transitShown_overdue`); a commit clears it (`transitCommit_overdue`). -/
theorem overdueFollowsTheInterval : Obligations.OverdueFollowsTheInterval := by
  unfold Obligations.OverdueFollowsTheInterval
  refine fun s p c => ⟨effInterval_of_not_assay, effInterval_of_assay, fun hover => ?_, fun hnot => ?_, transitShown_overdue s p,
    fun hc => transitCommit_overdue hc p⟩
  · rw [transitTriggers_overdue, State.intervalOver, decide_eq_true hover, Bool.or_true]
  · rw [transitTriggers_overdue, State.intervalOver, decide_eq_false (Nat.not_le.mpr hnot), Bool.or_false]
end

section
/-! SUPPORT. Production loads (R226, R227) and the self-trim pass with the trims of a modulator (R232, R355). -/
namespace Sys2Proof.Machine

/-! ### The outcome of one port of a load (R227) -/

section
variable {s : State} {p : Port} {sec : List Byte}

theorem prodPort_of_running (h : (s.port p).st = .running) (lost : Bool) : s.prodPort p sec lost = (s, 0x13) := if_pos h

theorem prodPort_of_lost (h : (s.port p).st ≠ .running) : s.prodPort p sec true = (s, 0x14) := (if_neg h).trans (if_pos rfl)

/-- A section whose header and entries are sound is written to a port that does not run. -/
theorem prodPort_of_sound (h : (s.port p).st ≠ .running) :
    let pb := s.params.force
    let es := (sec.drop 64).take (pb.cols p * pb.rows p * 6)
    let hd := bytesWords (sec.take 64)
    prodHeader pb p hd = none → crc32c es = nthW hd 7 → s.prodPort p sec false =
      ((((s.prodWrite p hd es).maskPass (pb.rows p) (pb.cols p) 64 (recordAddr pb p)
        fun r a => recordAddr pb p r a + 12).egenInc p).startAgain p, 0) := by
  intro pb es hd hhead hcrc
  unfold State.prodPort
  extract_lets
  rw [if_neg h, if_neg Bool.false_ne_true, hhead]
  exact if_neg (not_not_intro hcrc)

end

/-! ### The trims (R232, R355) -/

/-- A trim that changes moves no reading of a sensor. -/
theorem setTrim_islandTemp (s : State) (i : Nat) (w : W) (j : Fin 8) : (s.setTrim i w).islandTemp j = s.islandTemp j := rfl

theorem modTrimAsk_of_serving {s : State} {k : Fin 8} (hs : s.sextant.stopped = false) (hr : s.modRetired k = false) :
    s.modTrimAsk k = (s.modMod k fun x => { x with trimDue := true }).sxNext k none := if_neg (by simp [hs, hr])

/-- A converter that stands, and a retired modulator, are asked for nothing. -/
theorem modTrimAsk_of_not_serving {s : State} {k : Fin 8} (h : s.sextant.stopped = true ∨ s.modRetired k = true) :
    s.modTrimAsk k = s := if_pos h

/-- The offset of a modulator as its trim word holds it (R355). -/
def offsetTrim (a : Int) : W := wn (BitVec.ofInt 24 (satS 24 (rndDiv a 16))).toNat

theorem trimMod_of_pos {a b : Int} (h : 16 * rndDiv a 16 < b) (s : State) (k : Fin 8) : s.trimMod k a b =
    (s.setTrim (14 + k.val) (offsetTrim a)).setTrim (22 + k.val) (wi (satU 32 (rndDiv (2 ^ 56) (b - 16 * rndDiv a 16).toNat))) := by
  unfold State.trimMod
  extract_lets o g q
  have hq : q = (wi (satU 32 (rndDiv (2 ^ 56) g.toNat)), s) := if_pos (Int.sub_pos_of_lt h)
  rw [hq]
  rfl

/-- Where the difference has no quotient the gain trim is a free word (log entry 3). -/
theorem trimMod_of_nonpos {a b : Int} (h : b ≤ 16 * rndDiv a 16) (s : State) (k : Fin 8) : s.trimMod k a b =
    (s.free.2.setTrim (14 + k.val) (offsetTrim a)).setTrim (22 + k.val) s.free.1 := by
  unfold State.trimMod
  extract_lets o g q
  have hq : q = s.free := if_neg (Int.not_lt.mpr (Int.sub_nonpos_of_le h))
  rw [hq]
  rfl

/-! ### The commands -/

theorem exec_productionLoadDone {s : State} (hup : s.up) (hbusy : s.transit.prodBusy = true) (hmp0 : s.serial.mp0 = none)
    (hsoft : s.mp0Soft 0 = false) (flash : List (Nat × List Byte)) (e : Option (Fin 4)) :
    let q := s.prodPorts (prodSections (s.t1 9).toNat flash) e ((allFin 4).filter fun p => s.transit.prodPorts.getLsbD p.val) false
    exec (.productionLoadDone flash e) s = .next ((forEach q.2 (fun e t => t.noteLoaded e.1 e.2) q.1).modTransit fun t =>
      { t with
        prodBusy := false
        prodDone := t.prodSeq
        prodCode := ((q.2.find? fun e => e.2 ≠ 0).map (·.2)).getD 0
        prodP := updAll t.prodP fun p x => ((q.2.find? fun e => e.1 = p).map (·.2)).getD x }) := by
  have hheld : s.thermal.held = false := hup
  exact if_neg (by simp [hbusy, hheld, hmp0, hsoft])

/-- The state of a pass once the clusters and the RC oscillator are trimmed and the modulators asked (R232, R355). -/
def State.trimmed (s : State) (m : TrimMeas) : State :=
  let a := forEach (allFin 12) (fun k t => t.trimCluster m k) s
  let b := if 500 < ((m.rcCount : Int) - 100000).natAbs then a.occur (srcClock 41) else a
  let c := b.setTrim 12 (m.rcCode.zeroExtend 32)
  forEach (allFin 8) (fun k t => t.modTrimAsk k)
    (c.modTransit fun t => { t with islandTemps := updAll t.islandTemps fun j _ => c.islandTemp j })

theorem exec_selfTrimPass {s : State} (hup : s.up) (hstep : s.boot.step = 3) (hok : s.clocks.refOk = true) (hme : (s.eng engME).st = 1)
    (hdue : s.trimDue = true) (m : TrimMeas) : exec (.selfTrimPass m) s =
      .next ((s.trimmed m).refDue.modTransit fun t => { t with
        trimcount := t.trimcount + 1, trimTicks := (s.trimmed m).agreed, trimPcc := (s.trimmed m).nv.pcc, trimAsk := false }).trimRecord := by
  have hheld : s.thermal.held = false := hup
  refine (if_neg (by simp [hheld, hstep, hok, hme, hdue])).trans ?_
  simp only [State.trimmed, setTrim_islandTemp]

end Sys2Proof.Machine
open Sys2Proof Sys2Proof.Machine

/-- Settles O46: the load as one command (`exec_productionLoadDone`) and port by port (`prodPort_of_running`, `prodPort_of_lost`,
`prodPort_of_sound`); the pass (`exec_selfTrimPass`), what it asks of a modulator and the trims that follow. -/
theorem productionLoadsAndTrims : Obligations.ProductionLoadsAndTrims := by
  unfold Obligations.ProductionLoadsAndTrims
  refine ⟨?load, ?port, ?pass, ?ask, ?trims⟩
  case load => exact fun s flash e hup hbusy hmp0 hsoft => exec_productionLoadDone hup hbusy hmp0 hsoft flash e
  case port => exact fun s p sec lost => ⟨fun h => prodPort_of_running h lost, prodPort_of_lost, prodPort_of_sound⟩
  case pass => exact fun s m hup hstep hok hme hdue => exec_selfTrimPass hup hstep hok hme hdue m
  case ask => exact fun s k => ⟨modTrimAsk_of_serving, modTrimAsk_of_not_serving⟩
  case trims => exact fun s k a b => ⟨fun h => trimMod_of_pos h s k, fun h => trimMod_of_nonpos h s k⟩
end

section
/-! SUPPORT. The canonical form of the memories (R240, log entry 2): which updates of the state keep it at once. `h.f` reads: the memories
are canonical in `s`, hence in `s.f`. -/
namespace Sys2Proof.Machine
variable {s t : State}

/-! ### Updates that touch no memory -/

/-- A change of the fields that hold no memory. -/
theorem State.memsOk.frame {pending : List Instr} {params : Params} {queue : Queue} {boot : Boot} {ports : Vector PortS 4}
    {transit : TransitU} {streams : Vector Stream 8} {txs : Vector Tx 2} {fm : Fm} {twin : Twin} {sextant : Sextant} {bellows : Bellows}
    {thermal : Thermal} {clocks : Clocks} {events : Events} {scratch : W} {freeCtr : Nat} (h : s.memsOk) :
    (State.mk pending s.engines s.lanes s.clusters params queue boot ports transit s.store streams txs fm twin sextant bellows
      thermal s.serial s.nv clocks events scratch freeCtr).memsOk := h

theorem State.memsOk.modPort {p : Port} {f : PortS → PortS} (h : s.memsOk) : (s.modPort p f).memsOk := h
theorem State.memsOk.modStream {i : Fin 8} {f : Stream → Stream} (h : s.memsOk) : (s.modStream i f).memsOk := h
theorem State.memsOk.modTx {x : Fin 2} {f : Tx → Tx} (h : s.memsOk) : (s.modTx x f).memsOk := h
theorem State.memsOk.modFm {f : Fm → Fm} (h : s.memsOk) : (s.modFm f).memsOk := h
theorem State.memsOk.modUnit {u : Fin 182} {f : UnitS → UnitS} (h : s.memsOk) : (s.modUnit u f).memsOk := h
theorem State.memsOk.modMod {m : Fin 8} {f : SxMod → SxMod} (h : s.memsOk) : (s.modMod m f).memsOk := h
theorem State.memsOk.modBlw {c : Fin 8} {f : Blw → Blw} (h : s.memsOk) : (s.modBlw c f).memsOk := h
theorem State.memsOk.modSensor {i : Fin 48} {f : Sensor → Sensor} (h : s.memsOk) : (s.modSensor i f).memsOk := h
theorem State.memsOk.modTransit {f : TransitU → TransitU} (h : s.memsOk) : (s.modTransit f).memsOk := h
theorem State.memsOk.modTPort {p : Port} {f : TransitPort → TransitPort} (h : s.memsOk) : (s.modTPort p f).memsOk := h
theorem State.memsOk.modTwin {f : Twin → Twin} (h : s.memsOk) : (s.modTwin f).memsOk := h
theorem State.memsOk.modQueue {f : Queue → Queue} (h : s.memsOk) : (s.modQueue f).memsOk := h
theorem State.memsOk.modThermal {f : Thermal → Thermal} (h : s.memsOk) : (s.modThermal f).memsOk := h
theorem State.memsOk.modParams {f : Params → Params} (h : s.memsOk) : (s.modParams f).memsOk := h
theorem State.memsOk.modClocks {f : Clocks → Clocks} (h : s.memsOk) : (s.modClocks f).memsOk := h
theorem State.memsOk.modEvents {f : Events → Events} (h : s.memsOk) : (s.modEvents f).memsOk := h
theorem State.memsOk.modBoot {f : Boot → Boot} (h : s.memsOk) : (s.modBoot f).memsOk := h
theorem State.memsOk.free (h : s.memsOk) : s.free.2.memsOk := h

/-! ### Updates of a unit that holds memories -/

theorem State.memsOk.store (h : s.memsOk) : s.store.mem.wf = true := h.1
theorem State.memsOk.nv (h : s.memsOk) : s.nv.mem.wf = true := h.2.1
theorem State.memsOk.hbuf (h : s.memsOk) : s.serial.hbuf.wf = true := h.2.2.1
theorem State.memsOk.eng (h : s.memsOk) (e : Eng) : (s.eng e).memsOk = true := h.2.2.2.1 e
theorem State.memsOk.lane (h : s.memsOk) (l : LaneNo) : (s.lane l).loc.wf = true := h.2.2.2.2.1 l
theorem State.memsOk.cluster (h : s.memsOk) (k : Fin 12) : (s.cluster k).memsOk = true := h.2.2.2.2.2 k

/-- A change of the store to one whose memory is canonical. -/
theorem State.memsOk.modStoreTo {f : Store → Store} (h : s.memsOk) (hf : (f s.store).mem.wf = true) : (s.modStore f).memsOk :=
  ⟨hf, h.2⟩

theorem State.memsOk.modNvTo {f : Nv → Nv} (h : s.memsOk) (hf : (f s.nv).mem.wf = true) : (s.modNv f).memsOk :=
  ⟨h.1, hf, h.2.2⟩

theorem State.memsOk.modSerialTo {f : Serial → Serial} (h : s.memsOk) (hf : (f s.serial).hbuf.wf = true) : (s.modSerial f).memsOk :=
  ⟨h.1, h.2.1, hf, h.2.2.2⟩

theorem upd_forall {α : Type} {n : Nat} {P : α → Prop} {v : Vector α n} {i : Fin n} {f : α → α} (h : ∀ j, P (v.get j))
    (hi : P (f (v.get i))) (j : Fin n) : P ((upd v i f).get j) := by
  rcases eq_or_ne j i with rfl | hj
  · rwa [upd_get]
  · rw [upd_get_ne _ _ _ _ hj]
    exact h j

theorem Engine.memsOk_iff {e : Engine} : e.memsOk = true ↔ e.prog.wf = true ∧ e.data.wf = true := Bool.and_eq_true_iff
theorem Cluster.memsOk_iff {k : Cluster} : k.memsOk = true ↔ k.kernel.wf = true ∧ k.tile.wf = true := Bool.and_eq_true_iff

theorem State.memsOk.prog (h : s.memsOk) (e : Eng) : (s.eng e).prog.wf = true := (Engine.memsOk_iff.mp (h.eng e)).1
theorem State.memsOk.data (h : s.memsOk) (e : Eng) : (s.eng e).data.wf = true := (Engine.memsOk_iff.mp (h.eng e)).2
theorem State.memsOk.kernel (h : s.memsOk) (k : Fin 12) : (s.cluster k).kernel.wf = true := (Cluster.memsOk_iff.mp (h.cluster k)).1
theorem State.memsOk.tile (h : s.memsOk) (k : Fin 12) : (s.cluster k).tile.wf = true := (Cluster.memsOk_iff.mp (h.cluster k)).2

theorem State.memsOk.modEngTo {e : Eng} {f : Engine → Engine} (h : s.memsOk) (hf : (f (s.eng e)).memsOk = true) :
    (s.modEng e f).memsOk :=
  ⟨h.1, h.2.1, h.2.2.1, upd_forall (P := fun x : Engine => x.memsOk = true) h.eng hf, h.2.2.2.2⟩

theorem State.memsOk.modLaneTo {l : LaneNo} {f : Lane → Lane} (h : s.memsOk) (hf : (f (s.lane l)).loc.wf = true) :
    (s.modLane l f).memsOk :=
  ⟨h.1, h.2.1, h.2.2.1, h.eng, upd_forall (P := fun x : Lane => x.loc.wf = true) h.lane hf, h.cluster⟩

theorem State.memsOk.modClusterTo {k : Fin 12} {f : Cluster → Cluster} (h : s.memsOk) (hf : (f (s.cluster k)).memsOk = true) :
    (s.modCluster k f).memsOk :=
  ⟨h.1, h.2.1, h.2.2.1, h.eng, h.lane, upd_forall (P := fun x : Cluster => x.memsOk = true) h.cluster hf⟩

/-! A change that leaves the unit's memory as it is. -/

theorem State.memsOk.modStore {f : Store → Store} (h : s.memsOk) (hf : ∀ x, (f x).mem = x.mem := by exact fun _ => rfl) :
    (s.modStore f).memsOk := h.modStoreTo (by rw [hf]; exact h.store)

theorem State.memsOk.modNv {f : Nv → Nv} (h : s.memsOk) (hf : ∀ x, (f x).mem = x.mem := by exact fun _ => rfl) :
    (s.modNv f).memsOk := h.modNvTo (by rw [hf]; exact h.nv)

theorem State.memsOk.modSerial {f : Serial → Serial} (h : s.memsOk) (hf : ∀ x, (f x).hbuf = x.hbuf := by exact fun _ => rfl) :
    (s.modSerial f).memsOk := h.modSerialTo (by rw [hf]; exact h.hbuf)

theorem State.memsOk.modEng {e : Eng} {f : Engine → Engine} (h : s.memsOk)
    (hf : ∀ x, (f x).memsOk = x.memsOk := by exact fun _ => rfl) : (s.modEng e f).memsOk := h.modEngTo ((hf _).trans (h.eng e))

theorem State.memsOk.modLane {l : LaneNo} {f : Lane → Lane} (h : s.memsOk) (hf : ∀ x, (f x).loc = x.loc := by exact fun _ => rfl) :
    (s.modLane l f).memsOk := h.modLaneTo (by rw [hf]; exact h.lane l)

theorem State.memsOk.modCluster {k : Fin 12} {f : Cluster → Cluster} (h : s.memsOk)
    (hf : ∀ x, (f x).memsOk = x.memsOk := by exact fun _ => rfl) : (s.modCluster k f).memsOk :=
  h.modClusterTo ((hf _).trans (h.cluster k))

theorem State.memsOk.enginesTo {v : Vector Engine 6} (h : s.memsOk) (hv : ∀ e, (v.get e).memsOk = true) :
    ({ s with engines := v } : State).memsOk := ⟨h.1, h.2.1, h.2.2.1, hv, h.2.2.2.2⟩

theorem State.memsOk.lanesTo {v : Vector Lane 96} (h : s.memsOk) (hv : ∀ l, (v.get l).loc.wf = true) :
    ({ s with lanes := v } : State).memsOk := ⟨h.1, h.2.1, h.2.2.1, h.eng, hv, h.cluster⟩

theorem State.memsOk.clustersTo {v : Vector Cluster 12} (h : s.memsOk) (hv : ∀ k, (v.get k).memsOk = true) :
    ({ s with clusters := v } : State).memsOk := ⟨h.1, h.2.1, h.2.2.1, h.eng, h.lane, hv⟩

/-- A change of every engine that leaves its memories. -/
theorem State.memsOk.updEngines {f : Eng → Engine → Engine} (h : s.memsOk) (hf : ∀ e x, (f e x).memsOk = x.memsOk) :
    ({ s with engines := updAll s.engines f } : State).memsOk :=
  h.enginesTo fun e => by rw [updAll_get, hf]; exact h.eng e

theorem State.memsOk.updLanes {f : LaneNo → Lane → Lane} (h : s.memsOk) (hf : ∀ l x, (f l x).loc = x.loc) :
    ({ s with lanes := updAll s.lanes f } : State).memsOk :=
  h.lanesTo fun l => by rw [updAll_get, hf]; exact h.lane l

theorem State.memsOk.updClusters {f : Fin 12 → Cluster → Cluster} (h : s.memsOk) (hf : ∀ k x, (f k x).memsOk = x.memsOk) :
    ({ s with clusters := updAll s.clusters f } : State).memsOk :=
  h.clustersTo fun k => by rw [updAll_get, hf]; exact h.cluster k

/-! ### Branches and folds -/

protected theorem State.memsOk.ite {c : Prop} {_ : Decidable c} (hs : s.memsOk) (ht : t.memsOk) : (if c then s else t).memsOk := by
  split
  · exact hs
  · exact ht

protected theorem State.memsOk.dite {c : Prop} {_ : Decidable c} {a : c → State} {b : ¬ c → State} (ha : ∀ hc, (a hc).memsOk)
    (hb : ∀ hc, (b hc).memsOk) : (if hc : c then a hc else b hc).memsOk := by
  split
  · exact ha _
  · exact hb _

/-! The branches of a read, which answers a value and the state. -/

theorem State.memsOk.readIte {α : Type} {c : Prop} {_ : Decidable c} {x y : α × State} (hx : x.2.memsOk) (hy : y.2.memsOk) :
    (if c then x else y).2.memsOk := by
  split
  · exact hx
  · exact hy

theorem State.memsOk.readDite {α : Type} {c : Prop} {_ : Decidable c} {x : c → α × State} {y : ¬ c → α × State}
    (hx : ∀ hc, (x hc).2.memsOk) (hy : ∀ hc, (y hc).2.memsOk) : (if hc : c then x hc else y hc).2.memsOk := by
  split
  · exact hx _
  · exact hy _

/-- A change made under a condition. -/
theorem State.memsOk.whenDone {c : Prop} {_ : Decidable c} (h : s.memsOk) (f : s.memsOk → t.memsOk) :
    (if c then t else s).memsOk := (f h).ite h

/-- A change made unless a condition holds. -/
theorem State.memsOk.unlessDone {c : Prop} {_ : Decidable c} (h : s.memsOk) (f : s.memsOk → t.memsOk) :
    (if c then s else t).memsOk := h.ite (f h)

protected theorem State.memsOk.forEach {α : Type} {l : List α} {f : α → State → State} (h : s.memsOk)
    (hf : ∀ x t, t.memsOk → (f x t).memsOk) : (forEach l f s).memsOk := by
  induction l generalizing s with
  | nil => exact h
  | cons x l ih => exact ih (hf x s h)

protected theorem State.memsOk.foldl {α : Type} {l : List α} {f : State → α → State} (h : s.memsOk)
    (hf : ∀ t x, t.memsOk → (f t x).memsOk) : (l.foldl f s).memsOk := h.forEach fun x t => hf t x

/-- A fold that carries the state as the last component of what it gathers. -/
theorem foldl_memsOk {α β γ : Type} {l : List α} {f : β × γ × State → α → β × γ × State} {a : β × γ × State} (ha : a.2.2.memsOk)
    (hf : ∀ a x, a.2.2.memsOk → (f a x).2.2.memsOk) : (l.foldl f a).2.2.memsOk := by
  induction l generalizing a with
  | nil => exact ha
  | cons x l ih => exact ih (hf a x ha)

/-! ### Memories written through the model's own helpers -/

theorem Mem.foldl_wf {α : Type} {l : List α} {f : Mem → α → Mem} {m : Mem} (hm : m.wf = true)
    (hf : ∀ (m : Mem) x, m.wf = true → (f m x).wf = true) : (l.foldl f m).wf = true := by
  induction l generalizing m with
  | nil => exact hm
  | cons x l ih => exact ih (hf m x hm)

theorem ringDiscard_wf {m : Mem} {base : Nat} (h : m.wf = true) : (ringDiscard m base).wf = true :=
  Mem.setWord_wf _ _ (Mem.foldl_wf h fun _ _ => Mem.set_wf _ _)

theorem ringFinish_wf {m : Mem} {base i : Nat} {code : Byte} (h : m.wf = true) : (ringFinish m base i code).wf = true :=
  Mem.setWord_wf _ _ (Mem.set_wf _ _ h)

theorem Engine.ringDrop_memsOk {en : Engine} {base : Nat} (h : en.memsOk = true) : (en.ringDrop base).memsOk = true := by
  rw [Engine.memsOk_iff] at h ⊢
  dsimp only [Engine.ringDrop, Engine.ciFresh]
  exact h.imp_right ringDiscard_wf

theorem Engine.memsOk_setSt {en : Engine} {st : BitVec 4} : ({ en with st := st } : Engine).memsOk = en.memsOk := rfl

theorem Lane.putLocal_wf {x : Lane} {a : Nat} {ws : List W} (h : x.loc.wf = true) : (x.putLocal a ws).loc.wf = true :=
  Mem.write_wf _ _ h

theorem Lane.foldl_putLocal_wf {x : Lane} {l : List (Nat × List W)} {a : Nat × List W → Nat} (h : x.loc.wf = true) :
    (l.foldl (fun (x : Lane) e => x.putLocal (a e) e.2) x).loc.wf = true := by
  induction l generalizing x with
  | nil => exact h
  | cons e l ih => exact ih (Lane.putLocal_wf h)

theorem Cluster.putTile_memsOk {k : Cluster} {ws : List (Nat × List Byte)} (h : k.memsOk = true) : (k.putTile ws).memsOk = true :=
  have ⟨hk, ht⟩ := Cluster.memsOk_iff.mp h
  Cluster.memsOk_iff.mpr ⟨hk, Mem.foldl_wf ht fun _ _ => Mem.write_wf _ _⟩

theorem Store.poisonWord_wf {t : Store} {w : Nat} (h : t.mem.wf = true) : (t.poisonWord w).mem.wf = true := Mem.write_wf _ _ h

theorem NvWrite.putGroup_wf {w : NvWrite} {m : Mem} {g : Nat} (h : m.wf = true) : (w.putGroup m g).wf = true :=
  Mem.foldl_wf h fun _ _ => Mem.write_wf _ _

theorem applyNvWrite_wf {m : Mem} {w : NvWrite} (h : m.wf = true) : (applyNvWrite m w).wf = true := by
  unfold applyNvWrite
  split
  · exact Mem.foldl_wf h fun _ _ => NvWrite.putGroup_wf
  · exact Mem.write_wf _ _ h

theorem Nv.interrupt_wf {n : Nv} {k : Nat} (h : n.mem.wf = true) : (n.interrupt k).mem.wf = true := by
  unfold Nv.interrupt
  split
  · exact h
  · exact Mem.foldl_wf h fun _ _ => NvWrite.putGroup_wf

theorem latchRoutes_memsOk {src : Nat} {en : Engine} : (latchRoutes src en).memsOk = en.memsOk := by
  rw [latchRoutes_eq]
  rfl

theorem State.reset_memsOk : State.reset.memsOk := by
  refine ⟨rfl, rfl, rfl, fun e => ?_, fun l => ?_, fun k => ?_⟩
  · exact congrArg Engine.memsOk (Vector.getElem_replicate e.isLt)
  · exact congrArg (fun x : Lane => x.loc.wf) (Vector.getElem_replicate l.isLt)
  · exact congrArg Cluster.memsOk (Vector.getElem_replicate k.isLt)

/-! ### Outcomes -/

/-- The memories are canonical in the state that a command answers. -/
def Out.memsOk : Out → Prop
  | .next t => t.memsOk
  | _ => True

protected theorem Out.memsOk.ite {c : Prop} {_ : Decidable c} {x y : Out} (hx : x.memsOk) (hy : y.memsOk) :
    (if c then x else y).memsOk := by
  split
  · exact hx
  · exact hy

protected theorem Out.memsOk.dite {c : Prop} {_ : Decidable c} {x : c → Out} {y : ¬ c → Out} (hx : ∀ hc, (x hc).memsOk)
    (hy : ∀ hc, (y hc).memsOk) : (if hc : c then x hc else y hc).memsOk := by
  split
  · exact hx _
  · exact hy _

end Sys2Proof.Machine
end

section
/-! SUPPORT. What keeps the memories canonical (R240, log entry 2), each lemma after its definition: the operations that commands share:
events, the link, the almanac, the store, faults, outputs, parameters, the NV store, engines, clocks, operands. -/
namespace Sys2Proof.Machine
set_option Elab.async false
variable {s : State}

/-! ### Machine/Events -/

theorem State.memsOk.count {i n : Nat} (h : s.memsOk) : (s.count i n).memsOk := h.modEvents

theorem State.memsOk.trace {ty src : Nat} {body : List Byte} (h : s.memsOk) : (s.trace ty src body).memsOk :=
  (h.free.modEvents.modEvents.ite h.free.modEvents.modEvents).ite h

theorem State.memsOk.traceFlow {e : Eng} {c : Fin 4} {reason : Nat} {target : W} {cause : List Byte} (h : s.memsOk) :
    (s.traceFlow e c reason target cause).memsOk :=
  h.trace.ite h

theorem State.memsOk.occur {src : Nat} (h : s.memsOk) : (s.occur src).memsOk := by
  unfold State.occur
  split
  · extract_lets _ _ _ s2 s3 s4 s5
    have h2 : s2.memsOk := h.modEvents
    have h3 : s3.memsOk := h2.count
    have h4 : s4.memsOk := h3.count.ite h3
    have h5 : s5.memsOk := h4.trace.ite h4
    exact h5.updEngines fun _ _ => latchRoutes_memsOk
  · exact h

theorem State.memsOk.latch {e : Eng} {c : Fin 4} {input : Nat} (h : s.memsOk) : (s.latch e c input).memsOk := h.modEng

theorem State.memsOk.islandReset {i : Nat} (h : s.memsOk) : (s.islandReset i).memsOk := h.ite h.modClocks.occur

theorem State.memsOk.islandOut {i : Nat} (h : s.memsOk) : (s.islandOut i).memsOk := h.modClocks

/-! ### Machine/LinkBase -/

theorem State.memsOk.linkPut {f : LinkFrame} (h : s.memsOk) : (s.linkPut f).memsOk := h.modTwin.whenDone fun h => h.occur

theorem State.memsOk.linkPump {n : Nat} (h : s.memsOk) : (State.linkPump n s).memsOk := by
  induction n generalizing s with
  | zero => exact h
  | succ n ih =>
    unfold State.linkPump
    split
    · exact (ih h.modTwin.linkPut).ite h
    · exact h

theorem State.memsOk.linkSendAll {type : Byte} {cls : Nat} {p : Port} {payloads : List (List W)} (h : s.memsOk) :
    (s.linkSendAll type cls p payloads).memsOk :=
  h.modTwin.linkPump.whenDone fun h => h.occur

theorem State.memsOk.linkSend {type : Byte} {cls : Nat} {p : Port} {payload : List W} (h : s.memsOk) :
    (s.linkSend type cls p payload).memsOk :=
  h.linkSendAll

theorem State.memsOk.sendRecord {r : Rec} (h : s.memsOk) : (s.sendRecord r).memsOk := h.linkSend.ite h

theorem State.memsOk.linkDiscard (h : s.memsOk) : s.linkDiscard.memsOk := h.count

theorem State.memsOk.linkRetrain (h : s.memsOk) : s.linkRetrain.memsOk := h.modTwin.occur.islandReset.islandOut.whenDone fun h => h.modTwin

theorem State.memsOk.rxBad (h : s.memsOk) : s.rxBad.memsOk := h.modTwin.occur.whenDone fun h => h.linkRetrain

theorem State.memsOk.rxAck {ack : Byte} (h : s.memsOk) : (s.rxAck ack).memsOk := h.modTwin.linkPump

theorem State.memsOk.linkRx (h : s.memsOk) : s.linkRx.memsOk := h.modTwin

theorem State.memsOk.onClass0 {hd : RxHdr} {body : State → State} (h : s.memsOk) (hbody : ∀ t, t.memsOk → (body t).memsOk) :
    (s.onClass0 hd body).memsOk :=
  h.ite (h.rxBad.ite (hbody _ h.rxAck))

theorem State.memsOk.onFrame {hd : RxHdr} {takes : State → Bool} {body : State → State} (h : s.memsOk)
    (hbody : ∀ t, t.memsOk → (body t).memsOk) :
    (s.onFrame hd takes body).memsOk :=
  h.ite (h.rxBad.ite (h.rxAck.modTwin.ite (h.rxAck.whenDone fun h => hbody _ h.linkRx)))

theorem State.memsOk.onLink {hd : RxHdr} {body : State → State} (h : s.memsOk) (hbody : ∀ t, t.memsOk → (body t).memsOk) :
    (s.onLink hd body).memsOk :=
  h.onFrame hbody

/-! ### Machine/Almanac -/

theorem State.memsOk.queueRec {r : Rec} {who : Option Req} (h : s.memsOk) : (s.queueRec r who).memsOk :=
  h.modNv.whenDone fun h => h.sendRecord

theorem State.memsOk.queueStamp {sel : Nat → Bool} (h : s.memsOk) : (s.queueStamp sel).memsOk := h.modNv.forEach fun _ _ h => h.sendRecord

theorem State.memsOk.queueTake (h : s.memsOk) : s.queueTake.memsOk := h.modNv.queueStamp

theorem State.memsOk.note {code sev src : Nat} {payload : List W} (h : s.memsOk) : (s.note code sev src payload).memsOk := h.queueRec

theorem State.memsOk.noteRefused {blk idx : Nat} (h : s.memsOk) : (s.noteRefused blk idx).memsOk := h.note

theorem State.memsOk.noteTwin {src : Nat} (h : s.memsOk) : (s.noteTwin src).memsOk := h.note

/-! ### Machine/Bellows -/

theorem State.memsOk.blwShut {c : Fin 8} (h : s.memsOk) : (s.blwShut c).memsOk := h.modBlw.ite h

theorem State.memsOk.parFollow {c : Fin 8} (h : s.memsOk) : (s.parFollow c).memsOk := h.modBlw

theorem State.memsOk.blwOccur {c : Fin 8} {k : Nat} (h : s.memsOk) : (s.blwOccur c k).memsOk := by
  unfold State.blwOccur
  split
  · exact h.occur.ite h
  · exact h.occur

theorem State.memsOk.blwRefuse {c : Fin 8} (h : s.memsOk) : (s.blwRefuse c).memsOk := h.modBlw.blwOccur

theorem State.memsOk.blwGrant {c : Fin 8} {resumed test : Bool} (h : s.memsOk) : (s.blwGrant c resumed test).memsOk := h.modBlw.blwOccur

theorem State.memsOk.blwRequest {c : Fin 8} {resumed test : Bool} (h : s.memsOk) : (s.blwRequest c resumed test).memsOk :=
  h.blwRefuse.ite (h.blwGrant.ite (h.blwRefuse.ite h.modBlw.blwOccur))

theorem State.memsOk.blwReeval {c : Fin 8} (h : s.memsOk) : (s.blwReeval c).memsOk := by
  unfold State.blwReeval
  extract_lets _
  split
  · exact h.blwGrant.ite h
  · exact h

theorem State.memsOk.blwRelease {c : Fin 8} (h : s.memsOk) : (s.blwRelease c).memsOk :=
  (h.modUnit.ite h).modBlw.ite ((h.modUnit.ite h).modBlw.blwReeval.ite ((h.modUnit.ite h).whenDone fun h => h.modBlw))

theorem State.memsOk.blwCut {c : Fin 8} (h : s.memsOk) : (s.blwCut c).memsOk := (h.modUnit.ite h).modBlw.blwReeval.parFollow

theorem State.memsOk.blwAction {c : Fin 8} {pulse : Bool} (h : s.memsOk) : (s.blwAction c pulse).memsOk :=
  h.ite (h.blwRefuse.ite (h.modBlw.ite (h.modBlw.blwRequest.ite h.blwRefuse)))

theorem State.memsOk.blwShutdown (h : s.memsOk) : s.blwShutdown.memsOk := h.frame.forEach fun _ _ h => h.blwRelease

theorem State.memsOk.blwLowVact (h : s.memsOk) : s.blwLowVact.memsOk := h.forEach fun _ _ h => h.blwRelease.blwRefuse.ite h

/-! ### Machine/StoreOps -/

theorem State.memsOk.rowDetect {ch : Fin 16} {bank row : Nat} {cause : Byte} (h : s.memsOk) : (s.rowDetect ch bank row cause).memsOk := by
  unfold State.rowDetect
  extract_lets _
  refine .ite h ?_
  refine .ite h.modStore ?_
  split
  · exact h.modStore
  · exact h.modFm

theorem State.memsOk.copyWord {w : Nat} (h : s.memsOk) : (s.copyWord w).memsOk :=
  h.modStore.ite ((h.modStoreTo (Store.poisonWord_wf h.store)).occur.ite (h.modStore.occur.ite h))

theorem State.memsOk.checkWord {w : Nat} (h : s.memsOk) : (s.checkWord w).memsOk :=
  h.copyWord.ite (h.copyWord.rowDetect.ite ((h.copyWord.rowDetect.ite h.copyWord).ite h))

theorem State.memsOk.copyWords {at' : Nat → Bool} (h : s.memsOk) : (s.copyWords at').memsOk := h.forEach fun _ _ h => h.copyWord

theorem State.memsOk.countLines {a n : Nat} (h : s.memsOk) : (s.countLines a n).memsOk := h.ite (h.forEach fun _ _ h => h.count)

theorem State.memsOk.storeCheck {a n : Nat} (h : s.memsOk) : (s.storeCheck a n).memsOk := h.countLines.forEach fun _ _ h => h.checkWord

theorem State.memsOk.storeRead {a n : Nat} (h : s.memsOk) : (s.storeRead a n).2.memsOk := h.storeCheck

theorem State.memsOk.storePart {a : Nat} {bs : List Byte} (h : s.memsOk) : (s.storePart a bs).memsOk :=
  (h.modStoreTo (Mem.write_wf _ _ h.store)).ite
    (h.checkWord.modStore.ite (h.checkWord.modStoreTo (Mem.write_wf _ _ h.checkWord.store)))

theorem State.memsOk.storeParts {fuel a : Nat} {bs : List Byte} (h : s.memsOk) : (State.storeParts fuel a bs s).memsOk := by
  induction fuel generalizing a bs s with
  | zero => exact h
  | succ fuel ih =>
    unfold State.storeParts
    exact h.ite (ih h.storePart)

theorem State.memsOk.storeWrite {a : Nat} {bs : List Byte} (h : s.memsOk) : (s.storeWrite a bs).memsOk := h.countLines.storeParts

/-! ### Machine/FaultBase -/

theorem State.memsOk.dropOwner (h : s.memsOk) : s.dropOwner.memsOk :=
  (h.modTwin.occur.occur.occur.noteTwin.forEach fun _ _ h => h.blwRelease).ite h

theorem State.memsOk.yieldDue (h : s.memsOk) : s.yieldDue.memsOk := (h.modTwin.ite h.modTwin.occur.noteTwin).ite h

theorem State.memsOk.setFault (h : s.memsOk) : s.setFault.memsOk := h.modFm

theorem State.memsOk.life {i : Fin 6} (h : s.memsOk) : (s.life i).memsOk := h.modNv

theorem State.memsOk.fmDecide {uid : W} {cause : Byte} {out : Nat} (h : s.memsOk) : (s.fmDecide uid cause out).memsOk := h.modFm.note

theorem State.memsOk.fmPermanent (h : s.memsOk) : s.fmPermanent.memsOk := h.modFm.life.setFault

theorem State.memsOk.fmOutcome {r : Option Req} {uid : W} {out : Nat} (h : s.memsOk) : (s.fmOutcome r uid out).memsOk := by
  unfold State.fmOutcome
  split
  · exact h.modFm
  · exact h

theorem State.memsOk.fmDeliver (h : s.memsOk) : s.fmDeliver.memsOk :=
  h.foldl fun _ _ h => (h.modFm.modEng.forEach fun _ _ h => h.latch).latch.ite h

theorem State.memsOk.programError {u : Fin 182} {cause : Byte} {addr word : W} (h : s.memsOk) : (s.programError u cause addr word).memsOk :=
  h.modFm.life.note

theorem State.memsOk.sensorChange {u : Fin 182} (h : s.memsOk) : (s.sensorChange u).memsOk := .dite (fun _ => h.occur) fun _ => h

theorem State.memsOk.inService {u : Fin 182} (h : s.memsOk) : (s.inService u).memsOk :=
  .dite (fun _ => h.sensorChange.modUnit.modBlw) fun _ => h.sensorChange.modUnit

theorem State.memsOk.countTransient {u : Fin 182} (h : s.memsOk) : (s.countTransient u).memsOk := h.modUnit

theorem State.memsOk.uncountTransient {u : Fin 182} (h : s.memsOk) : (s.uncountTransient u).memsOk := h.modUnit

theorem State.memsOk.closeTransient {u : Fin 182} (h : s.memsOk) : (s.closeTransient u).memsOk :=
  h.sensorChange.fmPermanent.fmDecide.fmOutcome.modUnit.ite h.modFm.life.fmDecide.fmOutcome.inService.modUnit

theorem State.memsOk.isolate {u : Fin 182} {cause : Byte} (h : s.memsOk) : (s.isolate u cause).memsOk := by
  unfold State.isolate
  extract_lets s1
  have h1 : s1.memsOk := h.sensorChange.modUnit
  exact .dite (fun _ => h1.modLane) fun _ => .dite (fun _ => h1.modBlw.blwRelease.blwShut.parFollow) fun _ => .dite (fun _ => h1.modEng)
    fun _ => h1

theorem State.memsOk.retryRepeats {u : Fin 182} {cause : Byte} {exc : Option (Byte × W × W)} (h : s.memsOk) :
    (s.retryRepeats u cause exc).memsOk :=
  h.uncountTransient.programError.fmOutcome.inService.modUnit

theorem State.memsOk.detect {u : Fin 182} {cause : Byte} {exc : Option (Byte × W × W)} (h : s.memsOk) : (s.detect u cause exc).memsOk :=
  h.ite (h.isolate.ite (h.modUnit.ite ((h.isolate.ite (h.retryRepeats.ite (h.closeTransient.whenDone fun h => h.isolate))).ite h)))

theorem State.memsOk.retryDone {u : Fin 182} (h : s.memsOk) : (s.retryDone u).memsOk := h.closeTransient.ite h

/-! ### Machine/OutputBase -/

theorem State.memsOk.streamRecord {st : Fin 8} (h : s.memsOk) : (s.streamRecord st).memsOk := h.storeWrite

theorem State.memsOk.streamFinal {st : Fin 8} {f : OutFrame} (h : s.memsOk) : (s.streamFinal st f).memsOk := h.modStream

theorem State.memsOk.streamEnded {st : Fin 8} {f : OutFrame} (h : s.memsOk) : (s.streamEnded st f).memsOk := h.modStream.streamRecord.occur

theorem State.memsOk.streamFrameOver {st : Fin 8} {f : OutFrame} (h : s.memsOk) : (s.streamFrameOver st f).memsOk :=
  h.streamFinal.streamEnded

theorem State.memsOk.streamCut {st : Fin 8} (h : s.memsOk) : (s.streamCut st).memsOk := by
  unfold State.streamCut
  extract_lets _
  split
  · exact h
  · exact h.streamFinal.modStream.occur.occur

theorem State.memsOk.streamChange {st : Fin 8} {o n : PMap} (h : s.memsOk) : (s.streamChange st o n).memsOk :=
  h.modStream.modStream.ite ((h.modStream.modStream.whenDone fun h => h.streamCut).ite (h.modStream.whenDone fun h => h.modStream))

theorem State.memsOk.txDiscard {x : Fin 2} (h : s.memsOk) : (s.txDiscard x).memsOk := h.count.forEach fun _ _ h => h.modStream

theorem State.memsOk.txChange {x : Fin 2} {o n : PMap} (h : s.memsOk) : (s.txChange x o n).memsOk :=
  ((h.modTx.whenDone fun h => h.modTx.occur).txDiscard.islandReset.modClocks.ite (h.modTx.whenDone fun h => h.islandOut)).whenDone
    fun h => h.modTx.occur.whenDone fun h => h.occur

theorem State.memsOk.markStreams {p : Port} {m : W} {patched held : Bool} {prev : Option (Fin 4)} (h : s.memsOk) :
    (s.markStreams p m patched held prev).memsOk :=
  h.frame.forEach fun _ _ h => h.streamRecord

theorem State.memsOk.outputsGain (h : s.memsOk) : s.outputsGain.memsOk := h.frame.occur.occur

/-! ### Machine/Apply -/

theorem State.memsOk.transitWake {p : Port} (h : s.memsOk) : (s.transitWake p).memsOk := h.modTransit.forEach fun _ _ h => h.latch

theorem State.memsOk.transitAbandonNow {code : Nat} {asPartner : Bool} (h : s.memsOk) : (s.transitAbandonNow code asPartner).memsOk := by
  unfold State.transitAbandonNow
  split
  · exact h
  · exact h.ite ((h.modTransit.modTPort.whenDone fun h => h.blwRelease).modPort.note.transitWake.whenDone fun h => h.detect.whenDone
      fun h => h.modBlw)

theorem State.memsOk.transitAbandon {code : Nat} {asPartner : Bool} (h : s.memsOk) : (s.transitAbandon code asPartner).memsOk :=
  (h.modTransit.ite h).ite h.transitAbandonNow

theorem State.memsOk.transitAbandonPort {p : Port} {code : Nat} (h : s.memsOk) : (s.transitAbandonPort p code).memsOk := by
  unfold State.transitAbandonPort
  split
  · exact h.transitAbandon.ite h
  · exact h

theorem State.memsOk.refuseBlock {blk idx : Nat} (h : s.memsOk) : (s.refuseBlock blk idx).memsOk := h.modParams.noteRefused

theorem State.memsOk.genInc {blk : Nat} (h : s.memsOk) : (s.genInc blk).memsOk := h.modParams

theorem State.memsOk.dropPending {blk : Nat} (h : s.memsOk) : (s.dropPending blk).memsOk := h.modParams

theorem State.memsOk.zonesChange {p : Port} {o n : PMap} (h : s.memsOk) : (s.zonesChange p o n).memsOk := h.modPort

theorem State.memsOk.afterP {blk : Nat} {o : PMap} (h : s.memsOk) : (s.afterP blk o).memsOk := by
  unfold State.afterP
  extract_lets _
  split
  · exact (h.modPort.ite h).ite (h.modPort.ite (h.zonesChange.ite h))
  · exact (h.streamChange.ite (.dite (fun _ => h.txChange) fun _ => h)).ite h
  · exact h

theorem State.memsOk.applyOneP {v o : PMap} {blk : Nat} {copy : PMap} (h : s.memsOk) : (State.applyOneP v o blk copy s).memsOk := by
  unfold State.applyOneP
  extract_lets s1
  have h1 : s1.memsOk := h.dropPending
  split
  · exact h1.refuseBlock
  · exact h1.modParams.genInc.afterP

theorem State.memsOk.applyBatch {l : List (Nat × PMap)} (h : s.memsOk) : (s.applyBatch l).memsOk := h.forEach fun _ _ h => h.applyOneP

theorem State.memsOk.devSettle (h : s.memsOk) : s.devSettle.memsOk := by
  unfold State.devSettle
  split
  · exact h.modParams.dropPending.genInc.ite h
  · exact h

theorem State.memsOk.devCheck {also : List (Nat × PMap)} (h : s.memsOk) : (s.devCheck also).memsOk := by
  unfold State.devCheck
  split
  · refine .ite h ?_
    extract_lets _
    split
    · exact h.dropPending.refuseBlock
    · exact h.modParams
  · exact h

theorem State.memsOk.devAdopt {p : Port} {also : List (Nat × PMap)} (h : s.memsOk) : (s.devAdopt p also).memsOk := by
  unfold State.devAdopt
  extract_lets s1
  have h1 : s1.memsOk := h.devCheck
  split
  · exact h1.modPort.modParams.devSettle.ite h1
  · exact h1

theorem State.memsOk.devEnter {p : Port} (h : s.memsOk) : (s.devEnter p).memsOk := h.modPort.modParams

theorem State.memsOk.portSync {p : Port} (h : s.memsOk) : (s.portSync p).memsOk := h.islandOut.modPort

theorem State.memsOk.clusterClock {k : Fin 12} {mhz : Nat} (h : s.memsOk) : (s.clusterClock k mhz).memsOk := by
  refine h.modCluster fun c => ?_
  repeat' split
  all_goals rfl

theorem State.memsOk.clocksTake (h : s.memsOk) : s.clocksTake.memsOk := by
  unfold State.clocksTake
  refine State.memsOk.forEach h (fun _ _ h1 => ?_)
  split
  · exact h1.clusterClock
  · exact h1

theorem State.memsOk.parkLanes {p : Port} (h : s.memsOk) : (s.parkLanes p).memsOk := h.ite (h.forEach fun _ _ h => h.clusterClock.ite h)

theorem State.memsOk.agreeNow {l : List (Nat × PMap)} (h : s.memsOk) : (s.agreeNow l).memsOk := h.ite h.linkSend

theorem State.memsOk.pendingIdle {p : Port} (h : s.memsOk) : (s.pendingIdle p).memsOk := h.applyBatch.ite (h.ite h.agreeNow.applyBatch)

theorem State.memsOk.devIdle (h : s.memsOk) : s.devIdle.memsOk := h.ite h.devCheck.devSettle

theorem State.memsOk.portLeave {p : Port} {dst : PortSt} (h : s.memsOk) : (s.portLeave p dst).memsOk := by
  unfold State.portLeave
  extract_lets s1 s2 s3
  have h1 : s1.memsOk := by
    unfold s1
    split
    · exact h.markStreams.frame
    · exact h
  have h2 : s2.memsOk := h1.modPort.parkLanes
  have h3 : s3.memsOk := h2.transitAbandonPort
  exact h3.pendingIdle.devSettle

theorem State.memsOk.portFollow {p : Port} (h : s.memsOk) : (s.portFollow p).memsOk := by
  unfold State.portFollow
  extract_lets _
  split
  · exact h.portSync.ite h
  · exact h.ite h.modPort.islandReset
  · exact h.ite h.modPort.islandReset
  · exact h

theorem State.memsOk.applyIdleP {p : Port} {blk : Nat} (h : s.memsOk) : (s.applyIdleP p blk).memsOk := by
  unfold State.applyIdleP
  split
  · exact h.applyBatch.portFollow
  · exact h

/-! ### Machine/NvBase -/

theorem State.memsOk.nvQueue {w : NvWrite} (h : s.memsOk) : (s.nvQueue w).memsOk := h.modNv

theorem State.memsOk.mapEntry {f : RMap → RMap} (h : s.memsOk) : (s.mapEntry f).memsOk := h.modFm.modNv

/-! ### Machine/EngineBase -/

theorem State.memsOk.dataFix {e : Eng} {a n : Nat} (h : s.memsOk) : (s.dataFix e a n).memsOk :=
  h.ite (h.modEng.forEach fun _ _ h => h.occur)

theorem State.memsOk.ringFix {e : Eng} {base : Nat} (h : s.memsOk) : (s.ringFix e base).memsOk := by
  unfold State.ringFix
  extract_lets s1
  have h1 : s1.memsOk := h.dataFix
  split
  · exact h1.dataFix
  · exact h1

theorem State.memsOk.mp1Detach {e : Eng} (h : s.memsOk) : (s.mp1Detach e).memsOk := by
  refine h.modSerial fun x => ?_
  repeat' split
  all_goals rfl

theorem State.memsOk.ceRestart (h : s.memsOk) : s.ceRestart.memsOk := h.modQueue.modEng

theorem State.memsOk.engReset {e : Eng} (h : s.memsOk) : (s.engReset e).memsOk := by
  unfold State.engReset
  extract_lets s1 s2 _ s3 s4
  have h1 : s1.memsOk := h.dataFix
  have h2 : s2.memsOk := h1.ite h1.dataFix
  have h3 : s3.memsOk := by
    refine h2.modEngTo ?_
    split
    · exact h2.eng e
    · exact Engine.memsOk_iff.mpr ⟨h2.prog e, Mem.setWord_wf _ _ (h2.data e)⟩
  have h4 : s4.memsOk := h3.ite h3.mp1Detach
  exact h4.ceRestart.ite h4

theorem State.memsOk.engStart {e : Eng} (h : s.memsOk) : (s.engStart e).memsOk := h.engReset.modEng

theorem State.memsOk.swTake (h : s.memsOk) : s.swTake.memsOk := by
  unfold State.swTake
  split
  · exact h
  · exact h.modSerial.whenDone fun h => h.occur

theorem State.memsOk.mp0Discard (h : s.memsOk) : s.mp0Discard.memsOk := by
  unfold State.mp0Discard
  extract_lets t
  have ht : t.memsOk := h.modEngTo (Engine.ringDrop_memsOk (h.eng _))
  refine State.memsOk.swTake (ht.modSerial fun x => ?_)
  split <;> rfl

theorem State.memsOk.meRestart (h : s.memsOk) : s.meRestart.memsOk := h.ite h.mp0Discard.modBoot

theorem State.memsOk.engException {e : Eng} {cause : Byte} {data : W} (h : s.memsOk) : (s.engException e cause data).memsOk :=
  h.modEng.traceFlow.occur.detect.ite (h.modEng.traceFlow.occur.programError.whenDone fun h => h.meRestart)

theorem State.memsOk.giveUp {v : Invoc} (h : s.memsOk) : (s.giveUp v).memsOk := h.forEach fun _ _ h => h.free.free.modPort

theorem State.memsOk.noRetry {l : LaneNo} (h : s.memsOk) : (s.noRetry l).memsOk := by
  unfold State.noRetry
  extract_lets s1
  have h1 : s1.memsOk := h.modFm
  split
  · exact h1.giveUp.modLane
  · exact h1

theorem State.memsOk.dropInvoc {l : LaneNo} (h : s.memsOk) : (s.dropInvoc l).memsOk := by
  unfold State.dropInvoc
  extract_lets s1
  have h1 : s1.memsOk := by
    unfold s1
    split
    · exact h.giveUp
    · exact h
  exact h1.modLane

theorem State.memsOk.clusterReset {k : Fin 12} (h : s.memsOk) : (s.clusterReset k).memsOk :=
  h.islandReset.count.forEach fun _ _ h => h.modLane

theorem State.memsOk.clusterDetect {k : Fin 12} {cause : Byte} (h : s.memsOk) : (s.clusterDetect k cause).memsOk :=
  h.detect.whenDone fun h => h.clusterReset.forEach fun _ _ h => h.dropInvoc

theorem State.memsOk.laneException {l : LaneNo} {cause : Byte} {data : W} {tile : Bool} (h : s.memsOk) :
    (s.laneException l cause data tile).memsOk :=
  h.modLane.occur.detect.dropInvoc.ite (h.modLane.occur.dropInvoc.clusterDetect.ite h.modLane.occur.dropInvoc.programError.retryDone)

theorem State.memsOk.raise {ag : Agent} {cause : Byte} {data : W} (h : s.memsOk) : (s.raise ag cause data).memsOk := by
  unfold State.raise
  split
  · exact h.engException
  · exact h.laneException

theorem State.memsOk.stopSettle {e : Eng} (h : s.memsOk) : (s.stopSettle e).memsOk := h.modEng.ite h

theorem State.memsOk.stopsTake (h : s.memsOk) : s.stopsTake.memsOk := h.forEach fun _ _ h => h.modEng.stopSettle.ite h

/-! ### Machine/Retire -/

theorem State.memsOk.chanRetire {ch : Fin 16} {cause : Byte} {who : Option Req} {decided : Bool} (h : s.memsOk) :
    (s.chanRetire ch cause who decided).memsOk := by
  unfold State.chanRetire
  split
  · exact h.ite h.modStore.setFault.fmDecide.yieldDue
  · extract_lets _ s1 s2 s3
    have h1 : s1.memsOk := h.ite (h.ite h.fmPermanent).fmDecide.fmOutcome
    have h2 : s2.memsOk := h1.mapEntry
    have h3 : s3.memsOk := h2.modStoreTo (Mem.filter_wf _ h2.store)
    exact h3.occur

theorem State.memsOk.bankRetire {ch : Fin 16} {bank : Nat} {cause : Byte} {who : Option Req} {decided : Bool} (h : s.memsOk) :
    (s.bankRetire ch bank cause who decided).memsOk :=
  h.ite (h.chanRetire.ite ((h.ite h.fmPermanent).unlessDone fun h => h.fmDecide.fmOutcome).copyWords.mapEntry.occur)

theorem State.memsOk.rowRetire {q : RowSeq} (h : s.memsOk) : (s.rowRetire q).memsOk :=
  h.modStore.chanRetire.ite (h.modStore.mapEntry.occur.whenDone fun h => h.bankRetire)

theorem State.memsOk.storeRetire {uid : W} {decided : Bool} (h : s.memsOk) : (s.storeRetire uid decided).memsOk := by
  unfold State.storeRetire
  extract_lets _ s1 _
  have h1 : s1.memsOk := h.modFm
  refine .ite h1.chanRetire ?_
  refine .ite h1.bankRetire ?_
  split
  · exact h1.fmDecide.fmOutcome.rowRetire
  · exact h1.chanRetire

theorem State.memsOk.migrate (h : s.memsOk) : s.migrate.memsOk := (h.copyWords.modStore.whenDone fun h => h.modStore.occur).ite h

theorem State.memsOk.portOff {p : Port} (h : s.memsOk) : (s.portOff p).memsOk := h.ite (h.portLeave.islandReset.ite h.modPort.islandReset)

theorem State.memsOk.laneGone {l : LaneNo} (h : s.memsOk) : (s.laneGone l).memsOk := by
  unfold State.laneGone
  extract_lets s1
  have h1 : s1.memsOk := by
    unfold s1
    split
    · exact h.giveUp
    · exact h
  exact h1.dropInvoc.modLane

theorem State.memsOk.transitModLost {k : Fin 8} (h : s.memsOk) : (s.transitModLost k).memsOk := by
  unfold State.transitModLost
  split
  · exact h.transitAbandon.ite h
  · exact h

theorem State.memsOk.transitLaneLost {u : Fin 182} (h : s.memsOk) : (s.transitLaneLost u).memsOk := by
  unfold State.transitLaneLost
  split
  · split
    · exact h.transitAbandon.ite h
    · exact h
  · exact h

theorem State.memsOk.retireEffect {u : Fin 182} (h : s.memsOk) : (s.retireEffect u).memsOk := by
  unfold State.retireEffect
  refine .dite (fun _ => h.transitLaneLost.laneGone) fun _ => .dite (fun _ => h.clusterReset.forEach fun _ _ h =>
    h.modUnit.mapEntry.laneGone.ite h.laneGone) fun _ => .dite (fun _ => h.portOff.setFault.yieldDue) fun _ =>
    .dite (fun _ => .dite (fun _ => h.blwRelease.blwShut.parFollow.modTPort) fun _ => h.blwRelease.blwShut.parFollow) fun _ =>
    .dite (fun _ => h.modMod.frame.transitModLost) fun _ => .dite (fun _ => ?_) fun _ => h
  extract_lets e s1 s2
  have dropped : (if e.val = 5 then s.eng e else (s.eng e).ringDrop (ringBase e)).memsOk = true := by
    split
    · exact h.eng e
    · exact Engine.ringDrop_memsOk (h.eng e)
  have h1 : s1.memsOk := h.modEngTo (Engine.memsOk_setSt.trans dropped)
  exact (h1.mp0Discard.ite h1.mp1Detach).setFault.yieldDue

theorem State.memsOk.retireUnit {u : Fin 182} (h : s.memsOk) : (s.retireUnit u).memsOk := by
  unfold State.retireUnit
  extract_lets _ s1 s2 s3
  have h1 : s1.memsOk := h.modUnit
  have h2 : s2.memsOk := h1.mapEntry.ite h1
  have h3 : s3.memsOk := by
    unfold s3
    split
    · exact h2.fmDecide.fmOutcome
    · exact h2
  exact h3.retireEffect

theorem State.memsOk.retirePending {ok : Fin 182 → Bool} {store : Bool} (h : s.memsOk) : (s.retirePending ok store).memsOk :=
  ((h.forEach fun _ _ h => h.retireUnit.ite h).whenDone fun h => (h.forEach fun _ _ h => h.rowRetire).modFm.forEach
    fun _ _ h => h.storeRetire).fmDeliver

theorem State.memsOk.failedBack (h : s.memsOk) : s.failedBack.memsOk := h.forEach fun _ _ h => h.modUnit.ite h

theorem State.memsOk.rotateBack (h : s.memsOk) : s.rotateBack.memsOk := h.forEach fun _ _ h => h.inService.modUnit.ite h

theorem State.memsOk.rotateOut {ok : Fin 182 → Bool} (h : s.memsOk) : (s.rotateOut ok).memsOk := h.forEach fun _ _ h => h.modUnit.ite h

theorem State.memsOk.settleIdle (h : s.memsOk) : s.settleIdle.memsOk :=
  h.ite h.failedBack.retirePending.rotateBack.rotateOut.stopsTake.devIdle

theorem State.memsOk.settleUnit {u : Fin 182} (h : s.memsOk) : (s.settleUnit u).memsOk := h.settleIdle.ite h

/-! ### Machine/Bands -/

theorem State.memsOk.kernelLoad {k : Fin 12} {slot : Fin 16} (h : s.memsOk) : (s.kernelLoad k slot).memsOk := by
  unfold State.kernelLoad
  extract_lets _ r s1 _ _ s2
  have h1 : s1.memsOk := h.storeRead
  have h2 : s2.memsOk := by
    refine h1.modClusterTo (Cluster.memsOk_iff.mpr ?_)
    dsimp only
    exact ⟨Mem.write_wf 0 r.1 rfl, h1.tile k⟩
  exact h2.forEach fun _ _ h => h.modLane

theorem State.memsOk.clusterSet {k : Fin 12} {slot : Option (Fin 16)} {mhz : Nat} (h : s.memsOk) : (s.clusterSet k slot mhz).memsOk := by
  unfold State.clusterSet
  extract_lets _ s1
  have h1 : s1.memsOk := by
    unfold s1
    split
    · exact h.modCluster.ite (h.modCluster.ite h.kernelLoad)
    · exact h
  exact h1.clusterClock

theorem State.memsOk.clustersSet {p : Port} {v : PMap} {pl : Plan} {stage : Nat} {duty : Option (Fin 12)} (h : s.memsOk) :
    (s.clustersSet p v pl stage duty).memsOk := by
  unfold State.clustersSet
  extract_lets _ _
  refine State.memsOk.forEach h (fun _ _ h1 => ?_)
  split
  · exact h1.clusterSet.ite (h1.clusterSet.ite h1.clusterSet)
  · exact h1.clusterSet.ite h1

theorem State.memsOk.parkPeers (h : s.memsOk) : s.parkPeers.memsOk := h.forEach fun _ _ h => h.modUnit.ite (h.modUnit.ite h)

theorem State.memsOk.bandsSet {p : Port} {stage : Nat} (h : s.memsOk) : (s.bandsSet p stage).memsOk := by
  unfold State.bandsSet
  exact (h.parkPeers.modPort.modFm.whenDone fun h => h.setFault).clustersSet

theorem State.memsOk.stageIdle {stage : Nat} (h : s.memsOk) : (s.stageIdle stage).memsOk := h.ite h.clustersSet

/-! ### Machine/ThermalBase -/

theorem State.memsOk.stageFollow {old : Nat} (h : s.memsOk) : (s.stageFollow old).memsOk := h.ite h.note.stageIdle

theorem State.memsOk.stageCarry {n : Nat} (h : s.memsOk) : (s.stageCarry n).memsOk := h.modThermal.stageFollow

theorem State.memsOk.setZone {z : Fin 4} {n : Fin 5} (h : s.memsOk) : (s.setZone z n).memsOk := h.ite h.modThermal.note.stageFollow

theorem State.memsOk.zoneAfter {z : Fin 4} {wasHot : Bool} (h : s.memsOk) : (s.zoneAfter z wasHot).memsOk := h.setZone.ite (h.setZone.ite h)

theorem State.memsOk.sensorNews {o : State} (h : s.memsOk) : (s.sensorNews o).memsOk :=
  h.forEach fun _ _ h => (h.occur.ite h).unlessDone fun h => h.occur

theorem State.memsOk.thermalApply {ws : List W} {seq : Byte} (h : s.memsOk) : (s.thermalApply ws seq).memsOk :=
  ((h.modThermal.forEach fun _ _ h => h.modSensor.ite h).forEach fun _ _ h => h.zoneAfter).sensorNews

theorem State.memsOk.thermalTake (h : s.memsOk) : s.thermalTake.memsOk := h.ite (h.dataFix.thermalApply.ite h.dataFix.modThermal.note)

/-! ### Machine/NvOps -/

theorem State.memsOk.nvRead {a n : Nat} (h : s.memsOk) : (s.nvRead a n).2.memsOk :=
  (h.forEach fun _ _ h => h.modNv.occur).forEach fun _ _ h => h.modNv.note.occur

theorem State.memsOk.itemCheck {t : NvItem} (h : s.memsOk) : (s.itemCheck t).memsOk := by
  unfold State.itemCheck
  exact h.nvRead.nvRead.whenDone fun h => h.occur

theorem State.memsOk.takeCounters {ws : List W} (h : s.memsOk) : (s.takeCounters ws).memsOk := h.modNv.modTransit

theorem State.memsOk.saveCounters {src : NvSrc} (h : s.memsOk) : (s.saveCounters src).memsOk := h.modNv

theorem State.memsOk.flushPages (h : s.memsOk) : s.flushPages.memsOk := h.modNv

theorem State.memsOk.flushNext (h : s.memsOk) : s.flushNext.memsOk := h.ite ((h.flushPages.ite h).unlessDone fun h => h.modNv)

theorem State.memsOk.flush (h : s.memsOk) : s.flush.memsOk :=
  h.modNv.ite (h.modNv.occur.whenDone fun h => h.saveCounters).flushPages.flushNext

theorem State.memsOk.handFlush (h : s.memsOk) : s.handFlush.memsOk := (h.saveCounters.ite h).modNv.flushNext.ite h.flush

theorem State.memsOk.recLost {full : Bool} (h : s.memsOk) : (s.recLost full).memsOk := h.modNv.whenDone fun h => h.occur

theorem State.memsOk.recPlace {r : Rec} (h : s.memsOk) : (s.recPlace r).memsOk := by
  unfold State.recPlace
  extract_lets _ _ s1 _ s2 _
  have h1 : s1.memsOk := by
    unfold s1
    split
    · exact h.modNv.occur.ite h
    · exact h
  have h2 : s2.memsOk := h1.modNv.occur
  exact h1.ite (h1.recLost.ite (h1.recLost.ite (h2.occur.ite h2)))

theorem State.memsOk.recEnter {r : Rec} (h : s.memsOk) : (s.recEnter r).memsOk := h.recPlace.whenDone fun h => h.flush

theorem State.memsOk.noteAnalog {code sev src : Nat} {payload : List W} {enter : State → Rec → State} (h : s.memsOk)
    (henter : ∀ t x, t.memsOk → (enter t x).memsOk) :
    (s.noteAnalog code sev src payload enter).memsOk :=
  (henter _ _ h).sendRecord

theorem State.memsOk.almClear (h : s.memsOk) : s.almClear.memsOk :=
  h.modNv.ite (h.modNv.modNv.occur.noteAnalog fun _ _ h => h.recEnter).flush

theorem State.memsOk.pageDone {src : NvSrc} (h : s.memsOk) : (s.pageDone src).memsOk := by
  unfold State.pageDone
  split
  · exact h.flushNext
  · exact h.flushNext
  · exact h.modNv.flushNext.ite (h.modNv.modNv.occur.whenDone fun h => h.almClear)
  · exact h.occur
  · exact h

theorem State.memsOk.pageWriteDone (h : s.memsOk) : s.pageWriteDone.memsOk := by
  unfold State.pageWriteDone
  split
  · exact h
  · exact (h.modNvTo (applyNvWrite_wf h.nv)).occur.pageDone

theorem State.memsOk.bootItem {t : NvItem} (h : s.memsOk) : (s.bootItem t).memsOk := by
  unfold State.bootItem
  exact h.itemCheck.whenDone fun h => h.note

theorem State.memsOk.bootTrims (h : s.memsOk) : s.bootTrims.memsOk := h.modTransit

theorem State.memsOk.bootNv (h : s.memsOk) : s.bootNv.memsOk := by
  unfold State.bootNv
  extract_lets _ _ s1 s2 _ _ s3 s4 s5 s6 s7 s8 s9 s10 s11
  have h1 : s1.memsOk := h.modNv.takeCounters
  have h2 : s2.memsOk := h1.modNv fun _ => by split <;> rfl
  have h3 : s3.memsOk := h2.forEach fun _ _ h => h.bootItem
  have h4 : s4.memsOk := h3.bootTrims
  have h5 : s5.memsOk := h4.modNv.ite h4
  have h6 : s6.memsOk := h5.saveCounters
  have h7 : s7.memsOk := h6.modNv.note.occur.ite h6
  have h8 : s8.memsOk := h7.modFm
  have h9 : s9.memsOk := h8.modNv
  have h10 : s10.memsOk := h9.modNv.ite h7.modFm
  have h11 : s11.memsOk := h10.modBoot
  exact h11.modNv.occur.ite h11

/-! ### Machine/Image -/

theorem State.memsOk.imgLoad {img : List Byte} {x : ImgSec} (h : s.memsOk) : (s.imgLoad img x).memsOk := by
  unfold State.imgLoad
  extract_lets bs
  split
  · extract_lets e s1
    have h1 : s1.memsOk := by
      refine h.modEngTo ?_
      split
      · exact Engine.memsOk_iff.mpr ⟨h.prog e, Mem.write_wf _ _ (h.data e)⟩
      · exact Engine.memsOk_iff.mpr ⟨Mem.write_wf _ _ (h.prog e), h.data e⟩
    exact h1.storeWrite.ite h1
  · exact h.storeWrite.modQueue

theorem State.memsOk.meCopyCrc (h : s.memsOk) : s.meCopyCrc.memsOk := h.storeWrite

theorem State.memsOk.imgInstall {img : List Byte} {secs : List ImgSec} {ver : W} (h : s.memsOk) : (s.imgInstall img secs ver).memsOk :=
  ((h.forEach fun _ _ h => h.imgLoad).whenDone fun h => h.meCopyCrc).modQueue

/-! ### Machine/HostBase -/

theorem State.memsOk.hostReject {cause : Byte} (h : s.memsOk) : (s.hostReject cause).memsOk := h.modSerial.occur

theorem State.memsOk.hostAdmit (h : s.memsOk) : s.hostAdmit.memsOk := h.modSerial

theorem State.memsOk.readClose (h : s.memsOk) : s.readClose.memsOk := by
  unfold State.readClose
  split
  · exact h
  · extract_lets s1
    have h1 : s1.memsOk := h.modSerial
    split
    · exact h1.hostReject
    · exact h1.hostAdmit

theorem State.memsOk.readFail {c : Byte} (h : s.memsOk) : (s.readFail c).memsOk := h.modSerial

theorem State.memsOk.hostBegin (h : s.memsOk) : s.hostBegin.memsOk := h.readClose.modSerial

/-! ### Machine/Operands -/

theorem State.memsOk.putCtx {ag : Agent} {c : Ctx} (h : s.memsOk) : (s.putCtx ag c).memsOk := by
  unfold State.putCtx
  split
  · exact h.modEng
  · exact h.modLane

theorem State.memsOk.fetchFix {ag : Agent} {pc : W} (h : s.memsOk) : (s.fetchFix ag pc).memsOk := by
  unfold State.fetchFix
  extract_lets _
  split
  · exact h.modEng.occur
  · exact h.modCluster.occur

theorem State.memsOk.zx {z : Zx} {avail : Bool} {body : Ctx → State → State} (h : s.memsOk) (hbody : ∀ x t, t.memsOk → (body x t).memsOk) :
    (s.zx z avail body).memsOk :=
  .ite h (.ite h.raise (.ite h.raise (.ite (h.fetchFix.ite h).raise (.ite (h.fetchFix.ite h).raise (hbody _ _ (h.fetchFix.ite h))))))

theorem State.memsOk.done {ag : Agent} {c : Ctx} (h : s.memsOk) : (s.done ag c).memsOk := h.putCtx

theorem State.memsOk.switch {e : Eng} (h : s.memsOk) : (s.switch e).memsOk := by
  unfold State.switch
  extract_lets _
  split
  · exact h.modEng.unlessDone fun h => h.traceFlow
  · exact h

theorem State.memsOk.wake {e : Eng} (h : s.memsOk) : (s.wake e).memsOk := h.ite h.switch

theorem State.memsOk.blockOn {ag : Agent} {c : Ctx} {b : Blocked} (h : s.memsOk) : (s.blockOn ag c b).memsOk := by
  unfold State.blockOn
  extract_lets s1
  have h1 : s1.memsOk := h.putCtx
  split
  · exact h1.switch
  · exact h1

/-- A write of the memory that holds a place. -/
theorem State.memsOk.modMemOf {ag : Agent} {pl : Place} {f : Mem × List Nat × List Nat → Mem × List Nat × List Nat} (h : s.memsOk)
    (hf : ∀ m, m.1.wf = true → (f m).1.wf = true) :
    (s.modMemOf ag pl f).memsOk := by
  unfold State.modMemOf
  split
  · exact h.modEngTo (Engine.memsOk_iff.mpr ⟨h.prog _, hf _ (h.data _)⟩)
  · exact h.modLaneTo (hf _ (h.lane _))
  · exact h.modClusterTo (Cluster.memsOk_iff.mpr ⟨h.kernel _, hf _ (h.tile _)⟩)

theorem State.memsOk.softFix {ag : Agent} {pl : Place} (h : s.memsOk) : (s.softFix ag pl).memsOk := by
  unfold State.softFix
  extract_lets w
  have corrected : (s.modMemOf ag pl fun m => (m.1, m.2.1, m.2.2.filter (· != w))).memsOk := h.modMemOf fun _ hm => hm
  exact corrected.occur.ite h

theorem State.memsOk.raiseAt {ag : Agent} {cause : Byte} {ea : W} {pl : Place} (h : s.memsOk) : (s.raiseAt ag cause ea pl).memsOk := by
  unfold State.raiseAt
  split
  · exact h.engException
  · exact h.laneException

theorem State.memsOk.storeAt {ag : Agent} {pl : Place} {bs : List Byte} (h : s.memsOk) : (s.storeAt ag pl bs).memsOk := by
  refine h.modMemOf fun m hm => ?_
  split
  · exact Mem.write_wf _ _ hm
  · exact Mem.write_wf _ _ hm

theorem State.memsOk.access {ag : Agent} {c : Ctx} {ea : W} {n : Nat} {whole : Bool} {k : Place → State → State} (h : s.memsOk)
    (hk : ∀ x t, t.memsOk → (k x t).memsOk) :
    (s.access ag c ea n whole k).memsOk := by
  unfold State.access
  refine .ite h.raise ?_
  split
  · exact h.raise
  · exact h.blockOn.ite ((hk _ _ h).ite (h.raiseAt.ite (hk _ _ h.softFix)))

end Sys2Proof.Machine
end

section
/-! SUPPORT. What keeps the memories canonical (R240, log entry 2), each lemma after its definition: boot, frames, the hearth, transits,
faults, the temperature unit, the Sextant, the bellows and the twin. -/
namespace Sys2Proof.Machine
set_option Elab.async false
variable {s : State}

/-! ### Machine/BootOps -/

theorem State.memsOk.storeInit (h : s.memsOk) : s.storeInit.memsOk := h.modFm.modTransit.modStoreTo rfl

theorem State.memsOk.bootStart {bootsel : BitVec 2} {role : Bool} (h : s.memsOk) : (s.bootStart bootsel role).memsOk :=
  h.bootNv.modBoot.modTwin.frame.storeInit

theorem State.memsOk.execResetRelease {bootsel : BitVec 2} {role : Bool} (h : s.memsOk) : (execResetRelease bootsel role s).memsOk :=
  .ite h (.ite h.modThermal
    (.ite h.modThermal.modBoot.modTwin (.ite h.modThermal.modBoot.modTwin (.ite h.modThermal.bootStart h.modThermal))))

theorem State.memsOk.bootEnter (h : s.memsOk) : s.bootEnter.memsOk := by
  unfold State.bootEnter
  exact (((h.forEach fun _ _ h => h.engStart.ite h).whenDone fun h => h.engReset.modEng).whenDone fun h => h.modClocks.modTwin).modBoot

theorem State.memsOk.imgChecked (h : s.memsOk) : s.imgChecked.memsOk := h.itemCheck.modNv

theorem State.memsOk.bootLoad {img : List Byte} {copy : Bool} (h : s.memsOk) : (s.bootLoad img copy).memsOk :=
  h.imgChecked.modBoot.imgInstall.bootEnter.ite h.imgChecked.modBoot.modBoot

theorem State.memsOk.imgBuffer (h : s.memsOk) : s.imgBuffer.2.memsOk := h.storeRead

theorem State.memsOk.loadGo (h : s.memsOk) : s.loadGo.memsOk := h.modQueue.ite (h.modQueue.unlessDone fun h => h.modBoot)

theorem State.memsOk.execLoadGoDone (h : s.memsOk) : (execLoadGoDone s).memsOk := by
  unfold Machine.execLoadGoDone
  refine .ite h ?_
  extract_lets _ s1 _ s2 _ s3 s4
  have h1 : s1.memsOk := h.imgBuffer
  have h2 : s2.memsOk := h1.imgChecked.modQueue
  have h3 : s3.memsOk := h2.modBoot.ite h2
  have h4 : s4.memsOk := h3.imgInstall
  exact .ite (h4.bootEnter.ite h4) h3

theorem State.memsOk.execMeRestartDone (h : s.memsOk) : (execMeRestartDone s).memsOk := by
  unfold Machine.execMeRestartDone
  split
  · exact h
  · extract_lets s1 p d _ s2 s3 s4 s5
    have h2 : s2.memsOk := h.modBoot.storeRead.storeRead.storeRead
    have h3 : s3.memsOk := by
      refine h2.modEngTo (Engine.memsOk_iff.mpr ?_)
      dsimp only
      exact ⟨Mem.write_wf 0 p.1 rfl, Mem.write_wf 0 d.1 rfl⟩
    have h4 : s4.memsOk := h3.thermalApply
    have h5 : s5.memsOk := h2.modEng.setFault
    split
    · exact h2
    · split
      · exact h4.engReset.modEng
      · exact h5.note

theorem State.memsOk.loadIgnored (h : s.memsOk) : s.loadIgnored.memsOk := h.modQueue

theorem State.memsOk.startReq {code : Fin 16} (h : s.memsOk) : (s.startReq code).memsOk := by
  unfold State.startReq
  split
  · exact h.loadIgnored
  · exact h.engStart.ite h.loadIgnored

theorem State.memsOk.stopReq {code : Fin 16} (h : s.memsOk) : (s.stopReq code).memsOk := by
  unfold State.stopReq
  split
  · exact h.loadIgnored
  · exact (h.modEng.unlessDone fun h => h.modEng.stopSettle).ite h

theorem State.memsOk.abortReq {code : Fin 16} (h : s.memsOk) : (s.abortReq code).memsOk := by
  unfold State.abortReq
  split
  · exact h.loadIgnored
  · exact h.modEng.count.ite h

/-! ### Machine/FrameOps -/

theorem State.memsOk.modFrame {p : Port} {tail : Bool} {f : Frame → Frame} (h : s.memsOk) : (s.modFrame p tail f).memsOk := h.modPort

theorem State.memsOk.samplesCheck {pb : PMap} {p : Port} {f r c n : Nat} (h : s.memsOk) : (s.samplesCheck pb p f r c n).memsOk :=
  (h.forEach fun _ _ h => h.storeCheck).ite h.storeCheck

theorem State.memsOk.slotCheck {p : Port} {pb : PMap} {slot : Option (Fin 4)} {r a n : Nat} (h : s.memsOk) :
    (s.slotCheck p pb slot r a n).memsOk := by
  unfold State.slotCheck
  split
  · exact h.storeCheck
  · exact h

theorem State.memsOk.notifyAdd {p : Port} {m : W} {bits : W} (h : s.memsOk) : (s.notifyAdd p m bits).memsOk := h.modPort

theorem State.memsOk.alarmTransit (h : s.memsOk) : s.alarmTransit.memsOk := by
  unfold State.alarmTransit
  split
  · exact h.transitAbandon.ite h
  · exact h

theorem State.memsOk.zoneEval {p : Port} {tail : Bool} {z : Fin 16} (h : s.memsOk) : (s.zoneEval p tail z).memsOk := by
  unfold State.zoneEval
  split
  · exact h
  · exact h.ite (h.modFrame.ite ((h.modFrame.modPort.whenDone fun h => h.notifyAdd).whenDone fun h => h.alarmTransit))

theorem State.memsOk.statWrite {p : Port} {fr : Frame} {tone : Bool} (h : s.memsOk) : (s.statWrite p fr tone).memsOk :=
  h.storeWrite.modPort.notifyAdd

theorem State.memsOk.sendDigests {p : Port} {fr : Frame} (h : s.memsOk) : (s.sendDigests p fr).memsOk :=
  h.ite (h.modTwin.forEach fun _ _ h => h.linkSend)

theorem State.memsOk.maximaEnter {p : Port} {tail : Bool} (h : s.memsOk) : (s.maximaEnter p tail).memsOk := by
  unfold State.maximaEnter
  split
  · exact h
  · exact h.modPort.modFrame

theorem State.memsOk.frameComplete {p : Port} {tail : Bool} (h : s.memsOk) : (s.frameComplete p tail).memsOk := by
  unfold State.frameComplete
  extract_lets s1
  have h1 : s1.memsOk := (h.forEach fun _ _ h => h.zoneEval).maximaEnter
  split
  · exact h1
  · exact h1.modPort.statWrite.storeWrite.modFrame.sendDigests

theorem State.memsOk.tryComplete {p : Port} {tail : Bool} (h : s.memsOk) : (s.tryComplete p tail).memsOk := by
  unfold State.tryComplete
  split
  · exact h.frameComplete.ite h
  · exact h

/-! ### Machine/Hearth -/

theorem State.memsOk.groupCheck {p : Port} {fr : Frame} {r col : Nat} (h : s.memsOk) : (s.groupCheck p fr r col).memsOk :=
  h.storeCheck.whenDone fun h => h.samplesCheck

theorem State.memsOk.refsCheck {p : Port} {fr : Frame} {r col : Nat} (h : s.memsOk) : (s.refsCheck p fr r col).memsOk :=
  h.forEach fun _ _ h => h.slotCheck

theorem State.memsOk.tapGroup {p : Port} {tail : Bool} {r col : Nat} (h : s.memsOk) : (s.tapGroup p tail r col).memsOk := by
  unfold State.tapGroup
  split
  · exact h
  · extract_lets _ _
    refine State.memsOk.forEach h (fun _ _ h1 => ?_)
    refine State.memsOk.forEach h1 (fun _ _ h2 => ?_)
    extract_lets _
    refine .ite h2.storeWrite ?_
    refine State.memsOk.forEach h2 (fun _ _ h3 => ?_)
    split
    · exact h3.storeWrite
    · exact h3

theorem State.memsOk.endA {p : Port} {tail : Bool} {r a : Nat} {e : ElemIn} {px : Pix} {w4 : List W} {cb : Comb} {sats : Nat}
    (h : s.memsOk) :
    (s.endA p tail r a e px w4 cb sats).memsOk := by
  unfold State.endA
  split
  · exact h
  · exact h.modFrame.whenDone fun h => h.storeWrite

theorem State.memsOk.endB {p : Port} {tail : Bool} {r a : Nat} {px : Pix} {repl hold mode3 : Bool} (h : s.memsOk) :
    (s.endB p tail r a px repl hold mode3).memsOk :=
  h.modFrame

theorem State.memsOk.groupRun {p : Port} {tail : Bool} {r col : Nat} (h : s.memsOk) : (s.groupRun p tail r col).memsOk := by
  unfold State.groupRun
  split
  · exact h
  · extract_lets _ _ s1 s2 s3
    have h1 : s1.memsOk := h.groupCheck.ite h
    have h2 : s2.memsOk := by
      unfold s2
      refine .ite ?_ h1
      refine State.memsOk.tapGroup ?_
      refine State.memsOk.forEach h1 (fun _ _ h12 => ?_)
      split
      · exact h12
      · exact h12.endA
    have h3 : s3.memsOk := by
      unfold s3
      refine .ite ?_ h2
      refine State.memsOk.forEach h2.refsCheck (fun _ _ h13 => ?_)
      split
      · exact h13
      · exact h13.endB
    exact (h3.forEach fun _ _ h => h.modFrame).ite h3

/-! ### Machine/HearthCmds -/

theorem State.memsOk.constsPlace {l : LaneNo} {p : Port} {fr : Frame} {b : Band} {row : Nat} (h : s.memsOk) :
    (s.constsPlace l p fr b row).memsOk := by
  unfold State.constsPlace
  extract_lets fc
  refine h.modLaneTo ?_
  extract_lets a x b
  have ha : a.loc.wf = true := Lane.putLocal_wf (h.lane l)
  have hx : x.loc.wf = true := by
    unfold x
    split
    · exact h.lane l
    · dsimp only
      exact ha
  have hb : b.loc.wf = true := Lane.putLocal_wf hx
  split
  · exact hx
  · dsimp only
    exact hb

theorem State.memsOk.invocGo {l : LaneNo} {v : Invoc} {first : Nat} (h : s.memsOk) : (s.invocGo l v first).memsOk := h.modLane

theorem State.memsOk.invocStart {l : LaneNo} {p : Port} {tail : Bool} {fr : Frame} {r col : Nat} (h : s.memsOk) :
    (s.invocStart l p tail fr r col).memsOk := by
  unfold State.invocStart
  extract_lets _ _ s1 s2
  have h1 : s1.memsOk := h.groupCheck.ite h
  have h2 : s2.memsOk := h1.refsCheck.ite h1
  exact (h2.modClusterTo (Cluster.putTile_memsOk (h2.cluster _))).invocGo

theorem State.memsOk.writeBack {l : LaneNo} {v : Invoc} (h : s.memsOk) : (s.writeBack l v).memsOk := by
  unfold State.writeBack
  extract_lets _
  split
  · exact h
  · split
    · exact h
    · extract_lets _ _ s1 _ _ _ _ s2
      have h1 : s1.memsOk := h.forEach fun _ _ h => h.softFix
      have h2 : s2.memsOk := by
        refine (h1.forEach fun _ _ h => ?_).tapGroup
        split
        · exact h
        · exact h.endA
      split
      · exact h1.forEach fun _ _ h => h.storeWrite.ite h
      · refine h2.forEach fun i t h => ?_
        extract_lets _ _ u
        have hu : u.memsOk := by
          unfold u
          split
          · split
            · exact h
            · exact h.endB
          · exact h
        exact hu.modFrame.ite hu

theorem State.memsOk.kernelTake {k : Fin 12} (h : s.memsOk) : (s.kernelTake k).memsOk := by
  unfold State.kernelTake
  split
  · exact h.ite h.kernelLoad
  · exact h

theorem State.memsOk.execHearthInvocation {p : Port} {tail : Bool} {l : LaneNo} {row col : Nat} {whole : Bool} (h : s.memsOk) :
    (execHearthInvocation p tail l row col whole s).memsOk := by
  unfold Machine.execHearthInvocation
  refine .ite h ?_
  split
  · exact h
  · exact .ite h (h.kernelTake.constsPlace.modLane.groupRun.count.clocksTake.ite h.kernelTake.constsPlace.invocStart)

theorem State.memsOk.invocEnd {l : LaneNo} (h : s.memsOk) : (s.invocEnd l).memsOk := by
  unfold State.invocEnd
  extract_lets s1
  have h1 : s1.memsOk := by
    unfold s1
    split
    · exact h.writeBack
    · exact h
  exact h1.modLane.count.retryDone.settleUnit.clocksTake

theorem State.memsOk.execYield {z : Zx} (h : s.memsOk) : (execYield z s).memsOk := by
  unfold Machine.execYield
  refine State.memsOk.zx h (fun _ _ h1 => ?_)
  extract_lets s2
  have h2 : s2.memsOk := h1.done
  split
  · exact h2.switch
  · exact h2.invocEnd

theorem State.memsOk.laneRetry {l : LaneNo} (h : s.memsOk) : (s.laneRetry l).memsOk := by
  unfold State.laneRetry
  split
  · extract_lets s1
    have h1 : s1.memsOk := h.modLane
    split
    · exact h1
    · exact (h1.modClusterTo (Cluster.putTile_memsOk (h1.cluster _))).invocGo
  · exact h

theorem State.memsOk.elemOut {p : Port} {tail : Bool} {r a : Nat} (h : s.memsOk) : (s.elemOut p tail r a).memsOk := by
  unfold State.elemOut
  split
  · exact h
  · exact (h.ite h.slotCheck).modFrame.whenDone fun h => h.storeWrite

theorem State.memsOk.groupSlot {p : Port} {tail : Bool} {r a : Nat} (h : s.memsOk) : (s.groupSlot p tail r a).memsOk := by
  unfold State.groupSlot
  split
  · exact h
  · split
    · exact h.storeWrite
    · exact h

theorem State.memsOk.groupOut {p : Port} {tail : Bool} {r a : Nat} (h : s.memsOk) : (s.groupOut p tail r a).memsOk := by
  unfold State.groupOut
  split
  · exact h
  · exact h.ite (h.forEach fun _ _ h => h.elemOut).groupSlot

theorem State.memsOk.earlyZones {p : Port} {tail : Bool} (h : s.memsOk) : (s.earlyZones p tail).memsOk := by
  unfold State.earlyZones
  refine State.memsOk.forEach h (fun _ _ h1 => ?_)
  split
  · exact h1
  · exact h1.modFrame.zoneEval.ite h1

theorem State.memsOk.execRadiometricRow {p : Port} {tail : Bool} {l : LaneNo} {row : Nat} (h : s.memsOk) :
    (execRadiometricRow p tail l row s).memsOk := by
  unfold Machine.execRadiometricRow
  refine .ite h ?_
  split
  · exact h
  · split
    · exact h
    · exact .ite h (h.forEach fun _ _ h => h.groupOut).earlyZones.tryComplete.earlyZones

theorem State.memsOk.patchTile {p : Port} {t : Nat} (h : s.memsOk) : (s.patchTile p t).memsOk := by
  unfold State.patchTile
  split
  · exact h
  · extract_lets _ _ _ _ _ s1 s2 s3
    have h1 : s1.memsOk := by
      unfold s1
      refine State.memsOk.forEach h (fun _ _ h11 => ?_)
      extract_lets s12 _ s13
      have h12 : s12.memsOk := h11.slotCheck
      have h13 : s13.memsOk := h12.forEach fun _ _ h => h.modFrame
      split
      · exact h13.storeWrite
      · exact h13
    have h2 : s2.memsOk := h1.modFrame
    have h3 : s3.memsOk := h2.modFm
    exact h3.forEach fun _ _ h => h.occur

theorem State.memsOk.deadline {p : Port} (h : s.memsOk) : (s.deadline p).memsOk := by
  unfold State.deadline
  split
  · exact h
  · refine .ite h ?_
    extract_lets s1 s2 _ s3 s4 s5
    have h1 : s1.memsOk := h.modFrame
    have h2 : s2.memsOk := h1.forEach fun _ _ h => h.noRetry
    have h3 : s3.memsOk := h2.forEach fun _ _ h => h.patchTile
    have h4 : s4.memsOk := by
      unfold s4
      refine .ite h3 ?_
      split
      · exact h3.modFrame
      · exact h3
    have h5 : s5.memsOk := h4.ite (h4.ite h4.occur).markStreams
    exact h2.ite h5.frameComplete

/-! ### Machine/TransitOps -/

theorem State.memsOk.transitDue {p : Port} {req : Bool} (h : s.memsOk) : (s.transitDue p req).memsOk := h.modTransit

theorem State.memsOk.transitTriggers {p : Port} (h : s.memsOk) : (s.transitTriggers p).memsOk :=
  (h.modTPort.ite h).unlessDone fun h => h.modTPort.transitDue.ite h

theorem State.memsOk.deferMark {p : Port} (h : s.memsOk) : (s.deferMark p).memsOk := h.modTPort.ite h

theorem State.memsOk.transitStart {p : Port} (h : s.memsOk) : (s.transitStart p).memsOk :=
  h.modTransit.modPort.whenDone fun h => h.blwAction

theorem State.memsOk.modCur {f : Transit → Transit} (h : s.memsOk) : (s.modCur f).memsOk := h.modTransit

theorem State.memsOk.domeStep {at' next' : Fin 8} (h : s.memsOk) : (s.domeStep at' next').memsOk := by
  unfold State.domeStep
  split
  · exact h.ite ((h.modCur.ite h).ite h.modCur)
  · exact h

theorem State.memsOk.domeClosed {c : Fin 8} (h : s.memsOk) : (s.domeClosed c).memsOk := h.domeStep.ite h

theorem State.memsOk.domeOpen {c : Fin 8} (h : s.memsOk) : (s.domeOpen c).memsOk := h.domeStep.ite (.dite (fun _ => h.modPort) fun _ => h)

theorem State.memsOk.modSextant {f : Sextant → Sextant} (h : s.memsOk) : (s.modSextant f).memsOk := h.frame

theorem State.memsOk.setTrim {i : Nat} {w : W} (h : s.memsOk) : (s.setTrim i w).memsOk := h.modTransit

theorem State.memsOk.trimRecord (h : s.memsOk) : s.trimRecord.memsOk := h.storeWrite

theorem State.memsOk.checkBegin {m : Fin 8} {gap : Option Nat} (h : s.memsOk) : (s.checkBegin m gap).memsOk := h.modSextant.modMod.ite h

theorem State.memsOk.refDue (h : s.memsOk) : s.refDue.memsOk := by
  unfold State.refDue
  refine .ite h ?_
  split
  · exact h.modSextant
  · exact h.modSextant.checkBegin

theorem State.memsOk.refCheck {m : Fin 8} {sum : Int} (h : s.memsOk) : (s.refCheck m sum).memsOk :=
  h.ite (h.modTransit.whenDone fun h => h.occur.detect.settleUnit)

theorem State.memsOk.flatEnd {c : Transit} {agreed : Option Nat} (h : s.memsOk) : (s.flatEnd c agreed).memsOk :=
  h.transitAbandon.ite h.modTPort.modCur

theorem State.memsOk.accBack (h : s.memsOk) : s.accBack.memsOk := by
  unfold State.accBack
  split
  · exact h
  · exact (h.forEach fun _ _ h => h.modStoreTo (Mem.write_wf _ _ h.store)).modCur

theorem State.memsOk.transitFrame {p : Port} {fr : Frame} (h : s.memsOk) : (s.transitFrame p fr).memsOk := by
  unfold State.transitFrame
  split
  · exact h
  · exact h.ite ((h.accBack.modCur.whenDone fun h => h.transitAbandon).ite
      ((h.modCur.whenDone fun h => h.refDue).ite (h.modCur.whenDone fun h => h.flatEnd)))

theorem State.memsOk.poisonRange {a n : Nat} (h : s.memsOk) : (s.poisonRange a n).memsOk :=
  h.forEach fun _ _ h => h.modStoreTo (Store.poisonWord_wf h.store)

theorem State.memsOk.transitPlace {l : LaneNo} {tile : List (Nat × List Byte)} {consts : List W} {rowWords : List (Nat × List W)}
    {regs : List W} (h : s.memsOk) :
    (s.transitPlace l tile consts rowWords regs).memsOk := by
  have placed : (s.modCluster (clusterOf l) fun k => k.putTile tile).memsOk := h.modClusterTo (Cluster.putTile_memsOk (h.cluster _))
  exact placed.modLaneTo (Lane.foldl_putLocal_wf (Lane.putLocal_wf (placed.lane l)))

theorem State.memsOk.accElem {c : Transit} {fr : Frame} {row a : Nat} (h : s.memsOk) : (s.accElem c fr row a).memsOk :=
  h.poisonRange.ite h.storeWrite

theorem State.memsOk.execTransitAccumulate {l : LaneNo} {row col : Nat} (h : s.memsOk) : (execTransitAccumulate l row col s).memsOk := by
  unfold Machine.execTransitAccumulate
  split
  · exact .ite h ((h.samplesCheck.unlessDone fun h => h.storeCheck).transitPlace.forEach fun _ _ h => h.accElem).modCur
  · exact h

theorem State.memsOk.cdomeCheck {c : Transit} {pb : PMap} (h : s.memsOk) : (s.cdomeCheck c pb).memsOk :=
  h.ite (h.forEach fun _ _ h => h.storeCheck)

theorem State.memsOk.finishElem {c : Transit} {cd : Int} {row a : Nat} (h : s.memsOk) : (s.finishElem c cd row a).memsOk := by
  unfold State.finishElem
  extract_lets _ _ _ _ _ q
  have hq : q.2.memsOk := by
    unfold q
    split
    · exact h.free
    · exact h
  exact h.poisonRange.ite hq.storeWrite

theorem State.memsOk.execTransitFinish {l : LaneNo} {row col : Nat} (h : s.memsOk) : (execTransitFinish l row col s).memsOk := by
  unfold Machine.execTransitFinish
  split
  · exact .ite h (h.cdomeCheck.storeCheck.storeCheck.transitPlace.forEach fun _ _ h => h.finishElem).modCur
  · exact h

theorem State.memsOk.maskPass {rows cols size : Nat} {at0 at3 : Nat → Nat → Nat} (h : s.memsOk) :
    (s.maskPass rows cols size at0 at3).memsOk :=
  (h.forEach fun _ _ h => h.storeCheck).forEach fun _ _ h => h.forEach fun _ _ h => h.storeWrite

theorem State.memsOk.execTransitStagingComplete (h : s.memsOk) : (execTransitStagingComplete s).memsOk := by
  unfold Machine.execTransitStagingComplete
  split
  · exact .ite h (.ite (h.maskPass.forEach fun _ _ h => h.storeCheck).transitAbandon
      (h.maskPass.forEach fun _ _ h => h.storeCheck).modCur.blwRelease)
  · exact h

theorem State.memsOk.execTransitCloseTimeout (h : s.memsOk) : (execTransitCloseTimeout s).memsOk := by
  unfold Machine.execTransitCloseTimeout
  split
  · exact .ite h.transitAbandon h
  · exact h

theorem State.memsOk.execTransitOpenTimeout (h : s.memsOk) : (execTransitOpenTimeout s).memsOk := by
  unfold Machine.execTransitOpenTimeout
  extract_lets _
  refine .ite h ?_
  refine .ite (h.forEach fun _ _ h => h.modPort) ?_
  split
  · exact .ite h.transitAbandon h
  · exact h

theorem State.memsOk.egenInc {p : Port} (h : s.memsOk) : (s.egenInc p).memsOk := h.modPort

theorem State.memsOk.setTransitRef {p : Port} {tarr : Int} {duty : Nat} (h : s.memsOk) : (s.setTransitRef p tarr duty).memsOk :=
  h.modParams.genInc

theorem State.memsOk.transitCommit {p : Port} (h : s.memsOk) : (s.transitCommit p).memsOk := by
  unfold State.transitCommit
  split
  · exact h
  · exact h.setTransitRef.egenInc.modTPort.modCur.modTransit.modPort.transitWake

theorem State.memsOk.mergePut {a : Nat} {ws : List W} {whole : Bool} (h : s.memsOk) : (s.mergePut a ws whole).memsOk :=
  h.storeWrite.ite h.storeWrite

theorem State.memsOk.mergeRow {p : Port} {r : Nat} (h : s.memsOk) : (s.mergeRow p r).memsOk :=
  h.storeCheck.forEach fun _ _ h => h.ite h.mergePut.mergePut.mergePut.mergePut

theorem State.memsOk.noteLoaded {p : Port} {code : Byte} (h : s.memsOk) : (s.noteLoaded p code).memsOk := h.note

theorem State.memsOk.mergeEnd (h : s.memsOk) : s.mergeEnd.memsOk := by
  unfold State.mergeEnd
  extract_lets s1
  have h1 : s1.memsOk := by
    unfold s1
    split
    · exact h.ite h.noteLoaded
    · exact h
  exact h1.modTransit

theorem State.memsOk.startAgain {p : Port} (h : s.memsOk) : (s.startAgain p).memsOk := h.modTPort

theorem State.memsOk.restoreBegin {p : Port} (h : s.memsOk) : (s.restoreBegin p).memsOk :=
  h.egenInc.startAgain.modTransit.unlessDone fun h => (h.forEach fun _ _ h => h.mergeRow).mergeEnd

theorem State.memsOk.sceneSwitch {p : Port} (h : s.memsOk) : (s.sceneSwitch p).memsOk := h.modTPort.ite h

theorem State.memsOk.transitCarry {p : Port} {d : Nat} (h : s.memsOk) : (s.transitCarry p d).memsOk := by
  unfold State.transitCarry
  split
  · exact h.transitStart
  · exact h.modCur
  · exact h.modCur
  · exact h.transitCommit
  · exact h

theorem State.memsOk.holdSettle {p : Port} (h : s.memsOk) : (s.holdSettle p).memsOk := h.modPort

theorem State.memsOk.prodWrite {p : Port} {hd : List W} {es : List Byte} (h : s.memsOk) : (s.prodWrite p hd es).memsOk :=
  h.forEach fun _ _ h => h.storeWrite

theorem State.memsOk.prodPort {p : Port} {sec : List Byte} {lost : Bool} (h : s.memsOk) : (s.prodPort p sec lost).1.memsOk := by
  unfold State.prodPort
  extract_lets pb hd es s1 s2
  have h1 : s1.memsOk := h.prodWrite
  have h2 : s2.memsOk := h1.maskPass
  split
  · exact h
  · split
    · exact h
    · split
      · exact h
      · split
        · exact h1
        · exact h2.egenInc.startAgain

theorem State.memsOk.prodPorts {flash : List (List Byte)} {readError : Option (Fin 4)} {l : List Port} {stop : Bool} (h : s.memsOk) :
    (State.prodPorts s flash readError l stop).1.memsOk := by
  induction l generalizing s stop with
  | nil => exact h
  | cons p l ih =>
    unfold State.prodPorts
    split
    · exact ih h
    · exact ih h.prodPort

theorem State.memsOk.execProductionLoadDone {flash : List (Nat × List Byte)} {readError : Option (Fin 4)} (h : s.memsOk) :
    (execProductionLoadDone flash readError s).memsOk := by
  unfold Machine.execProductionLoadDone
  split
  · exact h
  · extract_lets named q code
    have hq : q.1.memsOk := h.prodPorts
    exact (hq.forEach fun _ _ h => h.noteLoaded).modTransit

theorem State.memsOk.prodStart {seqNo : Byte} {ports : Nat} (h : s.memsOk) : (s.prodStart seqNo ports).memsOk := h.modTransit

/-! ### Machine/Faults -/

theorem State.memsOk.testEvent {u : Fin 182} {pass : Bool} (h : s.memsOk) : (s.testEvent u pass).memsOk :=
  .dite (fun _ => h.modPort.occur) fun _ => h

theorem State.memsOk.answerTest {u : Fin 182} {out : Nat} (h : s.memsOk) : (s.answerTest u out).memsOk := h.fmOutcome.modUnit

theorem State.memsOk.sxLate {m : Fin 8} (h : s.memsOk) : (s.sxLate m).memsOk := h.modMod.occur

theorem State.memsOk.testBegin {u : Fin 182} (h : s.memsOk) : (s.testBegin u).memsOk := by
  unfold State.testBegin
  extract_lets s1 s2 _
  have h1 : s1.memsOk := h
  have h2 : s2.memsOk := h.modUnit
  refine .ite h1 ?_
  split
  · exact h2.modLane
  · exact .dite (fun _ => h2.modBlw.blwRequest.whenDone fun h => h.modBlw.modUnit) fun _ => .dite (fun _ => h2.modMod) fun _ => h2

theorem State.memsOk.sxNext {m : Fin 8} {done : Option Nat} (h : s.memsOk) : (s.sxNext m done).memsOk := by
  unfold State.sxNext
  extract_lets _ _ _
  refine .ite h ?_
  refine .ite h.testBegin.modMod ?_
  refine .ite h.modMod ?_
  refine .ite h.checkBegin ?_
  refine .ite h ?_
  split
  · exact h.modMod.whenDone fun h => h.sxLate
  · exact h.modMod.ite h

theorem State.memsOk.testClear {u : Fin 182} (h : s.memsOk) : (s.testClear u).memsOk := .dite (fun _ => h.modMod) fun _ => h

theorem State.memsOk.blwRetry {c : Fin 8} (h : s.memsOk) : (s.blwRetry c).memsOk :=
  h.closeTransient.ite ((h.ite h.closeTransient).ite
    (h.modBlw.ite (h.closeTransient.ite (h.modBlw.blwRequest.whenDone fun h => h.closeTransient))))

theorem State.memsOk.retryStart {u : Fin 182} {leftUs : Nat} (h : s.memsOk) : (s.retryStart u leftUs).memsOk := by
  unfold State.retryStart
  extract_lets s1 _ _ _
  have h1 : s1.memsOk := h.countTransient
  split
  · exact h1.closeTransient.ite (h1.modUnit.laneRetry.ite h1.noRetry.closeTransient)
  · refine .ite ((h1.ite h1.modFm).closeTransient.whenDone fun h => h.modUnit) ?_
    split
    · exact h1.modUnit.blwRetry
    · exact h1.modUnit.ite (.dite (fun _ => h1.closeTransient.whenDone fun h => h.meRestart.ite h.engStart) fun _ => h1.closeTransient)

theorem State.memsOk.testDecide {u : Fin 182} {pass : Bool} {leftUs : Nat} (h : s.memsOk) : (s.testDecide u pass leftUs).memsOk := by
  unfold State.testDecide
  extract_lets _ _ s1 s2 s3 s4 s5 s6 s7
  have h1 : s1.memsOk := h.testEvent.testClear
  have h2 : s2.memsOk := h1.countTransient.closeTransient
  have h3 : s3.memsOk := h1.fmDecide.answerTest
  have h4 : s4.memsOk := h1.fmPermanent.fmDecide.answerTest
  have h5 : s5.memsOk := h4.modUnit
  have h6 : s6.memsOk := h5.transitLaneLost
  have h7 : s7.memsOk := by
    unfold s7
    split
    · split
      · exact h6.giveUp.modLane
      · exact h6
    · exact h6
  refine .ite ?_ (h1.fmDecide.answerTest.sensorChange.modUnit.ite h7.settleIdle)
  exact (h2.modUnit.ite h2.modUnit).ite ((h3.modUnit.ite h3.inService).ite (h1.modFm.fmDecide.answerTest.inService.ite h1.retryStart))

theorem State.memsOk.testOver {u : Fin 182} {pass : Bool} {leftUs : Nat} (h : s.memsOk) : (s.testOver u pass leftUs).memsOk :=
  h.testDecide.settleUnit

theorem State.memsOk.execUnitDrained {u : W} (h : s.memsOk) : (execUnitDrained u s).memsOk := by
  unfold Machine.execUnitDrained
  split
  · exact .ite h.testBegin h
  · exact h

theorem State.memsOk.setSeq {q q' : RowSeq} (h : s.memsOk) : (s.setSeq q q').memsOk := h.modStore

theorem State.memsOk.execRowCopyDone {ch bank : Fin 16} {row : BitVec 13} (h : s.memsOk) : (execRowCopyDone ch bank row s).memsOk := by
  unfold Machine.execRowCopyDone
  split
  · exact .ite h (h.forEach fun _ _ h => h.checkWord).modStore
  · exact h

theorem State.memsOk.execRowCopyBackDone {ch bank : Fin 16} {row : BitVec 13} (h : s.memsOk) :
    (execRowCopyBackDone ch bank row s).memsOk := by
  unfold Machine.execRowCopyBackDone
  split
  · exact .ite h h.modStore
  · exact h

theorem State.memsOk.storeAnswer {uid : W} {out : Nat} (h : s.memsOk) : (s.storeAnswer uid out).memsOk := h.fmOutcome.modFm

theorem State.memsOk.rowTransient {k : Nat × Nat × Nat} (h : s.memsOk) : (s.rowTransient k).2.memsOk := by
  unfold State.rowTransient
  extract_lets _ _
  split
  · exact h.modStore
  · exact (h.modFm.ite h).modStore

theorem State.memsOk.rowTestOver {q : RowSeq} {pass : Bool} (h : s.memsOk) : (s.rowTestOver q pass).memsOk := by
  unfold State.rowTestOver
  extract_lets _ s1 _ s2 s3
  have h1 : s1.memsOk := h.fmPermanent.fmDecide.storeAnswer
  have h2 : s2.memsOk := h.rowTransient.occur
  have h3 : s3.memsOk := h2.modFm.life.fmDecide
  exact h1.setSeq.settleIdle.ite
    (h.fmDecide.storeAnswer.occur.setSeq.ite (h2.fmPermanent.fmDecide.storeAnswer.setSeq.settleIdle.ite h3.storeAnswer.setSeq))

theorem State.memsOk.chanPermanent {ch : Fin 16} {cause : Byte} {out : Nat} (h : s.memsOk) : (s.chanPermanent ch cause out).memsOk :=
  h.storeAnswer.chanRetire.ite h.fmPermanent.fmDecide.storeAnswer.modFm.settleIdle

theorem State.memsOk.chanTestOver {ch : Fin 16} {pass : Bool} (h : s.memsOk) : (s.chanTestOver ch pass).memsOk :=
  h.ite (h.ite (h.chanPermanent.ite (h.fmDecide.storeAnswer.ite (h.modStore.chanPermanent.ite h.modStore.modFm.life.fmDecide))))

theorem State.memsOk.rowTestWide {q : RowSeq} (h : s.memsOk) : (s.rowTestWide q).memsOk :=
  h.rowTestOver.unlessDone fun h => h.fmPermanent.fmDecide.modFm.settleIdle

theorem State.memsOk.execRetryBudgetOverrun {u : W} (h : s.memsOk) : (execRetryBudgetOverrun u s).memsOk := by
  unfold Machine.execRetryBudgetOverrun
  refine .ite h ?_
  refine .ite ?_ (.ite h.chanTestOver.fmDeliver h)
  split
  · exact h.rowTestOver.fmDeliver
  · exact h

theorem State.memsOk.mapClear {v : W} (h : s.memsOk) : (s.mapClear v).memsOk := h.modFm.modNv.ite h

/-! ### Machine/ThermalOps -/

theorem State.memsOk.sensorDetect {t : Fin 48} {x : BitVec 16} (h : s.memsOk) : (s.sensorDetect t x).memsOk := h.ite h.modSensor.detect

theorem State.memsOk.refreshSet (h : s.memsOk) : s.refreshSet.memsOk := h.ite (h.modStore.forEach fun _ _ h => h.occur)

theorem State.memsOk.dcoSet {k : Fin 12} (h : s.memsOk) : (s.dcoSet k).memsOk := by
  unfold State.dcoSet
  split
  · exact h.ite h.modCluster
  · exact h

theorem State.memsOk.dcoFollow {t : Fin 48} (h : s.memsOk) : (s.dcoFollow t).memsOk := h.ite (h.forEach fun _ _ h => h.dcoSet.ite h)

theorem State.memsOk.sextantStop (h : s.memsOk) : s.sextantStop.memsOk := h.frame

theorem State.memsOk.testsAbandon (h : s.memsOk) : s.testsAbandon.memsOk :=
  ((h.forEach fun _ _ h => h.answerTest.ite h).forEach fun _ _ h => h.storeAnswer).fmDeliver

theorem State.memsOk.thermalShutdown {t : Fin 48} {x : BitVec 16} {cause : Nat} (h : s.memsOk) : (s.thermalShutdown t x cause).memsOk :=
  h.ite (h.modThermal.frame.testsAbandon.sextantStop.blwShutdown.life.whenDone fun h => h.noteAnalog fun _ _ h => h.recEnter)

theorem State.memsOk.sensorBroken {t : Fin 48} (h : s.memsOk) : (s.sensorBroken t).memsOk := by
  unfold State.sensorBroken
  exact h.zoneAfter.refreshSet.whenDone fun h => h.thermalShutdown

theorem State.memsOk.shutCheck {t : Fin 48} {x : BitVec 16} (h : s.memsOk) : (s.shutCheck t x).memsOk :=
  h.ite (h.modSensor.whenDone fun h => h.thermalShutdown)

theorem State.memsOk.sensorAccept {t : Fin 48} {x : BitVec 16} (h : s.memsOk) : (s.sensorAccept t x).memsOk :=
  ((h.modSensor.zoneAfter.whenDone fun h => h.occur).whenDone fun h => h.refreshSet).dcoFollow

theorem State.memsOk.sensorTest {t : Fin 48} {pass : Bool} (h : s.memsOk) : (s.sensorTest t pass).memsOk :=
  h.testOver.fmDeliver.zoneAfter.refreshSet.ite h.testOver.fmDeliver.sensorBroken

theorem State.memsOk.execSelfTestDone {u : W} {pass : Bool} {leftUs : Nat} {wide : Bool} (h : s.memsOk) :
    (execSelfTestDone u pass leftUs s wide).memsOk := by
  unfold Machine.execSelfTestDone
  refine .ite h ?_
  split
  · exact .ite (State.memsOk.dite (fun _ => h.sensorTest) fun _ => h.testOver.fmDeliver) h
  · split
    · exact (h.rowTestWide.ite h.rowTestOver).fmDeliver
    · exact .ite h.chanTestOver.fmDeliver h

theorem State.memsOk.sensorReading {t : Fin 48} {x : BitVec 16} (h : s.memsOk) : (s.sensorReading t x).memsOk :=
  h.shutCheck.modSensor.unlessDone fun h => h.sensorTest.ite (h.ite (h.modSensor.sensorDetect.ite h.modSensor.sensorAccept))

theorem State.memsOk.extReading {t : Fin 48} {x : BitVec 16} {flagged : Bool} (h : s.memsOk) : (s.extReading t x flagged).memsOk :=
  h.ite (h.shutCheck.unlessDone fun h => h.sensorTest.ite (h.ite (h.sensorDetect.ite h.sensorAccept)))

theorem State.memsOk.logicReset (h : s.memsOk) : s.logicReset.memsOk :=
  ⟨h.store, h.nv, rfl, State.reset_memsOk.eng, State.reset_memsOk.lane, State.reset_memsOk.cluster⟩

theorem State.memsOk.enterAll {n : Nat} (h : s.memsOk) : (s.enterAll n).memsOk := by
  unfold State.enterAll
  extract_lets s1 _ s2
  have h1 : s1.memsOk := h.queueStamp
  have h2 : s2.memsOk := h1.modNv
  refine State.memsOk.forEach h2 (fun _ _ h3 => ?_)
  extract_lets s4
  have h4 : s4.memsOk := h3.recPlace
  split
  · exact h4.latch
  · exact h4

theorem State.memsOk.nvPowerFail (h : s.memsOk) : s.nvPowerFail.memsOk := h.modNv.whenDone fun h => h.occur

theorem State.memsOk.readPowerFail (h : s.memsOk) : s.readPowerFail.memsOk := h.ite h.modSerial.readFail.readClose

theorem State.memsOk.powerFailStart {cause : Nat} (h : s.memsOk) : (s.powerFailStart cause).memsOk :=
  h.ite (h.modThermal.life.blwShutdown.sextantStop.readPowerFail.modSerial.whenDone fun h => h.occur).mp0Discard.nvPowerFail

theorem State.memsOk.storeLose {rail : Fin 9} (h : s.memsOk) : (s.storeLose rail).memsOk :=
  State.memsOk.ite (h.modStoreTo (f := fun t => { t with mem := [], poison := [], soft := [], hard := [], lost := some s.freeCtr })
    rfl).frame h

theorem State.memsOk.execRailUndervoltage {rail : Fin 9} (h : s.memsOk) : (execRailUndervoltage rail s).memsOk :=
  .ite (h.modThermal.powerFailStart.storeLose.whenDone fun h => h.dropOwner) (.ite h.modThermal h.modThermal.powerFailStart)

theorem State.memsOk.handRecords (h : s.memsOk) : s.handRecords.memsOk :=
  ((h.ite (h.noteAnalog fun _ _ h => h.recPlace)).unlessDone fun h => h.noteAnalog fun _ _ h => h.recPlace).modThermal

theorem State.memsOk.execHandoverDone (h : s.memsOk) : (execHandoverDone s).memsOk := by
  unfold Machine.execHandoverDone
  refine .ite (h.modNv.enterAll.handRecords.handFlush.modThermal.whenDone fun h => h.dropOwner.logicReset) ?_
  refine .ite ?_ h
  extract_lets s1 s2 _ s3
  have h1 : s1.memsOk := h.modNv
  have h2 : s2.memsOk := h1.enterAll.handFlush.dropOwner.blwShutdown
  have h3 : s3.memsOk := h2.modThermal.logicReset
  exact h3.bootStart.ite (h3.modBoot.ite h3)

theorem State.memsOk.execLogicDiePowerLoss {counters : Bool} {records : Nat} (h : s.memsOk) :
    (execLogicDiePowerLoss counters records s).memsOk :=
  .ite (h.modNv.life.enterAll.handRecords.modThermal.noteAnalog fun _ _ h => h.recPlace).handFlush.dropOwner.logicReset.modBoot
    (.ite h.dropOwner.logicReset.modBoot h)

theorem State.memsOk.execPowerOnReset {groups : Nat} (h : s.memsOk) : (execPowerOnReset groups s).memsOk :=
  ⟨rfl, Nv.interrupt_wf h.nv, rfl, State.reset_memsOk.eng, State.reset_memsOk.lane, State.reset_memsOk.cluster⟩

/-! ### Machine/Sextant -/

theorem State.memsOk.applyI {blk : Nat} {after : PMap → State → State} (h : s.memsOk) (hafter : ∀ x t, t.memsOk → (after x t).memsOk) :
    (s.applyI blk after).memsOk := by
  unfold State.applyI
  split
  · exact h
  · extract_lets _ s1 s2
    have h1 : s1.memsOk := h.dropPending.ite h
    have h2 : s2.memsOk := h1.modTwin
    split
    · exact h2.refuseBlock
    · exact hafter _ _ h2.modParams.genInc

theorem State.memsOk.sxBlock {k : Fin 8} {o : PMap} (h : s.memsOk) : (s.sxBlock k o).memsOk :=
  h.modMod.ite ((h.ite h.modMod).whenDone fun h => h.sxNext)

theorem State.memsOk.sxTrigger {k : Fin 8} {t : Nat} (h : s.memsOk) : (s.sxTrigger k t).memsOk := h.modMod.ite (h.modMod.ite h.modMod.occur)

theorem State.memsOk.sxRaw {inp ref gain : Nat} {c : RawConv} (h : s.memsOk) : (s.sxRaw inp ref gain c).2.memsOk := by
  unfold State.sxRaw
  dsimp only
  split
  · exact h.free
  · exact h

theorem State.memsOk.domeResult {k : Fin 8} {e : SxEntry} {sum : Int} (h : s.memsOk) : (s.domeResult k e sum).memsOk := by
  unfold State.domeResult
  split
  · exact h.modCur.ite h
  · exact h

theorem State.memsOk.extResults {k : Fin 8} {e : SxEntry} {sum : Int} {flagged : Bool} (h : s.memsOk) :
    (s.extResults k e sum flagged).memsOk :=
  h.ite (h.forEach fun _ _ h => h.extReading.ite h)

theorem State.memsOk.sxRecord {k : Fin 8} {e : SxEntry} (h : s.memsOk) : (s.sxRecord k e).memsOk :=
  (((h.modMod.occur.ite h.modMod.occur).frame.whenDone fun h => h.modMod).whenDone fun h => h.occur).domeResult.extResults

theorem State.memsOk.sxEnd {k : Fin 8} (h : s.memsOk) : (s.sxEnd k).memsOk :=
  (h.modMod.occur.retryDone.settleUnit.applyI fun _ _ h => h.sxBlock).sxNext

theorem State.memsOk.sxError {k : Fin 8} (h : s.memsOk) : (s.sxError k).memsOk := by
  unfold State.sxError
  extract_lets s1 s2
  have h1 : s1.memsOk := h.occur.detect.settleUnit
  have h2 : s2.memsOk := h1.modMod
  refine .ite ?_ h1
  split
  · exact h2.transitAbandon.ite h2
  · exact h2

theorem State.memsOk.sxTestConv {m : Fin 8} {c : RawConv} (h : s.memsOk) : (s.sxTestConv m c).memsOk :=
  (h.occur.detect.ite h).sxRaw.testOver.sxNext.fmDeliver

theorem State.memsOk.sxCheckConv {m : Fin 8} {n : Nat} {sum : Int} {c : RawConv} (h : s.memsOk) : (s.sxCheckConv m n sum c).memsOk :=
  (h.sxError.ite h).unlessDone fun h => h.sxRaw.modMod.ite h.sxRaw.modMod.refCheck.sxNext

theorem State.memsOk.trimMod {k : Fin 8} {sumOfs sumGain : Int} (h : s.memsOk) : (s.trimMod k sumOfs sumGain).memsOk := by
  unfold State.trimMod
  extract_lets _ _ q
  have hq : q.2.memsOk := by
    unfold q
    split
    · exact h
    · exact h.free
  exact hq.setTrim.setTrim

theorem State.memsOk.sxTrimConv {m : Fin 8} {n : Nat} {so sg : Int} {c : RawConv} (h : s.memsOk) : (s.sxTrimConv m n so sg c).memsOk :=
  (h.sxError.ite h).unlessDone fun h => h.sxRaw.modMod.ite (h.sxRaw.modMod.trimMod.whenDone fun h => h.trimRecord).sxNext

theorem State.memsOk.sxEntryConv {m : Fin 8} {e : SxEntry} {r : List SxEntry} {c : RawConv} (h : s.memsOk) :
    (s.sxEntryConv m e r c).memsOk :=
  (h.sxError.ite h).unlessDone fun h => h.sxRaw.modMod.unlessDone fun h => h.sxRecord.modMod.whenDone fun h => h.sxEnd.fmDeliver

theorem State.memsOk.execSextantConversion {m : Fin 8} {c : RawConv} (h : s.memsOk) : (execSextantConversion m c s).memsOk := by
  unfold Machine.execSextantConversion
  extract_lets _ _
  refine .ite h ?_
  refine .ite (h.sxTestConv.ite h) ?_
  refine .ite h ?_
  refine .ite h.modMod ?_
  split
  · exact h.sxCheckConv
  · exact h.sxTrimConv
  · exact h.sxEnd
  · exact h.sxEntryConv

theorem State.memsOk.execSextantDrain {m : Fin 8} (h : s.memsOk) : (execSextantDrain m s).memsOk := by
  unfold Machine.execSextantDrain
  extract_lets _
  refine .ite h ?_
  split
  · exact h.modMod.modEng.forEach fun _ _ h => h.latch
  · exact h

theorem State.memsOk.resLo {m : Fin 8} (h : s.memsOk) : (s.resLo m).2.memsOk := by
  unfold State.resLo
  refine .readIte h.modMod ?_
  split
  · exact h.modMod
  · exact h.modMod

theorem State.memsOk.accLo {m : Fin 8} (h : s.memsOk) : (s.accLo m).2.memsOk := h.modMod

theorem State.memsOk.lastLo {e : Nat} (h : s.memsOk) : (s.lastLo e).2.memsOk := h.frame

theorem State.memsOk.accClr {v : W} (h : s.memsOk) : (s.accClr v).memsOk := h.forEach fun _ _ h => h.modMod.ite h

/-! ### Machine/BellowsCmds -/

theorem State.memsOk.blwBlock {c : Fin 8} {o : PMap} (h : s.memsOk) : (s.blwBlock c o).memsOk := by
  unfold State.blwBlock
  extract_lets _ s1 s2 _ s3
  have h1 : s1.memsOk := h.parFollow
  have h2 : s2.memsOk := h1.blwRelease.ite h1
  have h3 : s3.memsOk := h2.modBlw
  refine .ite h2 ?_
  refine .ite h3 ?_
  split
  · exact h3.blwRelease
  · exact h3.blwAction
  · exact h3.blwAction

theorem State.memsOk.blwRetryDone {c : Fin 8} (h : s.memsOk) : (s.blwRetryDone c).memsOk := h.retryDone.settleUnit.parFollow.fmDeliver

theorem State.memsOk.execBellowsLoopPeriod {c : Fin 8} {ma : BitVec 16} (h : s.memsOk) : (execBellowsLoopPeriod c ma s).memsOk :=
  .ite h.modBlw ((h.modBlw.blwRelease.ite (h.modBlw.whenDone fun h => h.blwRetryDone)).applyI fun _ _ h => h.blwBlock)

theorem State.memsOk.blwClosed {c : Fin 8} (h : s.memsOk) : (s.blwClosed c).memsOk := h.modBlw.blwOccur.domeClosed

theorem State.memsOk.blwOpened {c : Fin 8} (h : s.memsOk) : (s.blwOpened c).memsOk := h.modBlw.blwOccur.domeOpen

theorem State.memsOk.execPullInEnd {c : Fin 8} {ma : BitVec 16} (h : s.memsOk) : (execPullInEnd c ma s).memsOk :=
  .ite h ((h.modBlw.blwReeval.blwOccur.ite (h.modBlw.blwReeval.whenDone fun h => h.blwClosed)).blwRetryDone.whenDone fun h => h.blwRelease)

theorem State.memsOk.execReleaseEnd {c : Fin 8} (h : s.memsOk) : (execReleaseEnd c s).memsOk := by
  unfold Machine.execReleaseEnd
  exact .ite h (h.modBlw.whenDone fun h => h.blwOccur).blwReeval.parFollow.blwRetryDone

theorem State.memsOk.execPositionReport {c : Fin 8} {level : Bool} (h : s.memsOk) : (execPositionReport c level s).memsOk :=
  .ite (h.modSerial.ite h) (.ite (h.modSerial.ite h).blwClosed (.ite (h.modSerial.ite h).blwOpened (h.modSerial.ite h)))

theorem State.memsOk.blwRetryPair {c : Fin 8} (h : s.memsOk) : (s.blwRetryPair c).memsOk := by
  unfold State.blwRetryPair
  split
  · exact h.blwRetry.settleUnit.ite h
  · exact h

theorem State.memsOk.blwTestOver {c : Fin 8} {pass : Bool} (h : s.memsOk) : (s.blwTestOver c pass).memsOk :=
  h.testOver.parFollow.blwRetryPair.parFollow

theorem State.memsOk.execTestPulseEnd {c : Fin 8} {r : PulseResult} (h : s.memsOk) : (execTestPulseEnd c r s).memsOk :=
  .ite h (h.modBlw.blwReeval.blwTestOver.unlessDone fun h => (h.modUnit.blwRelease.whenDone fun h => h.modBlw).blwTestOver).fmDeliver

theorem State.memsOk.blwDetect {c : Fin 8} {cause : Byte} (h : s.memsOk) : (s.blwDetect c cause).memsOk := by
  unfold State.blwDetect
  split
  · exact h.detect.detect.settleUnit.settleUnit
  · exact h.detect.settleUnit

theorem State.memsOk.blwCutTest {c : Fin 8} (h : s.memsOk) : (s.blwCutTest c).memsOk := h.blwCut.whenDone fun h => h.blwTestOver

theorem State.memsOk.execSwitchFault {k : Fin 4} (h : s.memsOk) : (execSwitchFault k s).memsOk := by
  unfold Machine.execSwitchFault
  split
  · exact h
  · extract_lets a b _ s1 s2 s3 cut
    have h1 : s1.memsOk := h.frame
    have h2 : s2.memsOk := h1.blwOccur.detect.blwOccur
    have h3 : s3.memsOk := h2.detect.settleUnit.settleUnit
    have hcut {c : Fin 8} {t : State} (h : t.memsOk) : (cut c t).memsOk := h.ite h.blwCutTest
    exact (hcut (hcut h3)).fmDeliver

/-! ### Machine/TwinOps -/

theorem State.memsOk.gainOwner (h : s.memsOk) : s.gainOwner.memsOk :=
  h.ite (h.modTwin.occur.noteTwin.occur.occur.ite
    ((h.modTwin.occur.noteTwin.outputsGain.unlessDone fun h => h.modCur.ite h.transitAbandonNow).forEach fun _ _ h => h.blwRelease))

theorem State.memsOk.wantOwner (h : s.memsOk) : s.wantOwner.memsOk := h.ite (h.modTwin.whenDone fun h => h.gainOwner)

theorem State.memsOk.wantLower (h : s.memsOk) : s.wantLower.memsOk := h.modTwin.ite h.dropOwner

theorem State.memsOk.ownerRise (h : s.memsOk) : s.ownerRise.memsOk := (h.gainOwner.ite h).whenDone fun h => h.gainOwner

theorem State.memsOk.ownerAtMer (h : s.memsOk) : s.ownerAtMer.memsOk := (h.dropOwner.ite h).ownerRise

theorem State.memsOk.twinState {n : Fin 7} (h : s.memsOk) : (s.twinState n).memsOk := (h.modTwin.whenDone fun h => h.modThermal).stageFollow

theorem State.memsOk.twinClear (h : s.memsOk) : s.twinClear.memsOk := by
  unfold State.twinClear
  extract_lets s1 s2 s3
  have h1 : s1.memsOk := by
    unfold s1
    split
    · exact h.modParams
    · exact h
  have h2 : s2.memsOk := h1.forEach fun _ _ h => h.modUnit.ite h
  have h3 : s3.memsOk := h2.modNv.forEach fun _ _ h => h.nvQueue
  exact h3.modTwin

theorem State.memsOk.alone {n : Fin 7} (h : s.memsOk) : (s.alone n).memsOk :=
  h.twinClear.twinState.modTwin.unlessDone fun h => h.modTwin.wantOwner

theorem State.memsOk.sendPages (h : s.memsOk) : s.sendPages.memsOk := h.forEach fun _ _ h => h.linkSend

theorem State.memsOk.paired {peer : List W} (h : s.memsOk) : (s.paired peer).memsOk :=
  h.twinState.modTwin.occur.wantOwner.sendPages.ite (h.twinState.modTwin.occur.whenDone fun h => h.wantLower)

theorem State.memsOk.resyncAgain (h : s.memsOk) : s.resyncAgain.memsOk := (h.modTwin.whenDone fun h => h.sendPages).ite h.modTwin

theorem State.memsOk.bulkPort {p : Port} (h : s.memsOk) : (s.bulkPort p).memsOk := h.ite h.modTwin.resyncAgain

theorem State.memsOk.outOfStep {p : Port} (h : s.memsOk) : (s.outOfStep p).memsOk := h.modTwin.bulkPort.whenDone fun h => h.occur

theorem State.memsOk.stepMissed {p : Port} (h : s.memsOk) : (s.stepMissed p).memsOk := h.modTwin.outOfStep

theorem State.memsOk.installState {p : Port} {r : ResyncState} (h : s.memsOk) : (s.installState p r).memsOk := h.modPort.modTPort

theorem State.memsOk.sendRow {p : Port} {row : Nat} (h : s.memsOk) : (s.sendRow p row).memsOk :=
  (h.forEach fun _ _ h => h.storeCheck).modTwin.linkSend

theorem State.memsOk.installRow {r : ResyncRow} (h : s.memsOk) : (s.installRow r).memsOk := by
  unfold State.installRow
  extract_lets _ _ _ _ s1 s2 s3 _
  have h3 : s3.memsOk := h.modTwin.storeWrite.forEach fun _ _ h => h.storeWrite
  refine h3.forEach fun _ _ h => ?_
  split
  · exact h.modStoreTo (Store.poisonWord_wf h.store)
  · exact h

theorem State.memsOk.lockstep (h : s.memsOk) : s.lockstep.memsOk := h.twinState.occur.whenDone fun h => h.modTwin

theorem State.memsOk.sweepBegin {p : Port} (h : s.memsOk) : (s.sweepBegin p).memsOk := h.modTwin.occur

theorem State.memsOk.resyncNext (h : s.memsOk) : s.resyncNext.memsOk := by
  unfold State.resyncNext
  extract_lets s1
  have h1 : s1.memsOk := h.resyncAgain.ite h
  refine .ite h1 ?_
  split
  · exact h1.sweepBegin.ite h1
  · exact h1.lockstep.ite h1

theorem State.memsOk.sweepOver {p : Port} (h : s.memsOk) : (s.sweepOver p).memsOk := by
  unfold State.sweepOver
  extract_lets s1
  have h1 : s1.memsOk := h.modTwin
  split
  · exact h1.modTwin
  · exact h1.modTwin.occur

theorem State.memsOk.resyncTile {k : Nat} {source : Bool} (h : s.memsOk) : (s.resyncTile k source).memsOk := h.modTwin

theorem State.memsOk.tileTest {p : Port} {k f : Nat} (h : s.memsOk) : (s.tileTest p k f).memsOk := by
  unfold State.tileTest
  exact ((h.forEach fun _ _ h => h.checkWord).forEach fun _ _ h => h.modUnit.ite h).modTwin

theorem State.memsOk.portResync {p : Port} {source : Bool} (h : s.memsOk) : (s.portResync p source).memsOk :=
  h.modTwin.sendRow.ite h.modTwin

theorem State.memsOk.bulkCheck {p : Port} {f : Nat} (h : s.memsOk) : (s.bulkCheck p f).memsOk := h.bulkPort.ite h

theorem State.memsOk.portMismatch {p : Port} {f : Nat} (h : s.memsOk) : (s.portMismatch p f).memsOk :=
  h.occur.unlessDone fun h => h.modTwin.ite h.portResync

theorem State.memsOk.tileMismatch {k f : Nat} {own peer : BitVec 3} (h : s.memsOk) : (s.tileMismatch k f own peer).memsOk :=
  h.modTwin.occur.unlessDone fun h => h.ite (h.resyncTile.ite (h.resyncTile.ite (h.resyncTile.ite (h.resyncTile.ite (h.ite h.tileTest)))))

theorem State.memsOk.tileMatch {k f : Nat} (h : s.memsOk) : (s.tileMatch k f).memsOk := (h.modTwin.ite h).ite h.modTwin

theorem State.memsOk.digestSettle (h : s.memsOk) : s.digestSettle.memsOk := by
  unfold State.digestSettle
  extract_lets _ s1
  have h1 : s1.memsOk := h.modTwin
  refine State.memsOk.forEach h1 (fun _ _ h2 => ?_)
  split
  · exact h2.modTwin
  · exact h2.modTwin.ite (h2.ite
      ((h2.bulkCheck.ite h2).tileMatch.ite ((h2.bulkCheck.ite h2).portMismatch.ite (h2.bulkCheck.ite h2).tileMismatch)))

theorem State.memsOk.testSettle (h : s.memsOk) : s.testSettle.memsOk := by
  unfold State.testSettle
  extract_lets _ s1
  have h1 : s1.memsOk := h.modTwin
  refine h1.forEach fun e t h => ?_
  extract_lets _ _ r
  have hr : r.2.memsOk := by
    unfold r
    split
    · exact h.linkSend
    · exact h
  split
  · exact hr.resyncTile.modTwin.portResync.ite hr.resyncTile
  · exact hr.modTwin

theorem State.memsOk.capture {p : Port} (h : s.memsOk) : (s.capture p).memsOk := by
  unfold State.capture
  extract_lets s1 _ _ _ _
  have h1 : s1.memsOk := by
    unfold s1
    split
    · exact h.modCur.ite h
    · exact h
  exact h1.modTwin

theorem State.memsOk.agreePending {a : Agreement} (h : s.memsOk) : (s.agreePending a).memsOk := by
  unfold State.agreePending
  refine State.memsOk.forEach h (fun _ _ h1 => ?_)
  split
  · exact h1.ite h1.modParams.modTwin.occur
  · exact h1

theorem State.memsOk.agreeClassI {a : Agreement} (h : s.memsOk) : (s.agreeClassI a).memsOk := h.forEach fun _ _ h => h.modTwin

theorem State.memsOk.agreeUnits {a : Agreement} (h : s.memsOk) : (s.agreeUnits a).memsOk :=
  ((h.modTwin.forEach fun _ _ h => h.inService.modUnit.ite h).retirePending.rotateOut.forEach fun _ _ h => h.modUnit.ite h).whenDone
    fun h => h.occur

theorem State.memsOk.domeReport {p : Port} {d : Nat} (h : s.memsOk) : (s.domeReport p d).memsOk :=
  h.ite (h.modBlw.blwOccur.ite (h.modBlw.blwOccur.ite h))

theorem State.memsOk.agreeTransit {a : Agreement} (h : s.memsOk) : (s.agreeTransit a).memsOk := by
  unfold State.agreeTransit
  extract_lets s1 s2
  have h1 : s1.memsOk := by
    unfold s1
    split
    · exact h.flatEnd.ite h
    · exact h
  have h2 : s2.memsOk := h1.modTwin.occur.ite h1
  exact ((h2.transitAbandonNow.ite h2.transitAbandonNow).ite h2).ite h2.domeReport.transitCarry

theorem State.memsOk.swapOwner (h : s.memsOk) : s.swapOwner.memsOk := h.modTwin.dropOwner.modTwin.ite (h.gainOwner.ite h.modTwin)

theorem State.memsOk.sendPropose {p : Port} {fr : Option Frame} (h : s.memsOk) : (s.sendPropose p fr).memsOk := h.linkSend

theorem State.memsOk.twinBlock {o : PMap} (h : s.memsOk) : (s.twinBlock o).memsOk := by
  unfold State.twinBlock
  extract_lets n was en s1 s2 seqNo
  have h1 : s1.memsOk := ((h.linkDiscard.islandReset.modClocks).twinClear.twinState).modTwin
  have h2 : s2.memsOk := by
    refine .ite (.ite (h1.gainOwner.ite h1) h) ?_
    exact State.memsOk.ite h.islandReset.islandOut.modTwin.twinState h
  exact h2.ite h2.modTwin.yieldDue

end Sys2Proof.Machine
end

section
/-! SUPPORT. What keeps the memories canonical (R240, log entry 2), each lemma after its definition: the commands of Zhomunyx programs, the
ports' rows and meridians, and the partner's frames. -/
namespace Sys2Proof.Machine
set_option Elab.async false
variable {s : State}

/-! ### Machine/ZxAlu -/

theorem State.memsOk.alu {z : Zx} {f : Bool} {d a b : Reg} {r : W → W → W → W} {fl : Ctx → W → W → W → Ctx} (h : s.memsOk) :
    (s.alu z f d a b r fl).memsOk :=
  h.zx fun _ _ h => h.done

theorem State.memsOk.aluZN {z : Zx} {f : Bool} {d a b : Reg} {r : W → W → W → W} (h : s.memsOk) : (s.aluZN z f d a b r).memsOk := h.alu

theorem State.memsOk.aluShift {k : Shift} {z : Zx} {f : Bool} {d a b : Reg} (h : s.memsOk) : (s.aluShift k z f d a b).memsOk := h.alu

theorem State.memsOk.aluImm {z : Zx} {d a : Reg} {r : W → W} (h : s.memsOk) : (s.aluImm z d a r).memsOk := h.zx fun _ _ h => h.done

/-! ### Machine/ZxMem -/

theorem State.memsOk.load {z : Zx} {d a : Reg} {imm : BitVec 18} {n : Nat} {r : Nat → W} (h : s.memsOk) : (s.load z d a imm n r).memsOk :=
  h.zx fun _ _ h => h.access fun _ _ h => h.done

theorem State.memsOk.storeReg {z : Zx} {d a : Reg} {imm : BitVec 18} {n : Nat} (h : s.memsOk) : (s.storeReg z d a imm n).memsOk :=
  h.zx fun _ _ h => h.access fun _ _ h => h.storeAt.done.whenDone fun h => h.thermalTake

/-! ### Machine/ZxBranch -/

theorem State.memsOk.flow {ag : Agent} {reason : Nat} {target : W} (h : s.memsOk) : (s.flow ag reason target).memsOk := by
  unfold State.flow
  split
  · exact h.traceFlow
  · exact h

theorem State.memsOk.execPost {z : Zx} {imm : BitVec 18} (h : s.memsOk) : (execPost z imm s).memsOk := by
  unfold Machine.execPost
  refine State.memsOk.zx h (fun _ _ h1 => ?_)
  split
  · exact h1.raise.ite h1.done.occur
  · exact h1.raise.ite h1.done.occur

/-! ### Machine/ZxSync -/

theorem State.memsOk.ready {e : Eng} {c : Fin 4} {f : Ctx → Ctx} (h : s.memsOk) : (s.ready e c f).memsOk := h.modEng.wake

theorem State.memsOk.execWait {z : Zx} {d a : Reg} (h : s.memsOk) : (execWait z d a s).memsOk := by
  unfold Machine.execWait
  refine State.memsOk.zx h (fun _ _ h1 => ?_)
  extract_lets _
  split
  · exact h1.putCtx.ite h1.blockOn
  · exact h1.raise.ite (h1.done.ite h1.blockOn)

theorem State.memsOk.execWaitResume {ag : Agent} {c : Fin 4} (h : s.memsOk) : (execWaitResume ag c s).memsOk := by
  unfold Machine.execWaitResume
  refine .ite h ?_
  split
  · extract_lets _
    split
    · exact .ite h.ready h
    · exact h
  · extract_lets _
    split
    · exact .ite h.putCtx h
    · exact h

theorem State.memsOk.execMerResume {e : Eng} {c : Fin 4} (h : s.memsOk) : (execMerResume e c s).memsOk := by
  unfold Machine.execMerResume
  refine .ite h ?_
  extract_lets _
  split
  · exact h.ready
  · exact h

theorem State.memsOk.execSend {z : Zx} {a : Reg} {ch dst : Fin 16} (h : s.memsOk) : (execSend z a ch dst s).memsOk := by
  unfold Machine.execSend
  refine State.memsOk.zx h (fun _ _ h1 => ?_)
  split
  · exact h1
  · split
    · exact h1.raise
    · exact h1.done.ite (h1.blockOn.occur.ite h1.done.modEng)

theorem State.memsOk.execSendUnblock {e : Eng} {c : Fin 4} (h : s.memsOk) : (execSendUnblock e c s).memsOk := by
  unfold Machine.execSendUnblock
  refine .ite h ?_
  split
  · exact .ite h.ready (.ite h h.modEng.ready)
  · exact h

theorem State.memsOk.chanPut {e : Eng} {ch : Fin 16} {w : W} (h : s.memsOk) : (s.chanPut e ch w).memsOk :=
  h.modEng.forEach fun _ _ h => h.latch

theorem State.memsOk.completionWord {c : Fin 4} {w : W} (h : s.memsOk) : (s.completionWord c w).memsOk := h.modEng.ite h.modEng.modQueue

theorem State.memsOk.outDrop {e : Eng} {k : Nat} (h : s.memsOk) : (s.outDrop e k).memsOk := h.modEng

theorem State.memsOk.execMessageDelivery {e : Eng} {k : Nat} (h : s.memsOk) : (execMessageDelivery e k s).memsOk := by
  unfold Machine.execMessageDelivery
  refine .ite h ?_
  split
  · exact h
  · refine .ite h ?_
    refine .ite h.outDrop.completionWord.stopSettle ?_
    exact .ite (.ite h.outDrop.linkSend.stopSettle h) (.dite (fun _ => .ite h.outDrop.chanPut.stopSettle h) fun _ => h)

theorem State.memsOk.chanTake {e : Eng} {ch : Fin 16} (h : s.memsOk) : (s.chanTake e ch).memsOk :=
  (h.modEng.whenDone fun h => h.modQueue).whenDone fun h => h.fmDeliver

theorem State.memsOk.execRecv {z : Zx} {d : Reg} {ch : Fin 16} {nb : Bool} (h : s.memsOk) : (execRecv z d ch nb s).memsOk := by
  unfold Machine.execRecv
  refine State.memsOk.zx h (fun _ _ h1 => ?_)
  split
  · exact h1
  · split
    · exact h1.done.chanTake
    · exact h1.done.ite h1.blockOn

theorem State.memsOk.execRecvResume {e : Eng} {c : Fin 4} (h : s.memsOk) : (execRecvResume e c s).memsOk := by
  unfold Machine.execRecvResume
  refine .ite h ?_
  split
  · split
    · exact h.ready.chanTake
    · exact h
  · exact h

/-! ### Machine/ZxTile -/

theorem State.memsOk.tileIssue {z : Zx} {load : Bool} {d a b : Reg} (h : s.memsOk) : (s.tileIssue z load d a b).memsOk := by
  unfold State.tileIssue
  refine h.zx fun c t h => ?_
  dsimp only
  split
  · exact h.raise
  · split
    · exact h.blockOn
    · split
      · exact h.raiseAt
      · split
        · exact h.done
        · split
          · exact h.blockOn.occur
          · exact h.blockOn

theorem State.memsOk.xferMove {ag : Agent} {x : Xfer} (h : s.memsOk) : (s.xferMove ag x).memsOk :=
  (h.storeRead.modMemOf fun _ hm => Mem.write_wf _ _ hm).ite (h.forEach fun _ _ h => h.softFix).storeWrite

theorem State.memsOk.execTileTransferComplete {ag : Agent} {c : Fin 4} {tag : Fin 4} (h : s.memsOk) :
    (execTileTransferComplete ag c tag s).memsOk := by
  unfold Machine.execTileTransferComplete
  refine .ite h ?_
  split
  · split
    · exact h
    · exact .ite h.xferMove.modEng.stopSettle (h.xferMove.modEng.forEach fun _ _ h => h.modEng).wake
  · split
    · exact h
    · exact h.xferMove.modLane.modLane

theorem State.memsOk.execTileInterlockStall {l : LaneNo} (h : s.memsOk) : (execTileInterlockStall l s).memsOk := by
  unfold Machine.execTileInterlockStall
  split
  · exact .ite h h.count.occur
  · exact h

/-! ### Machine/ZxParam -/

theorem State.memsOk.execParam {z : Zx} {d a : Reg} {imm : BitVec 18} (h : s.memsOk) : (execParam z d a imm s).memsOk := by
  unfold Machine.execParam
  refine State.memsOk.zx h (fun _ _ h1 => ?_)
  split
  · exact h1
  · extract_lets _
    split
    · exact h1.done.modParams.ite h1.raise
    · exact h1.raise

theorem State.memsOk.commitCopy {blk : Nat} (h : s.memsOk) : (s.commitCopy blk).memsOk := h.modTwin.ite h.modParams

/-! ### Machine/IdleApply -/

theorem State.memsOk.trimRestore (h : s.memsOk) : s.trimRestore.memsOk :=
  h.storeRead.note.ite (h.storeRead.modTransit.forEach fun _ _ h => h.ite h.dcoSet).note

theorem State.memsOk.transitBlock (h : s.memsOk) : s.transitBlock.memsOk :=
  ((h.ite h.prodStart).unlessDone fun h => h.modTransit.unlessDone fun h => h.restoreBegin).unlessDone fun h => h.modTransit.trimRestore.ite
    h.modTransit.modTransit

theorem State.memsOk.applyTransit (h : s.memsOk) : s.applyTransit.memsOk := (h.applyI fun _ _ h => h.transitBlock).ite h

theorem State.memsOk.applyTwin (h : s.memsOk) : s.applyTwin.memsOk := h.applyI fun _ _ h => h.twinBlock

theorem State.memsOk.applyIdle {blk : Nat} {period : Bool} (h : s.memsOk) : (s.applyIdle blk period).memsOk := by
  unfold State.applyIdle
  refine .ite (h.ite h.applyTransit) ?_
  refine .ite (h.applyTwin.ite h) ?_
  split
  · exact h.ite (h.applyI fun _ _ h => h.sxBlock)
  · exact (h.applyI fun _ _ h => h).ite
      (.dite (fun _ => (h.applyI fun _ _ h => h.blwBlock).ite h) fun _ => ((h.applyI fun _ _ h => h).ite h).ite h)

theorem State.memsOk.commitSettle {blk : Nat} (h : s.memsOk) : (s.commitSettle blk).memsOk := by
  unfold State.commitSettle
  extract_lets _ s1
  have h1 : s1.memsOk := by
    unfold s1
    refine .ite h ?_
    split
    · exact h.agreeNow
    · exact h
  split
  · exact h1.ite h1.applyIdleP
  · exact h1.modParams.unlessDone fun h => h.applyIdleP
  · exact h1.ite h1.devIdle
  · exact h1.applyIdle
  · exact h1

theorem State.memsOk.execCommit {z : Zx} {blk : BitVec 10} (h : s.memsOk) : (execCommit z blk s).memsOk := by
  unfold Machine.execCommit
  refine State.memsOk.zx h (fun _ _ h1 => ?_)
  split
  · exact h1
  · exact h1.done.commitCopy.commitSettle.ite h1.raise

/-! ### Machine/PortRows -/

theorem State.memsOk.rowRead {p : Port} {fr : Frame} {r : Nat} (h : s.memsOk) : (s.rowRead p fr r).memsOk := h.samplesCheck.ite h

theorem State.memsOk.colEstimate {p : Port} (h : s.memsOk) : (s.colEstimate p).memsOk := by
  unfold State.colEstimate
  split
  · exact h
  · exact (h.forEach fun _ _ h => h.rowRead).modPort

theorem State.memsOk.rowEstimate {p : Port} {r : Nat} (h : s.memsOk) : (s.rowEstimate p r).memsOk := by
  unfold State.rowEstimate
  split
  · exact h
  · exact h.rowRead.unlessDone fun h => h.modPort

theorem State.memsOk.rowArrived {p : Port} {r : Nat} (h : s.memsOk) : (s.rowArrived p r).memsOk := by
  unfold State.rowArrived
  split
  · exact h
  · exact h.ite (h.ite h.colEstimate).rowEstimate

theorem State.memsOk.portEvent {p : Port} {k : Nat} (h : s.memsOk) : (s.portEvent p k).memsOk := h.occur.whenDone fun h => h.detect

theorem State.memsOk.modArr {p : Port} {f : ArrCounts → ArrCounts} (h : s.memsOk) : (s.modArr p f).memsOk := h.modFrame

theorem State.memsOk.extraRow {p : Port} (h : s.memsOk) : (s.extraRow p).memsOk := h.modArr.occur

theorem State.memsOk.rowLost {p : Port} {k : Nat} (h : s.memsOk) : (s.rowLost p k).memsOk := by
  unfold State.rowLost
  split
  · exact h
  · split
    · exact h.modFrame
    · exact h.modFrame.extraRow

theorem State.memsOk.rowEnter {p : Port} {k r : Nat} {fr : Frame} {pk : RowPkt} (h : s.memsOk) : (s.rowEnter p k r fr pk).memsOk :=
  h.storeWrite.modFrame.rowArrived.ite h.storeWrite.modFrame

theorem State.memsOk.rowMeasure {p : Port} {fr : Frame} {pk : RowPkt} (h : s.memsOk) : (s.rowMeasure p fr pk).memsOk :=
  ((h.portEvent.ite h).unlessDone fun h => h.modArr.portEvent).modArr.occur.ite
    (((h.portEvent.ite h).unlessDone fun h => h.modArr.portEvent).whenDone fun h => h.modArr.occur)

theorem State.memsOk.rowPacket {p : Port} {k : Nat} {pk : RowPkt} (h : s.memsOk) : (s.rowPacket p k pk).memsOk := by
  unfold State.rowPacket
  split
  · exact h
  · extract_lets s1
    have h1 : s1.memsOk := h.modFrame.rowMeasure
    split
    · exact h1.rowLost
    · exact h1.occur.rowLost.ite h1.rowEnter

theorem State.memsOk.headerBad {p : Port} (h : s.memsOk) : (s.headerBad p).memsOk := by
  unfold State.headerBad
  extract_lets s1
  have h1 : s1.memsOk := h.modArr.portEvent
  split
  · exact h1.ite (h1.modFrame.ite h1.rowLost)
  · exact h1

theorem State.memsOk.receive {p : Port} {vc : BitVec 2} {ecc : Ecc} {body : State → State} (h : s.memsOk)
    (hbody : ∀ t, t.memsOk → (body t).memsOk) :
    (s.receive p vc ecc body).memsOk := by
  unfold State.receive
  refine .ite h ?_
  split
  · exact h.headerBad
  · exact (h.modArr.occur.ite h).occur.ite (hbody _ (h.modArr.occur.ite h))

theorem State.memsOk.inFrame {p : Port} {body : Frame → State → State} (h : s.memsOk) (hbody : ∀ x t, t.memsOk → (body x t).memsOk) :
    (s.inFrame p body).memsOk := by
  unfold State.inFrame
  split
  · exact (hbody _ _ h).ite h.occur
  · exact h.occur

/-! ### Machine/Meridian -/

theorem State.memsOk.openFrame {p : Port} (h : s.memsOk) : (s.openFrame p).memsOk := h.modPort

theorem State.memsOk.lanesTail {p : Port} (h : s.memsOk) : (s.lanesTail p).memsOk := h.updLanes fun _ _ => rfl

theorem State.memsOk.windowClose {p : Port} (h : s.memsOk) : (s.windowClose p).memsOk := h.ite (h.modPort.unlessDone fun h => h.occur)

theorem State.memsOk.merWake {p : Port} (h : s.memsOk) : (s.merWake p).memsOk := h.updEngines fun _ _ => rfl

theorem State.memsOk.slotWritten {p : Port} {fr : Frame} (h : s.memsOk) : (s.slotWritten p fr).memsOk := by
  unfold State.slotWritten
  extract_lets s1
  have h1 : s1.memsOk := h.modTPort.ite h
  split
  · exact h1
  · exact h1.modPort

theorem State.memsOk.frameOver {p : Port} {why : Nat} {fe : Option (BitVec 16)} (h : s.memsOk) : (s.frameOver p why fe).memsOk := by
  unfold State.frameOver
  extract_lets s1 s2
  have h1 : s1.memsOk := h.deadline
  have h2 : s2.memsOk := by
    unfold s2
    split
    · exact h1.ite h1.colEstimate
    · exact h1
  split
  · exact h2
  · extract_lets _ _ s3 _ s4 s5 s6 s7 s8 s9 _ s10 s11 s12 s13 s14
    have h3 : s3.memsOk := h2.lanesTail.modPort
    have h4 : s4.memsOk := h3.storeWrite
    have h5 : s5.memsOk := h4.storeWrite
    have h6 : s6.memsOk := h5.ite h5.occur
    have h7 : s7.memsOk := h6.occur
    have h8 : s8.memsOk := h7.occur.ite (h7.occur.ite h7)
    have h9 : s9.memsOk := by
      unfold s9
      split
      · exact h8.ite h8.occur
      · exact h8
    have h10 : s10.memsOk := h9.occur.ite h9
    have h11 : s11.memsOk := h10.occur.ite h10
    have h12 : s12.memsOk := h11.occur.ite h11
    have h13 : s13.memsOk := h12.markStreams
    have h14 : s14.memsOk := h13.slotWritten.maximaEnter.tryComplete.ite h13.modPort.statWrite
    exact h14.transitFrame

theorem State.memsOk.applyParams {p : Port} {l : List (Nat × PMap)} {dev : Bool} {mid : State → State} (h : s.memsOk)
    (hmid : ∀ t, t.memsOk → (mid t).memsOk) :
    (s.applyParams p l dev mid).memsOk :=
  (hmid _ (h.devAdopt.ite h)).forEach fun _ _ h => h.applyOneP

theorem State.memsOk.portEnds {p : Port} (h : s.memsOk) : (s.portEnds p).memsOk := h.portOff.ite h

theorem State.memsOk.stageTake {p : Port} (h : s.memsOk) : (s.stageTake p).memsOk := h.modPort

theorem State.memsOk.clustersBack (h : s.memsOk) : s.clustersBack.memsOk := h.forEach fun _ _ h => h.inService.ite h

theorem State.memsOk.stopTransit {p : Port} (h : s.memsOk) : (s.stopTransit p).memsOk := h.transitAbandonPort.ite h

theorem State.memsOk.restoreTake {p : Port} (h : s.memsOk) : (s.restoreTake p).memsOk := h.restoreBegin.ite h

theorem State.memsOk.ephemerisTake {p : Port} (h : s.memsOk) : (s.ephemerisTake p).memsOk := (h.transitCommit.ite h).restoreTake

theorem State.memsOk.decideAlone {p : Port} (h : s.memsOk) : (s.decideAlone p).memsOk := by
  unfold State.decideAlone
  extract_lets s1
  have h1 : s1.memsOk := by
    unfold s1
    split
    · exact h.flatEnd.ite h
    · exact h
  split
  · exact h1
  · exact h1.transitAbandonNow
  · exact h1.transitCarry

theorem State.memsOk.unitsAlone {p : Port} (h : s.memsOk) : (s.unitsAlone p).memsOk := h.rotateBack.retirePending.rotateOut

theorem State.memsOk.agreeDev {a : Agreement} (h : s.memsOk) : (s.agreeDev a).memsOk := by
  unfold State.agreeDev
  split
  · exact h
  · exact h.modParams.modTwin

theorem State.memsOk.applyAgree {p : Port} {a : Agreement} (h : s.memsOk) : (s.applyAgree p a).memsOk := by
  unfold State.applyAgree
  extract_lets _ _ s1 _ s2 s3 s4 s5 s6 s7 s8
  have h1 : s1.memsOk := h.ite h.modParams
  have h2 : s2.memsOk := h1.agreePending.agreeDev.modTwin
  have h3 : s3.memsOk := h2.modPort
  have h4 : s4.memsOk := h3.applyParams fun _ h => h.agreeTransit.whenDone fun h => h.agreeClassI.applyTransit.applyTwin
  have h5 : s5.memsOk := h4.modParams
  have h6 : s6.memsOk := h5.forEach fun _ _ h => h.ite h.portFollow
  have h7 : s7.memsOk := h6.stageCarry.modTwin
  have h8 : s8.memsOk := h7.agreeUnits
  exact (h8.swapOwner.ite h8).ite h6

theorem State.memsOk.takeAlone {p : Port} (h : s.memsOk) : (s.takeAlone p).memsOk := by
  have applied : (s.applyParams p (s.pendingOf p) true fun t => (t.ephemerisTake p).applyTransit).memsOk :=
    h.applyParams fun _ h => h.ephemerisTake.applyTransit
  unfold State.takeAlone
  extract_lets last _
  refine .ite h.stageTake.unitsAlone ?_
  clear_value last
  split
  · exact h.applyAgree.stageTake.unitsAlone
  · exact applied.stageTake.unitsAlone

theorem State.memsOk.takeTwin {p : Port} (h : s.memsOk) : (s.takeTwin p).memsOk := by
  unfold State.takeTwin
  split
  · exact h.applyAgree.restoreTake.stageTake
  · exact h.ite h.stepMissed.occur

theorem State.memsOk.windowTurn {p : Port} (h : s.memsOk) : (s.windowTurn p).memsOk := h.windowClose.modPort

theorem State.memsOk.portOn {p : Port} {twin : Bool} (h : s.memsOk) : (s.portOn p twin).memsOk :=
  (h.holdSettle.bandsSet.deferMark.unlessDone fun h => h.decideAlone).stopTransit.transitTriggers.sceneSwitch.windowTurn.modPort.openFrame

theorem State.memsOk.restoreIdle (h : s.memsOk) : s.restoreIdle.memsOk := by
  unfold State.restoreIdle
  split
  · exact h.ite h.restoreBegin
  · exact h

theorem State.memsOk.afterStop (h : s.memsOk) : s.afterStop.memsOk :=
  h.restoreIdle.unlessDone fun h => (h.settleIdle.applyTransit.whenDone fun h => h.dropOwner).whenDone fun h => h.gainOwner

theorem State.memsOk.meridian {p : Port} {why : Nat} {fe : Option (BitVec 16)} (h : s.memsOk) : (s.meridian p why fe).memsOk := by
  unfold State.meridian
  extract_lets s1 _ _ s2 _ _ _ s3 s4 s5 s6 s7 _ s8 s9 s10
  have h1 : s1.memsOk := h.frameOver
  have h2 : s2.memsOk := h1.modBoot
  have h3 : s3.memsOk := h2.takeTwin.ite h2.takeAlone
  have h4 : s4.memsOk := h3.stopsTake.clustersBack.failedBack
  have h5 : s5.memsOk := h4.ownerAtMer.ite (h4.ownerRise.ite h4)
  have h6 : s6.memsOk := h5.merWake.portEnds
  have h7 : s7.memsOk := by
    unfold s7
    split
    · exact h6.installState.modTwin
    · exact h6
  have h8 : s8.memsOk := h7.portOn.ite h7.windowTurn
  have h9 : s9.memsOk := h8.capture.ite h8.sendPropose.modTwin
  have h10 : s10.memsOk := h8.ite h9.digestSettle.testSettle.resyncNext
  exact h10.afterStop

/-! ### Machine/Port -/

theorem State.memsOk.portRun {p : Port} (h : s.memsOk) : (s.portRun p).memsOk :=
  h.deadline.devEnter.modPort.modTPort.occur.bandsSet.openFrame

theorem State.memsOk.streamTake {p : Port} {fr : Frame} {st : Fin 8} (h : s.memsOk) : (s.streamTake p fr st).memsOk :=
  h.ite (h.modStream.unlessDone fun h => h.modStream.ite h.modStream.occur)

theorem State.memsOk.streamsTake {p : Port} {fr : Frame} (h : s.memsOk) : (s.streamsTake p fr).memsOk :=
  h.ite (h.forEach fun _ _ h => h.streamTake)

theorem State.memsOk.frameBegin {p : Port} {fno : BitVec 16} (h : s.memsOk) : (s.frameBegin p fno).memsOk := by
  unfold State.frameBegin
  extract_lets s1 s2 s3
  have h1 : s1.memsOk := h.modPort
  have h2 : s2.memsOk := h1.occur
  have h3 : s3.memsOk := by
    unfold s3
    split
    · exact h2.streamsTake
    · exact h2
  exact h3.modCur

theorem State.memsOk.execFrameStart {p : Port} {vc : BitVec 2} {ecc : Ecc} {fno : BitVec 16} (h : s.memsOk) :
    (execFrameStart p vc ecc fno s).memsOk := by
  unfold Machine.execFrameStart
  refine State.memsOk.receive h (fun _ h1 => ?_)
  extract_lets _
  split
  · exact h1
  · exact h1.occur.ite h1.portRun.frameBegin
  · exact h1.portRun.frameBegin
  · exact (h1.meridian.ite h1).whenDone fun h => h.frameBegin

theorem State.memsOk.execFrameTimeout {p : Port} (h : s.memsOk) : (execFrameTimeout p s).memsOk := by
  unfold Machine.execFrameTimeout
  refine .ite h ?_
  split
  · exact .ite h.meridian h
  · exact h

theorem State.memsOk.execRowPacket {p : Port} {k : RowPkt} (h : s.memsOk) : (execRowPacket p k s).memsOk := by
  unfold Machine.execRowPacket
  refine State.memsOk.receive h (fun _ h1 => ?_)
  refine State.memsOk.inFrame h1 (fun _ _ h2 => ?_)
  split
  · exact h2.rowPacket
  · exact h2.occur

theorem State.memsOk.execEmbeddedData {p : Port} {k : RowPkt} (h : s.memsOk) : (execEmbeddedData p k s).memsOk :=
  h.receive fun _ h => h.inFrame fun _ _ h => h.modFrame.unlessDone
    fun h => ((h.ite h.modArr.portEvent).whenDone fun h => h.portEvent).modFrame.modArr.whenDone fun h => h.occur

theorem State.memsOk.execHsSyncError {p : Port} {align : Bool} {dt : BitVec 6} (h : s.memsOk) : (execHsSyncError p align dt s).memsOk := by
  unfold Machine.execHsSyncError
  refine .ite h ?_
  extract_lets s1
  have h1 : s1.memsOk := h.portEvent
  split
  · refine .ite ?_ h1
    split
    · exact h1.rowLost
    · exact h1
  · exact h1

/-! ### Machine/TwinCmds -/

theorem State.memsOk.heartState {w0 : W} (h : s.memsOk) : (s.heartState w0).memsOk :=
  ((h.forEach fun _ _ h => h.outOfStep).ite h.resyncAgain).ite h

theorem State.memsOk.execHeartbeat {w0 w1 w2 w3 : W} {hd : RxHdr} (h : s.memsOk) : (execHeartbeat w0 w1 w2 w3 s hd).memsOk :=
  h.onClass0 fun _ h => h.ite (((h.occur.ite h).whenDone fun h => h.occur).whenDone fun h => h.occur).heartState.modTwin

theorem State.memsOk.serveImage {bs : List Byte} (h : s.memsOk) : (s.serveImage bs).memsOk := h.linkSendAll

theorem State.memsOk.execLinkTrained {request : Option (List Byte)} (h : s.memsOk) : (execLinkTrained s request).memsOk := by
  unfold Machine.execLinkTrained
  extract_lets _ _ s1
  have h1 : s1.memsOk := h.linkDiscard.modTwin.occur.twinState.linkSend.ite h.modTwin.occur
  refine .ite h ?_
  refine .ite h.modTwin.occur ?_
  split
  · exact h1.serveImage
  · exact h1

theorem State.memsOk.execPeerOwnerChange {level : Bool} (h : s.memsOk) : (execPeerOwnerChange level s).memsOk := by
  unfold Machine.execPeerOwnerChange
  extract_lets _ s1 s2 _
  have h1 : s1.memsOk := h.modSerial
  have h2 : s2.memsOk := h1.occur
  exact .ite h1 (.ite h2 (.ite (h2.modTwin.ite h2) (.ite h2.modTwin.wantOwner (.ite h2.wantOwner h2))))

theorem State.memsOk.proposeCheck {p : Port} (h : s.memsOk) : (s.proposeCheck p).memsOk := by
  unfold State.proposeCheck
  extract_lets m s1 s2 s3
  have h1 : s1.memsOk := h.modTwin
  have h2 : s2.memsOk := h1.stepMissed
  have h3 : s3.memsOk := h2.ite h2.modTwin
  split
  · exact h3.ite (h3.modTwin.ite h1)
  · exact h

theorem State.memsOk.execAgreeSend {p : Port} (h : s.memsOk) : (execAgreeSend p s).memsOk := by
  unfold Machine.execAgreeSend
  refine .ite h ?_
  split
  · exact h
  · exact h.proposeCheck.modTwin.whenDone fun h => h.linkSend

theorem State.memsOk.agreeAtOnce {a : Agreement} (h : s.memsOk) : (s.agreeAtOnce a).memsOk := by
  unfold State.agreeAtOnce
  extract_lets _ s1 s2 s3 s4
  have h1 : s1.memsOk := h.agreePending.modParams
  have h2 : s2.memsOk := h1.applyBatch
  have h3 : s3.memsOk := h2.forEach fun _ _ h => h.portFollow
  have h4 : s4.memsOk := by
    unfold s4
    split
    · exact h3.modParams.devCheck.devSettle
    · exact h3
  exact h4.agreeClassI.forEach fun _ _ h => h.applyIdle

theorem State.memsOk.execState {r : Option ResyncRow} {hd : RxHdr} (h : s.memsOk) : (execState r s hd).memsOk := by
  unfold Machine.execState
  refine State.memsOk.onLink h (fun _ h1 => ?_)
  split
  · exact h1
  · exact h1.ite (h1.modTwin.unlessDone fun h => (h.ite h.outOfStep).sweepBegin)

theorem State.memsOk.rowInstalled {p : Port} {row : Nat} (h : s.memsOk) : (s.rowInstalled p row).memsOk :=
  (h.modTwin.whenDone fun h => h.sweepOver).ite ((h.forEach fun _ _ h => h.modTwin.occur).ite h)

theorem State.memsOk.execResyncRowInstall {p : Port} {row : Nat} (h : s.memsOk) : (execResyncRowInstall p row s).memsOk := by
  unfold Machine.execResyncRowInstall
  split
  · exact h
  · exact .ite h (h.modTwin.whenDone fun h => h.installRow.rowInstalled)

theorem State.memsOk.sweepSend {p : Port} {row : Nat} (h : s.memsOk) : (s.sweepSend p row).memsOk :=
  h.sendRow.modTwin.whenDone fun h => h.sweepOver

theorem State.memsOk.execResyncRowSend {p : Port} {row : Nat} (h : s.memsOk) : (execResyncRowSend p row s).memsOk :=
  .ite h (.ite (.ite h.sweepSend (.ite h.sendRow h)) (.ite h.sendRow (.ite h.modTwin.sweepBegin.sweepSend (.ite h.sendRow h))))

/-! ### Machine/Trim -/

theorem State.memsOk.trimCluster {m : TrimMeas} {k : Fin 12} (h : s.memsOk) : (s.trimCluster m k).memsOk := by
  unfold State.trimCluster
  extract_lets _
  refine .ite h ?_
  split
  · exact h
  · exact h.occur.clusterDetect.ite h.setTrim.modCluster.dcoSet

theorem State.memsOk.modTrimAsk {k : Fin 8} (h : s.memsOk) : (s.modTrimAsk k).memsOk := h.ite h.modMod.sxNext

theorem State.memsOk.execSelfTrimPass {m : TrimMeas} (h : s.memsOk) : (execSelfTrimPass m s).memsOk :=
  .ite h (((h.forEach fun _ _ h => h.trimCluster).whenDone fun h => h.occur).setTrim.modTransit.forEach
    fun _ _ h => h.modTrimAsk).refDue.modTransit.trimRecord

end Sys2Proof.Machine
end

section
/-! SUPPORT. What keeps the memories canonical (R240, log entry 2), each lemma after its definition: the master ports, the store, the NV
store, the host port, the outputs; and every command. -/
namespace Sys2Proof.Machine
set_option Elab.async false
variable {s : State}

/-! ### Machine/Masters -/

theorem State.memsOk.swWrite {v : W} (h : s.memsOk) : (s.swWrite v).memsOk := h.modSerial.swTake

theorem State.memsOk.xipWord {a : Nat} (h : s.memsOk) : (s.xipWord a).2.memsOk := by
  unfold State.xipWord
  split
  · exact h
  · dsimp only
    split
    · split
      · exact h
      · exact h.modSerial
    · split
      · exact h.modSerial
      · split
        · exact h.modSerial
        · exact h

theorem State.memsOk.xipInvalidate (h : s.memsOk) : s.xipInvalidate.memsOk := h.modSerial

theorem State.memsOk.cfgWrite {v : W} (h : s.memsOk) : (s.cfgWrite v).memsOk := h.modSerial.xipInvalidate

theorem State.memsOk.rdcmdWrite {v : W} (h : s.memsOk) : (s.rdcmdWrite v).memsOk := h.modSerial.xipInvalidate

theorem State.memsOk.mp0Finish {i : Nat} {code : Byte} (h : s.memsOk) : (s.mp0Finish i code).memsOk :=
  (h.modEngTo (Engine.memsOk_iff.mpr ⟨h.prog _, ringFinish_wf (h.data _)⟩)).modSerial.occur

theorem State.memsOk.mp0Issue {ctl : W} {c : Mp0Cmd} {ops : List XspiOp} (h : s.memsOk) : (s.mp0Issue ctl c ops).memsOk :=
  h.modSerial.whenDone fun h => h.xipInvalidate

theorem State.memsOk.mp0RingStart {i : Nat} (h : s.memsOk) : (s.mp0RingStart i).memsOk := by
  unfold State.mp0RingStart
  extract_lets _ _ _ _ d _
  have hd : d.2.memsOk := by
    unfold d
    split
    · exact h.storeRead
    · exact h
  exact hd.mp0Issue

theorem State.memsOk.fillStart {a : Nat} (h : s.memsOk) : (s.fillStart a).memsOk := h.modSerial.mp0Issue

theorem State.memsOk.mp0Start (h : s.memsOk) : s.mp0Start.memsOk := by
  unfold State.mp0Start
  refine .ite h ?_
  split
  · exact h.fillStart
  · extract_lets s1
    have h1 : s1.memsOk := h.ite h.ringFix
    split
    · exact h1.mp0Finish.ite h1.mp0RingStart
    · exact h1.mp0Issue.ite h1

theorem State.memsOk.mp0Piece {i piece : Nat} {bs : List Byte} (h : s.memsOk) : (s.mp0Piece i piece bs).memsOk :=
  (h.ite h.storeWrite).mp0Finish.ite (h.ite h.storeWrite).modSerial

theorem State.memsOk.mp0Host {code : Byte} (h : s.memsOk) : (s.mp0Host code).memsOk := h.modSerial.occur

theorem State.memsOk.mp0End {bs : List Byte} (h : s.memsOk) : (s.mp0End bs).memsOk := by
  unfold State.mp0End
  split
  · exact h
  · exact h.modSerial
  · exact h.mp0Piece
  · exact (h.ite (h.modSerialTo (Mem.write_wf _ _ h.hbuf))).mp0Host

theorem State.memsOk.execMp0PollTimeout (h : s.memsOk) : (execMp0PollTimeout s).memsOk := by
  unfold Machine.execMp0PollTimeout
  refine .ite h ?_
  extract_lets s1
  have h1 : s1.memsOk := h.modSerial.occur
  split
  · exact h1.mp0Finish.swTake
  · exact h1.mp0Host.swTake
  · exact h

theorem State.memsOk.hgo {v : W} (h : s.memsOk) : (s.hgo v).memsOk := h.modSerial

theorem State.memsOk.mp1Write {e : Fin 5} {i : Nat} {code : Byte} (h : s.memsOk) : (s.mp1Write e i code).memsOk :=
  h.modEngTo (Engine.memsOk_iff.mpr ⟨h.prog _, ringFinish_wf (h.data _)⟩)

theorem State.memsOk.mp1Defer {e : Fin 5} {i : Nat} {d : Mp1Desc} (h : s.memsOk) : (s.mp1Defer e i d).memsOk :=
  h.ite h.modSerial.occur.occur

theorem State.memsOk.mp1Refuse {e : Fin 5} (h : s.memsOk) : (s.mp1Refuse e).memsOk := by
  unfold State.mp1Refuse
  extract_lets _ s1
  have h1 : s1.memsOk := h.ringFix.ite h
  split
  · exact h1.mp1Write.modSerial.occur.ite h1
  · exact h1

theorem State.memsOk.mp1Begin {e : Fin 5} (h : s.memsOk) : (s.mp1Begin e).memsOk := by
  unfold State.mp1Begin
  split
  · exact h
  · exact h.dataFix.modSerial

theorem State.memsOk.mp1Late {since : List Nat} {e : Fin 5} (h : s.memsOk) : (s.mp1Late since e).memsOk := by
  unfold State.mp1Late
  split
  · exact h.ite h.mp1Defer
  · exact h

theorem State.memsOk.execMp1TransferStart {sinceUs10 : List Nat} {rested : BitVec 8} (h : s.memsOk) :
    (execMp1TransferStart sinceUs10 rested s).memsOk := by
  unfold Machine.execMp1TransferStart
  refine .ite h ?_
  extract_lets s1 s2
  have h1 : s1.memsOk := h.forEach fun _ _ h => h.forEach fun _ _ h => h.mp1Refuse
  have h2 : s2.memsOk := h1.forEach fun _ _ h => h.mp1Late
  split
  · exact h2.mp1Begin
  · exact h2

theorem State.memsOk.mp1Over {x : Mp1Xfer} {code : Byte} (h : s.memsOk) : (s.mp1Over x code).memsOk :=
  ((h.modSerial.whenDone fun h => h.mp1Write).occur.whenDone fun h => h.modPort).swTake

theorem State.memsOk.execMp1TransferEnd {rx : List Byte} {late : Bool} (h : s.memsOk) : (execMp1TransferEnd rx late s).memsOk := by
  unfold Machine.execMp1TransferEnd
  split
  · exact h
  · next x _ =>
    split
    · exact h
    · extract_lets n s1 s2
      have h1 : s1.memsOk := by
        unfold s1
        split
        · refine h.modEngTo (Engine.memsOk_iff.mpr ?_)
          exact ⟨h.prog _, Mem.write_wf _ _ (h.data _)⟩
        · exact h
      exact (h1.occur.ite h1).mp1Over

theorem State.memsOk.execMp1ReadyTimeout (h : s.memsOk) : (execMp1ReadyTimeout s).memsOk := by
  unfold Machine.execMp1ReadyTimeout
  split
  · exact h
  · exact .ite h h.modSerial.occur.mp1Over

/-! ### Machine/StoreCmds -/

theorem State.memsOk.hostPut {a : Nat} {bs : List Byte} (h : s.memsOk) : (s.hostPut a bs).memsOk := by
  unfold State.hostPut
  extract_lets r s1 s2 s3
  have h1 : s1.memsOk := by
    unfold s1 r
    split
    · exact h.free
    · exact h
  have h2 : s2.memsOk := h1.storeWrite
  have h3 : s3.memsOk := h2.modStore.ite h2
  have stale : ({ s3 with clusters := updAll s3.clusters fun _ k =>
      { k with stale := k.stale || decide (k.slot.map (·.val) = some ((a - kslotBase) / 4096)) } } : State).memsOk :=
    h3.updClusters fun _ _ => rfl
  exact h1.countLines.ite (stale.ite h3)

theorem State.memsOk.hostPuts {fuel a : Nat} {ws : List W} (h : s.memsOk) : (State.hostPuts fuel a ws s).memsOk := by
  fun_induction State.hostPuts fuel a ws s with
  | case1 => exact h
  | case2 => exact h
  | case3 => exact h.hostPut
  | case4 _ _ _ _ _ _ _ ih => exact ih h.hostPut
  | case5 _ _ _ _ _ _ _ ih => exact ih h.hostPut

theorem State.memsOk.aperturePut {a : Nat} {ws : List W} (h : s.memsOk) : (s.aperturePut a ws).memsOk := h.hostPuts

theorem State.memsOk.apertureGet {i : Nat} (h : s.memsOk) : (s.apertureGet i).2.memsOk :=
  h.readIte (h.storeRead.modStore.readIte h.storeRead)

theorem State.memsOk.loadPut {off : Nat} {w : W} (h : s.memsOk) : (s.loadPut off w).memsOk := by
  unfold State.loadPut
  split
  · next e _ _ _ _ =>
    refine h.ite (h.modEngTo ?_)
    split
    · exact Engine.memsOk_iff.mpr ⟨h.prog e, Mem.setWord_wf _ _ (h.data e)⟩
    · exact Engine.memsOk_iff.mpr ⟨Mem.setWord_wf _ _ (h.prog e), h.data e⟩
  · exact h

theorem State.memsOk.loadPuts {off : Nat} {ws : List W} (h : s.memsOk) : (s.loadPuts off ws).memsOk := by
  unfold State.loadPuts
  split
  · exact h.hostPuts
  · exact h.forEach fun _ _ h => h.loadPut

theorem State.memsOk.engineWord {e : Eng} {data : Bool} {a : Nat} (h : s.memsOk) : (s.engineWord e data a).2.memsOk :=
  h.dataFix.ite (h.fetchFix.ite h)

theorem State.memsOk.loadGet {off : Nat} (h : s.memsOk) : (s.loadGet off).2.memsOk := by
  unfold State.loadGet
  split
  · exact h.readIte h.engineWord
  · exact h.apertureGet.readIte h
  · exact h

/-! ### Machine/NvCmds -/

theorem State.memsOk.hostPage {q off : Nat} {bs : List Byte} {src : NvSrc} {skip : Nat × Nat} (h : s.memsOk) :
    (s.hostPage q off bs src skip).memsOk :=
  h.nvQueue.ite (h.nvQueue.linkSend.ite h.modNv.linkSend)

theorem State.memsOk.winPut {off : Nat} {ws : List W} (h : s.memsOk) : (s.winPut off ws).memsOk := h.hostPage.ite h.hostPage

theorem State.memsOk.pwinPut {off : Nat} {ws : List W} (h : s.memsOk) : (s.pwinPut off ws).memsOk := h.forEach fun _ _ h => h.hostPage

theorem State.memsOk.unlock {ws : List W} (h : s.memsOk) : (s.unlock ws).memsOk :=
  h.modNv.ite ((h.itemCheck.modNv fun _ => by split <;> rfl).occur.ite (h.itemCheck.modNv fun _ => by split <;> rfl).occur.note)

theorem State.memsOk.nvLock {v : W} (h : s.memsOk) : (s.nvLock v).memsOk := h.modNv.whenDone fun h => h.occur

theorem State.memsOk.pwset {ws : List W} (h : s.memsOk) : (s.pwset ws).memsOk := h.modNv.ite h

theorem State.memsOk.secPut {off : Nat} {w : W} (h : s.memsOk) : (s.secPut off w).memsOk := h.modNv

theorem State.memsOk.almWin {x : Nat} (h : s.memsOk) : (s.almWin x).2.memsOk := h.readIte ((h.nvRead.ite h).whenDone fun h => h.modNv)

theorem State.memsOk.nvWin {x : Nat} (h : s.memsOk) : (s.nvWin x).2.memsOk := h.readIte h.nvRead

theorem State.memsOk.pwin {x : Nat} (h : s.memsOk) : (s.pwin x).2.memsOk := by
  unfold State.pwin
  split
  · exact h
  · dsimp only
    exact h.itemCheck

theorem State.memsOk.execAlmanacRecordEnter (h : s.memsOk) : (execAlmanacRecordEnter s).memsOk := by
  unfold Machine.execAlmanacRecordEnter
  split
  · exact h
  · refine .ite h ?_
    extract_lets s1 s2
    have h1 : s1.memsOk := h.queueTake.recEnter
    have h2 : s2.memsOk := by
      unfold s2
      split
      · exact h1.latch
      · exact h1
    exact h2.occur.ite h2

/-! ### Machine/Laeno -/

theorem State.memsOk.traceSync (h : s.memsOk) : s.traceSync.memsOk :=
  h.ite (h.free.free.modEvents.modEvents.ite h.free.free.modEvents.modEvents)

theorem State.memsOk.execLaenoPacketSend (h : s.memsOk) : (execLaenoPacketSend s).memsOk := by
  unfold Machine.execLaenoPacketSend
  refine .ite h ?_
  split
  · exact h.modEvents
  · refine .ite h.free.modEvents ?_
    split
    · exact h.modEvents
    · exact h

theorem State.memsOk.laenoCtl {v : W} (h : s.memsOk) : (s.laenoCtl v).memsOk := h.modEvents.whenDone fun h => h.traceSync

theorem State.memsOk.evtClear {g : Fin 48} {v : W} (h : s.memsOk) : (s.evtClear g v).memsOk := h.modEvents.whenDone fun h => h.trace

/-! ### Machine/HostMap -/

theorem State.memsOk.identRead {a : Nat} (h : s.memsOk) : (s.identRead a).2.memsOk := by
  unfold State.identRead
  split <;> exact h

theorem State.memsOk.queueRead {a : Nat} (h : s.memsOk) : (s.queueRead a).2.memsOk := by
  unfold State.queueRead
  extract_lets _
  refine .readIte h ?_
  split <;> exact h

theorem State.memsOk.eventsRead {a : Nat} (h : s.memsOk) : (s.eventsRead a).2.memsOk := by
  obtain ⟨o, ho⟩ : ∃ o, a - 0x20000 = o := ⟨_, rfl⟩
  unfold State.eventsRead
  simp only [ho]
  exact .readDite (fun _ => h) fun _ => .readDite (fun _ => h) fun _ => .readDite (fun _ => h) fun _ => .readDite (fun _ => h) fun _ =>
    .readIte h (.readIte h (.readIte h (.readIte h (.readDite (fun _ => .readIte h h) fun _ => h))))

theorem State.memsOk.almanacRead {a : Nat} (h : s.memsOk) : (s.almanacRead a).2.memsOk := by
  unfold State.almanacRead
  extract_lets _
  refine .readIte h.almWin ?_
  split <;> exact h

theorem State.memsOk.nvRegRead {a : Nat} (h : s.memsOk) : (s.nvRegRead a).2.memsOk := by
  unfold State.nvRegRead
  extract_lets n
  split
  · exact h.nvWin
  · split
    · exact h.pwin
    · split
      · dsimp only
        exact h.itemCheck
      · repeat' split
        all_goals exact h

theorem State.memsOk.sextantRead {a : Nat} (h : s.memsOk) : (s.sextantRead a).2.memsOk := by
  obtain ⟨o, ho⟩ : ∃ o, a - 0x2C000 = o := ⟨_, rfl⟩
  unfold State.sextantRead
  simp only [ho]
  refine h.readIte (h.readIte (.readDite (fun _ => ?_) fun _ => .readIte (h.lastLo.readIte h) h))
  split
  case h_1 => exact h.resLo
  case h_3 => exact h.accLo
  all_goals exact h

theorem State.memsOk.thermalRead {a : Nat} (h : s.memsOk) : (s.thermalRead a).2.memsOk := by
  unfold State.thermalRead
  extract_lets _
  split
  · exact h
  · split
    · exact h
    · split
      · exact h
      · split <;> exact h

theorem State.memsOk.faultsRead {a : Nat} (h : s.memsOk) : (s.faultsRead a).2.memsOk := by
  unfold State.faultsRead
  extract_lets _ _
  split
  · exact h
  · refine .readIte h ?_
    split <;> exact h

theorem State.memsOk.twinRead {a : Nat} (h : s.memsOk) : (s.twinRead a).2.memsOk := by
  unfold State.twinRead
  extract_lets _
  split <;> exact h

theorem State.memsOk.observeRead {a : Nat} (h : s.memsOk) : (s.observeRead a).2.memsOk := by
  unfold State.observeRead
  extract_lets _ _
  refine .readIte (h.modEvents.readIte h) ?_
  split <;> exact h

theorem State.memsOk.mastersRead {a : Nat} (h : s.memsOk) : (s.mastersRead a).2.memsOk := by
  unfold State.mastersRead
  extract_lets _
  refine .readIte h ?_
  split <;> exact h

theorem State.memsOk.hostWord {a : Nat} (h : s.memsOk) : (s.hostWord a).2.memsOk := by
  unfold State.hostWord
  extract_lets some'
  have answer {r : W × State} (hr : r.2.memsOk) : (some' r).2.memsOk := hr
  split
  · exact h
  · exact answer h.identRead
  · exact answer h.queueRead
  · exact answer h.loadGet
  · exact answer h.eventsRead
  · exact answer h.almanacRead
  · exact answer h.nvRegRead
  · exact answer h.sextantRead
  · exact answer h.thermalRead
  · exact answer h.faultsRead
  · exact answer h.twinRead
  · exact answer h.observeRead
  · exact answer h.mastersRead
  · exact h
  · exact answer h.apertureGet
  · exact h.xipWord

/-! ### Machine/QueueCmds -/

theorem State.memsOk.submitPut {ws : List W} (h : s.memsOk) : (s.submitPut ws).memsOk := h.modQueue

theorem State.memsOk.execCmdEntryDeliver (h : s.memsOk) : (execCmdEntryDeliver s).memsOk := by
  unfold Machine.execCmdEntryDeliver
  refine .ite h ?_
  split
  · exact .ite h.chanPut.modQueue h
  · exact h

theorem State.memsOk.execCompletionPlace (h : s.memsOk) : (execCompletionPlace s).memsOk := by
  unfold Machine.execCompletionPlace
  refine .ite h ?_
  split
  · exact .ite h h.modQueue.occur.stopSettle
  · exact h

theorem State.memsOk.cplCi {v : W} (h : s.memsOk) : (s.cplCi v).memsOk := h.modQueue.ite h.modQueue

/-! ### Machine/HostPort -/

theorem State.memsOk.loadCtl {v : W} (h : s.memsOk) : (s.loadCtl v).memsOk := by
  unfold State.loadCtl
  extract_lets _
  split
  · exact h.loadGo
  · exact h.startReq
  · exact h.stopReq
  · exact h.abortReq
  · exact h

theorem State.memsOk.hostSet {a : Nat} {w : W} (h : s.memsOk) : (s.hostSet a w).memsOk := by
  unfold State.hostSet
  split
  · exact h.frame.ite h
  · split
    · exact h.cplCi
    · exact h.modQueue
    · exact h.modQueue
    · exact h.loadCtl
    · exact h.modQueue
    · exact h
  · extract_lets _
    split
    · exact h.evtClear
    · exact .dite (fun _ => h.modEvents) fun _ => .dite (fun _ => h.modEvents) fun _ => .dite (fun _ => h.modEvents) fun _ => h
  · split
    · exact h.modNv
    · exact h.modNv
    · exact h.flush.ite h
    · exact h.almClear.ite h
    · exact h
  · refine .ite h.pwinPut ?_
    refine .ite h.secPut ?_
    split
    · exact h.modNv
    · exact h.modNv
    · exact h.modNv
    · exact h.nvLock
    · exact h
  · exact h.accClr.ite h
  · split
    · exact h.modThermal
    · exact h.frame
    · exact h
  · split
    · exact h.modFm
    · exact h.mapClear
    · exact h.modStore
    · exact h.modStore
    · exact h
  · split
    · exact h.laenoCtl
    · exact h.modEvents
    · exact h.modEvents
    · exact h.modEvents
    · exact h
  · refine .ite (h.modSerialTo (Mem.setWord_wf _ _ h.hbuf)) ?_
    split
    · exact h.cfgWrite
    · exact h.rdcmdWrite
    · exact h.modSerial
    · exact h.modSerial
    · exact h.modSerial
    · exact h.hgo
    · exact h.swWrite
    · exact h
  · exact h

theorem State.memsOk.hostSets {a : Nat} {ws : List W} (h : s.memsOk) : (State.hostSets a ws s).memsOk := by
  induction ws generalizing a s with
  | nil => exact h
  | cons w ws ih => exact ih h.hostSet

theorem State.memsOk.hostApply {addr : Nat} {ws : List W} (h : s.memsOk) : (s.hostApply addr ws).memsOk :=
  h.submitPut.ite (h.winPut.ite (h.pwinPut.ite (h.unlock.ite (h.pwset.ite (h.aperturePut.ite (h.loadPuts.ite h.hostSets))))))

theorem State.memsOk.hostApplyOne (h : s.memsOk) : s.hostApplyOne.memsOk := by
  unfold State.hostApplyOne
  split
  · exact h
  · exact h.ite (h.modSerial.unlessDone fun h => h.hostApply)

theorem State.memsOk.hostDrain (h : s.memsOk) : s.hostDrain.memsOk := h.foldl fun _ _ h => h.hostApplyOne

theorem State.memsOk.hostJudge {addr : Nat} {ws : List W} {cut : Cut} (h : s.memsOk) : (s.hostJudge addr ws cut).memsOk := by
  unfold State.hostJudge
  split
  · exact h.hostReject.whenDone fun h => h.modQueue.occur
  · exact h.hostAdmit.ite h.hostAdmit.modSerial

theorem State.memsOk.hostTake {addr : W} {ws : List W} {cut : Cut} (h : s.memsOk) : (s.hostTake addr ws cut).memsOk :=
  h.modSerial.ite h.hostJudge

theorem State.memsOk.frameGo (h : s.memsOk) : s.frameGo.memsOk := by
  unfold State.frameGo
  split
  · exact h.ite h.modSerial.hostTake
  · exact h

theorem State.memsOk.hostFrame {addr : W} {ws : List W} {cut : Cut} (h : s.memsOk) : (s.hostFrame addr ws cut).memsOk :=
  h.ite (h.hostBegin.whenDone fun h => h.hostApplyOne).hostTake

theorem State.memsOk.hostWrite {addr : Nat} {ws : List W} (h : s.memsOk) : (s.hostWrite addr ws).memsOk :=
  h.ite h.hostBegin.hostDrain.hostTake.hostDrain

theorem State.memsOk.readWords {l : List Nat} (h : s.memsOk) : (State.readWords l s).memsOk := by
  induction l generalizing s with
  | nil => exact h.modSerial
  | cons a l ih =>
    have ha : (s.hostWord a).2.memsOk := h.hostWord
    unfold State.readWords
    split
    · next heq =>
      rw [heq] at ha
      exact ih ha.modSerial
    · next heq =>
      rw [heq] at ha
      exact ha.modSerial

theorem State.memsOk.readGo (h : s.memsOk) : s.readGo.memsOk := (h.readWords.ite h).whenDone fun h => h.readClose

theorem State.memsOk.hostRead {addr n : Nat} {cut : Cut} (h : s.memsOk) : (s.hostRead addr n cut).memsOk :=
  h.ite h.hostBegin.hostDrain.modSerial.readGo

theorem State.memsOk.hostStatus {n : Nat} (h : s.memsOk) : (s.hostStatus n).memsOk := h.ite h.hostBegin.hostAdmit.modSerial

theorem State.memsOk.hostByte {c : Byte} {addr : W} {ws : List W} {n : Nat} {cut : Cut} (h : s.memsOk) :
    (s.hostByte c addr ws n cut).memsOk := by
  unfold State.hostByte
  split
  · exact h.hostFrame
  · exact h.hostRead
  · exact h.hostStatus
  · exact h.ite h.hostBegin.hostReject

theorem State.memsOk.execHrdyTimeout (h : s.memsOk) : (execHrdyTimeout s).memsOk := by
  unfold Machine.execHrdyTimeout
  split
  · exact h
  · exact .ite h (h.modSerial.occur.whenDone fun h => h.occur).readFail.readGo

/-! ### Machine/Outputs -/

theorem State.memsOk.srcRow {st : Fin 8} {f : OutFrame} {r : Nat} (h : s.memsOk) : (s.srcRow st f r).2.2.memsOk := by
  unfold State.srcRow
  extract_lets
  split
  · exact h.storeRead
  · split
    · exact h
    · exact h.storeRead

theorem State.memsOk.imageLine {st : Fin 8} {f : OutFrame} {j : Nat} (h : s.memsOk) : (s.imageLine st f j).2.2.memsOk :=
  foldl_memsOk h fun _ _ h => h.srcRow

theorem State.memsOk.exportLine {st : Fin 8} {f : OutFrame} {j : Nat} (h : s.memsOk) : (s.exportLine st f j).2.2.memsOk := by
  refine foldl_memsOk h fun a x h => ?_
  dsimp only
  split
  · exact h.storeRead.free
  · exact h.storeRead

theorem State.memsOk.execStreamFrameStart {st : Fin 8} (h : s.memsOk) : (execStreamFrameStart st s).memsOk := by
  unfold Machine.execStreamFrameStart
  split
  · exact h
  · exact .ite h h.streamCut.modStream.occur

theorem State.memsOk.ringPut {st : Fin 8} {bs : List Byte} (h : s.memsOk) : (s.ringPut st bs).memsOk :=
  (h.storeWrite.whenDone fun h => h.storeWrite).modStream

theorem State.memsOk.execStreamLineSend {st : Fin 8} (h : s.memsOk) : (execStreamLineSend st s).memsOk := by
  unfold Machine.execStreamLineSend
  split
  · exact h
  · extract_lets _ _ _ l s1 _ _ _ _ _ _ s2
    have h1 : s1.memsOk := by
      unfold s1 l
      split
      · exact h.exportLine
      · exact h.imageLine
    have h2 : s2.memsOk := h1.ringPut
    split
    · exact h
    · split
      · exact h
      · exact h2.modStream

theorem State.memsOk.execTxPacket {x : Fin 2} (h : s.memsOk) : (execTxPacket x s).memsOk := by
  unfold Machine.execTxPacket
  dsimp only
  split
  · exact h
  · split
    · exact h
    · split
      · exact h
      · have sent : (if (s.txs.get x).line = 1 then s.occur (srcTx x 1) else s).memsOk := h.occur.ite h
        split
        · split
          · exact sent.modTx.modStream.modStream.streamEnded
          · exact sent.modTx.modStream.streamFrameOver
          · exact sent.modTx.modStream
        · split
          · exact sent.modTx.modStream.modStream
          · exact sent.modTx.modStream

/-! ### Machine/Clocks -/

theorem State.memsOk.fenceDrop {i : Nat} (h : s.memsOk) : (s.fenceDrop i).memsOk := h.modClocks.occur.ite h

/-! ### Machine/Svc -/

theorem State.memsOk.svcResult {z : Zx} {e : Eng} {c : Ctx} {d : Reg} {res : Nat} (h : s.memsOk) : (s.svcResult z e c d res).memsOk :=
  h.done.whenDone fun h => h.occur

theorem State.memsOk.svc {z : Zx} {d : Reg} {service : Nat} {res : Eng → Ctx → State → Nat} {act : Eng → Ctx → State → State} (h : s.memsOk)
    (hact : ∀ x y t, t.memsOk → (act x y t).memsOk) :
    (s.svc z d service res act).memsOk := by
  unfold State.svc
  refine State.memsOk.zx h (fun _ _ h1 => ?_)
  split
  · exact h1
  · exact h1.raise.ite (h1.svcResult.whenDone fun h => hact _ _ _ h)

theorem State.memsOk.testPlace {u : Fin 182} {r : Req} (h : s.memsOk) : (s.testPlace u r).memsOk :=
  h.modUnit.modUnit.ite (h.modUnit.unlessDone fun h => .dite (fun _ => h.ite h.testBegin) fun _ => .dite
    (fun _ => h.modSensor.testBegin.sensorChange) fun _ => h.testBegin)

theorem State.memsOk.execSvcSelfTest {z : Zx} {d a : Reg} (h : s.memsOk) : (execSvcSelfTest z d a s).memsOk := by
  unfold Machine.execSvcSelfTest
  refine State.memsOk.svc h (fun _ _ _ h1 => ?_)
  extract_lets _ _
  split
  · exact h1.testPlace.settleIdle
  · exact h1.modFm.whenDone fun h => h.rowDetect

theorem State.memsOk.retirePlace {u : Fin 182} {r : Req} (h : s.memsOk) : (s.retirePlace u r).memsOk :=
  .dite (fun _ => h.modUnit.laneGone) fun _ => .dite (fun _ => h.modUnit.blwRelease.blwShut.parFollow) fun _ => h.modUnit

theorem State.memsOk.execSvcRequestRetirement {z : Zx} {d a : Reg} (h : s.memsOk) : (execSvcRequestRetirement z d a s).memsOk := by
  unfold Machine.execSvcRequestRetirement
  refine State.memsOk.svc h (fun _ _ _ h1 => ?_)
  extract_lets _ _ s2
  have h2 : s2.memsOk := by
    unfold s2
    split
    · exact h1.retirePlace
    · exact h1.modFm
  exact h2.fmPermanent.settleIdle.fmDeliver

theorem State.memsOk.execSvcNoteRecord {z : Zx} {d a : Reg} (h : s.memsOk) : (execSvcNoteRecord z d a s).memsOk := by
  unfold Machine.execSvcNoteRecord
  split
  · exact h.zx fun _ _ h => h
  · refine h.zx fun c t h => ?_
    dsimp only
    split
    · exact h.blockOn
    · split
      · exact h.raise
      · have fixed (ps : List Nat) : (forEach ps (fun p s => s.softFix z.agent (.data p)) t).memsOk := h.forEach fun _ _ h => h.softFix
        split
        · exact (fixed _).svcResult.queueRec
        · exact (fixed _).svcResult

/-! ### Machine/ZxVector -/

theorem State.memsOk.vec {z : Zx} {body : LaneNo → Lane → Ctx → State → State} (h : s.memsOk)
    (hbody : ∀ x y z t, t.memsOk → (body x y z t).memsOk) :
    (s.vec z body).memsOk := by
  unfold State.vec
  refine State.memsOk.zx h (fun _ _ h1 => ?_)
  split
  · exact h1
  · exact hbody _ _ _ _ h1

theorem State.memsOk.vdone {l : LaneNo} {c : Ctx} {p : Fin 4} {vd : Fin 8} {r : Vec} (h : s.memsOk) : (s.vdone l c p vd r).memsOk :=
  h.modLane.done

theorem State.memsOk.vop {z : Zx} {p : Fin 4} {vd va vb : Fin 8} {bad : Option Byte} {f : W → W → W → W} (h : s.memsOk) :
    (s.vop z p vd va vb bad f).memsOk := by
  unfold State.vop
  refine State.memsOk.vec h (fun _ _ _ _ h1 => ?_)
  split
  · exact h1.raise
  · exact h1.vdone

theorem State.memsOk.execVshr {z : Zx} {p : Fin 4} {vd va : Fin 8} {sh : BitVec 5} {mode : Fin 4} {width : BitVec 5} {sgn round : Bool}
    (h : s.memsOk) :
    (execVshr z p vd va sh mode width sgn round s).memsOk := by
  unfold Machine.execVshr
  exact h.vop

theorem State.memsOk.execVsat {z : Zx} {p : Fin 4} {vd va : Fin 8} {width : BitVec 5} {sgn : Bool} (h : s.memsOk) :
    (execVsat z p vd va width sgn s).memsOk := by
  unfold Machine.execVsat
  exact h.vop

theorem State.memsOk.vTroubled {l : LaneNo} {c : Ctx} {t : VTrouble} (h : s.memsOk) : (s.vTroubled l c t).memsOk := by
  unfold State.vTroubled
  split
  · exact h.laneException
  · exact h.blockOn

theorem State.memsOk.execVld {z : Zx} {p : Fin 4} {vd : Fin 8} {g : Reg} {mode : Fin 4} {off : BitVec 9} (h : s.memsOk) :
    (execVld z p vd g mode off s).memsOk := by
  unfold Machine.execVld
  refine h.vec fun _ _ _ _ h => ?_
  dsimp only
  split
  · exact h.vTroubled
  · refine (h.forEach fun _ _ h => ?_).vdone
    split
    · exact h.softFix
    · exact h

theorem State.memsOk.execVst {z : Zx} {p : Fin 4} {vd : Fin 8} {g : Reg} {mode : Fin 4} {off : BitVec 9} (h : s.memsOk) :
    (execVst z p vd g mode off s).memsOk := by
  unfold Machine.execVst
  refine State.memsOk.vec h (fun _ _ _ _ h1 => ?_)
  refine .ite h1.raise ?_
  extract_lets _ _ _
  split
  · exact h1.vTroubled
  · refine State.memsOk.done ?_
    refine State.memsOk.forEach h1 (fun _ _ h2 => ?_)
    split
    · exact (h2.ite h2.softFix).storeAt
    · exact h2

/-! ### Every command -/

theorem State.memsOk.exec (h : s.memsOk) (c : Instr) : Out.memsOk (Machine.exec c s) := by
  unfold Machine.exec
  cases c with
  | add => exact h.alu
  | sub => exact h.alu
  | and => exact h.aluZN
  | or => exact h.aluZN
  | xor => exact h.aluZN
  | shl => exact h.aluShift
  | shr => exact h.aluShift
  | sra => exact h.aluShift
  | mul => exact h.aluZN
  | mulh => exact h.aluZN
  | min => exact h.aluZN
  | max => exact h.aluZN
  | clamp => exact h.aluZN
  | sel => exact h.zx fun _ _ h => h.raise.ite h.done
  | addi => exact h.aluImm
  | andi => exact h.aluImm
  | ori => exact h.aluImm
  | xori => exact h.aluImm
  | shli => exact h.aluImm
  | shri => exact h.aluImm
  | srai => exact h.aluImm
  | lui => exact h.aluImm
  | cmpi => exact h.zx fun _ _ h => h.done
  | ldW => exact h.load
  | ldH => exact h.load
  | ldHs => exact h.load
  | ldB => exact h.load
  | ldBs => exact h.load
  | stW => exact h.storeReg
  | stH => exact h.storeReg
  | stB => exact h.storeReg
  | ldPb => exact h.zx fun _ _ h => h.done.ite h.raise
  | param => exact h.execParam
  | commit => exact h.execCommit
  | bcc => exact h.zx fun _ _ h => h.raise.ite (h.putCtx.flow.ite h.done)
  | call => exact h.zx fun _ _ h => h.raise.ite (h.putCtx.flow.ite h.done)
  | ret => exact h.zx fun _ _ h => h.raise.ite h.putCtx.flow
  | loop => exact h.zx fun _ _ h => h.raise.ite (h.putCtx.ite h.putCtx)
  | wait => exact h.execWait
  | waitResume => exact h.execWaitResume
  | yield => exact h.execYield
  | mer => exact h.zx fun _ _ h => .dite (fun _ => h.blockOn.ite h.done) fun _ => h.raise
  | merResume => exact h.execMerResume
  | send => exact h.execSend
  | sendUnblock => exact h.execSendUnblock
  | messageDelivery => exact h.execMessageDelivery
  | recv => exact h.execRecv
  | recvResume => exact h.execRecvResume
  | tileLd => exact h.tileIssue
  | tileSt => exact h.tileIssue
  | tileTransferComplete => exact h.execTileTransferComplete
  | svcStartTransit => exact h.svc fun _ _ _ h => .dite (fun _ => h.modTransit.transitDue) fun _ => h
  | svcSelfTest => exact h.execSvcSelfTest
  | svcNoteRecord => exact h.execSvcNoteRecord
  | svcRequestRetirement => exact h.execSvcRequestRetirement
  | svcReadAgreedTime => exact h.zx fun _ _ h => h.done
  | post => exact h.execPost
  | vld => exact h.execVld
  | vst => exact h.execVst
  | vadd => exact h.vop
  | vsub => exact h.vop
  | vmul => exact h.vop
  | vmac => exact h.vop
  | vpoly => exact h.vop
  | vmed3 => exact h.vop
  | vclamp => exact h.vop
  | vsel => exact h.vec fun _ _ _ _ h => h.vdone
  | vcmp => exact h.vec fun _ _ _ _ h => h.raise.ite (h.modLane fun _ => by unfold Lane.pput; split <;> rfl).done
  | vshr => exact h.execVshr
  | vsat => exact h.execVsat
  | resetRelease => exact h.execResetRelease
  | bootLoadComplete => exact .ite h (.ite (.ite h.bootLoad h.bootLoad) (.ite h.imgBuffer.bootLoad h))
  | bootImageTimeout => exact .ite h h.modBoot
  | meRestartDone => exact h.execMeRestartDone
  | go => exact h.hostWrite
  | loadGoDone => exact h.execLoadGoDone
  | startEngine => exact h.hostWrite
  | stopEngine => exact h.hostWrite
  | abortStop => exact h.hostWrite
  | loadWindowWrite => exact h.hostWrite
  | cmdSubmit => exact h.hostWrite
  | cmdEntryDeliver => exact h.execCmdEntryDeliver
  | completionPlace => exact h.execCompletionPlace
  | cplCiWrite => exact h.hostWrite
  | paramBlockIdleApply => exact .ite h h.applyIdle
  | frameStart => exact h.execFrameStart
  | frameEnd => exact h.receive fun _ h => h.inFrame fun _ _ h => h.meridian
  | frameTimeout => exact h.execFrameTimeout
  | stallTimeout => exact .ite h (h.portLeave.occur.forEach fun _ _ h => h.occur.ite h).portFollow.afterStop
  | lineStart => exact h.receive fun _ h => h.inFrame fun _ _ h => h.modFrame.ite h
  | rowPacket => exact h.execRowPacket
  | embeddedData => exact h.execEmbeddedData
  | hsSyncError => exact h.execHsSyncError
  | skewCalibration => exact .ite h h.modPort.occur
  | ulpsTransition => exact .ite h h.occur
  | settingsWindowClose => exact .ite h h.windowClose
  | portSelfTest => exact .ite h (.ite h.modPort (.ite h.modUnit.modPort h))
  | hearthInvocation => exact h.execHearthInvocation
  | radiometricRow => exact h.execRadiometricRow
  | statsNotifyDeliver => exact .ite h h.modEng.latch.modPort
  | frameDeadline => exact .ite h h.deadline.earlyZones.clocksTake
  | invocationTimeout => exact .ite h (h.detect.whenDone fun h => h.dropInvoc).settleUnit
  | transitCloseTimeout => exact h.execTransitCloseTimeout
  | transitOpenTimeout => exact h.execTransitOpenTimeout
  | transitAccumulate => exact h.execTransitAccumulate
  | transitFinish => exact h.execTransitFinish
  | transitStagingComplete => exact h.execTransitStagingComplete
  | transitMergeRow => exact .ite h (h.mergeRow.modTransit.whenDone fun h => h.mergeEnd)
  | productionLoadDone => exact h.execProductionLoadDone
  | selfTrimPass => exact h.execSelfTrimPass
  | rowCopyDone => exact h.execRowCopyDone
  | rowCopyBackDone => exact h.execRowCopyBackDone
  | migrationBlockMove => exact .ite h h.migrate
  | scrubRead => exact .ite h ((h.modStore.ite h.checkWord).whenDone fun h => h.modStore)
  | scrubLate => exact .ite h (h.forEach fun _ _ h => h.occur)
  | apertureWrite => exact h.hostWrite
  | apertureRead => exact h.hostRead
  | streamFrameStart => exact h.execStreamFrameStart
  | streamLineSend => exact h.execStreamLineSend
  | txPacket => exact h.execTxPacket
  | txUlpsEntry => exact .ite h h.modTx.occur
  | unitDrained => exact h.execUnitDrained
  | selfTestDone => exact h.execSelfTestDone
  | sensorRecheck => exact .ite (.ite h.fmDecide.inService.refreshSet h.modSensor) h
  | fmMapClear => exact h.hostWrite
  | heartbeatSend => exact .ite h h.modTwin
  | heartbeat => exact h.execHeartbeat
  | hello => exact h.onFrame fun _ h => h.modTwin.alone.occur.ite h.modTwin.paired
  | propose => exact h.onLink fun _ h => h.ite (h.modTwin.whenDone fun h => h.proposeCheck)
  | agreeSend => exact h.execAgreeSend
  | agree => exact h.onLink fun _ h => h.ite (h.modTwin.ite (h.modTwin.agreeAtOnce.ite h.modTwin.modTwin))
  | digest => exact h.onLink fun _ h => h.ite h.modTwin.digestSettle
  | outcome => exact h.onLink fun _ h => h.modTwin.occur.testSettle
  | state => exact h.execState
  | resyncRowInstall => exact h.execResyncRowInstall
  | resyncRowSend => exact h.execResyncRowSend
  | almanac => exact h.onLink fun _ h => h.queueRec
  | nvwrite => exact h.onLink fun _ h => (h.linkSend.ite h).modNv.nvQueue
  | msg => exact h.onFrame fun _ h => h.chanPut
  | image => exact h.onFrame fun _ h => h.storeWrite.modTwin.whenDone fun h => h.occur
  | ack => exact h.onClass0 fun _ h => h
  | ackSend => exact .ite h h.modTwin
  | linkResend => exact .ite h (h.modTwin.forEach fun _ _ h => h.occur)
  | linkTrained => exact h.execLinkTrained
  | linkRetrain => exact .ite h h.linkRetrain
  | pairingTimeout => exact .ite h h.alone
  | partnerLost => exact .ite h h.occur.noteTwin.modTwin.alone
  | peerOwnerChange => exact h.execPeerOwnerChange
  | ownerWatchdogExpire => exact .ite h h.modTwin.dropOwner
  | sextantTrigger => exact .ite h (.ite h.sxTrigger (.ite (.ite h.modMod.sxTrigger h.modMod) h))
  | sequenceStart => exact .ite h.modMod.occur h
  | sextantConversion => exact h.execSextantConversion
  | sextantDrain => exact h.execSextantDrain
  | resLoRead => exact h.hostRead
  | accLoRead => exact h.hostRead
  | lastLoRead => exact h.hostRead
  | sxAccClr => exact h.hostWrite
  | bellowsLoopPeriod => exact h.execBellowsLoopPeriod
  | pullInEnd => exact h.execPullInEnd
  | holdEnd => exact .ite h.blwRelease.blwRetryDone h
  | releaseEnd => exact h.execReleaseEnd
  | openSettleEnd => exact .ite h.blwOpened h
  | positionReport => exact h.execPositionReport
  | testPulseEnd => exact h.execTestPulseEnd
  | bellowsOvercurrent => exact .ite h h.blwOccur.blwDetect.blwCutTest.fmDeliver
  | bellowsRegulationError => exact .ite h h.blwOccur.blwDetect.blwRelease.fmDeliver
  | switchFault => exact h.execSwitchFault
  | sensorReading => exact .ite h.sensorReading (.ite h.shutCheck h)
  | stageUp => exact .ite h.setZone h
  | stageDown => exact .ite h (.ite h h.setZone)
  | powerFail => exact .ite h.modThermal.powerFailStart h
  | railUndervoltage => exact h.execRailUndervoltage
  | handoverDone => exact h.execHandoverDone
  | logicDiePowerLoss => exact h.execLogicDiePowerLoss
  | powerFailRelease => exact .ite (.ite h.modThermal.logicReset.modBoot.bootStart h.modThermal.logicReset.modBoot) h
  | powerOnReset => exact h.execPowerOnReset
  | deviceReset => exact .ite h h.modThermal
  | hostWriteSingle => exact h.hostByte
  | hostWriteQuad => exact h.hostByte
  | hostReadSingle => exact h.hostByte
  | hostReadQuad => exact h.hostByte
  | hostStatus => exact h.hostByte
  | hostUnknownCommand => exact .ite h h.hostByte
  | hostWriteApply => exact .ite h h.hostApplyOne.frameGo.readGo
  | hrdyTimeout => exact h.execHrdyTimeout
  | mp0CommandStart => exact .ite h h.mp0Start
  | mp0CommandDone => exact .ite h h.mp0End.swTake.readGo
  | mp0PollTimeout => exact h.execMp0PollTimeout
  | mp0Hgo => exact h.hostWrite
  | mp0CfgWrite => exact h.hostWrite
  | mp1TransferStart => exact h.execMp1TransferStart
  | mp1TransferEnd => exact h.execMp1TransferEnd
  | mp1ReadyTimeout => exact h.execMp1ReadyTimeout
  | mpSwsel => exact h.hostWrite
  | almanacRecordEnter => exact h.execAlmanacRecordEnter
  | nvPageWriteDone => exact h.pageWriteDone.whenDone fun h => h.modThermal
  | flush => exact h.hostWrite
  | almClear => exact h.hostWrite
  | almWinLastRead => exact h.hostRead
  | nvWinWrite => exact h.hostWrite
  | nvPwinWrite => exact h.hostWrite
  | nvUnlock => exact h.hostWrite
  | nvLock => exact h.hostWrite
  | nvPwset => exact h.hostWrite
  | nvSecWrite => exact h.hostWrite
  | nvLockoutEnd => exact h.modNv fun _ => by split <;> rfl
  | counterSave => exact .ite h h.modNv.saveCounters
  | optimeTick => exact .ite h h.modNv
  | refclkLost => exact .ite h.modClocks.occur h
  | refclkRestored => exact .ite h h.modClocks.occur
  | pllLocked => exact .ite h (h.modClocks.whenDone fun h => h.occur)
  | portClockSwitch => exact .ite h h.modPort.occur
  | dcoRestart => exact .ite h h.dcoSet.modCluster
  | islandResetRelease => exact .ite h (.ite (.ite h h.islandOut.fenceDrop) h.fenceDrop)
  | laenoPacketSend => exact h.execLaenoPacketSend
  | laenoSync => exact .ite h h.traceSync
  | laenoCounterSample => exact .ite h (h.forEach fun _ _ h => h.trace)
  | laenoCtlWrite => exact h.hostWrite
  | counterLoRead => exact h.hostRead
  | stkCeLoRead => exact h.hostRead
  | twinPeerSnLoRead => exact h.hostRead
  | serialLoRead => exact h.hostRead
  | optimeLoRead => exact h.hostRead
  | agreedLoRead => exact h.hostRead
  | storeInitDone => exact .ite (h.modBoot.whenDone fun h => h.linkRetrain) h
  | pfailNRise => exact .ite h.modThermal.bootStart h.modThermal
  | sensorReadingMissing => exact .ite h (.ite h.sensorTest h.sensorDetect)
  | pllLockLost => exact .ite h.modClocks.occur h
  | islandClockOutOfRange => exact .ite h h.occur
  | vactUndervoltage => exact h.modThermal.frame.whenDone fun h => h.blwLowVact
  | ownerWatchdogRefresh => exact .ite h (h.modTwin.whenDone fun h => h.gainOwner)
  | pwrVcoreUpdate => exact .ite h.modThermal h
  | retryBudgetOverrun => exact h.execRetryBudgetOverrun
  | tileInterlockStall => exact h.execTileInterlockStall

end Sys2Proof.Machine
open Sys2Proof Sys2Proof.Machine

/-- Settles O4: what waits in the queue is no memory, and each command keeps the memories (`State.memsOk.exec`). -/
theorem stepKeepsMemoriesCanonical : Obligations.StepKeepsMemoriesCanonical := by
  unfold Obligations.StepKeepsMemoriesCanonical
  intro s t h hstep
  have hout : Out.memsOk (step s) := by
    unfold step
    split
    · exact h
    · exact h.frame.exec _
  rwa [hstep] at hout
end

section
/-! SUPPORT. The store behind the host's aperture (R244, R247, R254): the check and the transactions of one word, a word written and a word
read. -/
namespace Sys2Proof.Machine

/-! ### One word of the store -/

/-- The transactions of a range are counted, and nothing else changes. -/
theorem countLines_frame (s : State) (a n : Nat) : s.countLines a n = { s with events := (s.countLines a n).events } :=
  have h : ({ s.countLines a n with events := s.events } : State) = s :=
    countLines_keeps_of (P := fun t => { t with events := s.events }) (fun _ _ => rfl) s a n
  congrArg (fun t : State => { t with events := (s.countLines a n).events }) h

theorem wordsOf_word {a : Nat} (ha : a % 4 = 0) : wordsOf a 4 = [a / 8] := by
  have h : (a + 4 - 1) / 8 - a / 8 + 1 = 1 := by omega
  simp only [wordsOf, h]
  rfl

/-- A word without an error passes its check as it is. -/
theorem checkWord_clean {s : State} {w : Nat} (hp : s.store.poison = []) (hh : s.store.hard = []) (hs : s.store.soft = []) :
    s.checkWord w = s := by
  simp [State.checkWord, hp, hh, hs]

/-- The check of a poisoned word records its address (R247). -/
theorem checkWord_poison {s : State} {w : Nat} (hp : s.store.poison.contains w = true) :
    s.checkWord w = s.modStore fun t => { t with poisonAddr := wn (8 * w) } := by
  simp only [State.checkWord, State.copyWord, hp, if_true]

theorem storeCheck_word {s : State} {a : Nat} (ha : a % 4 = 0) : s.storeCheck a 4 = (s.countLines a 4).checkWord (a / 8) := by
  rw [State.storeCheck, wordsOf_word ha]
  rfl

theorem poisoned_word {s : State} {a : Nat} (ha : a % 4 = 0) : s.poisoned a 4 = s.store.poison.contains (a / 8) := by
  rw [State.poisoned, wordsOf_word ha]
  cases s.store.poison <;> simp

/-- The bytes of a word as they stand, outside the ranges that read 0. -/
theorem storeBytes_word {s : State} {a : Nat} (hr : inReservedRange a = false) (hl : s.store.lost = none) (ha : a % 4 = 0) :
    nthW (bytesWords (s.storeBytes a 4)) 0 = Mem.word s.store.mem a := by
  have hrange : ¬ (0x5A000000 ≤ a ∧ a < 0x60000000) := by
    intro hin
    simp [inReservedRange, hin] at hr
  have hbyte (i : Nat) (hi : i < 4) : s.storeByte (a + i) = Mem.get s.store.mem (a + i) := by
    rw [State.storeByte, hl, if_neg (by omega)]
  have h0 := hbyte 0 (by decide)
  rw [Nat.add_zero] at h0
  simp [State.storeBytes, List.range_succ, hbyte, h0, bytesWords, nthW, Mem.word]

/-! ### One word through the aperture -/

/-- Half of a word without an error is written in place. -/
theorem storeWrite_word {s : State} {a : Nat} (w : W) (ha : a % 4 = 0) (hp : s.store.poison = []) (hh : s.store.hard = [])
    (hs : s.store.soft = []) :
    s.storeWrite a (wordBytes w) = (s.countLines a 4).modStore fun t => { t with mem := Mem.setWord t.mem a w } := by
  have hstore : (s.countLines a 4).store = s.store := by rw [countLines_frame]
  have hpart : (s.countLines a 4).storePart a (wordBytes w) =
      (s.countLines a 4).modStore fun t => { t with mem := Mem.setWord t.mem a w } := by
    have hcheck : (s.countLines a 4).checkWord (a / 8) = s.countLines a 4 :=
      checkWord_clean (by rw [hstore, hp]) (by rw [hstore, hh]) (by rw [hstore, hs])
    simp only [State.storePart, hcheck, hstore, hp]
    rfl
  have hn : (wordBytes w).length ≤ 8 - a % 8 := by
    show 4 ≤ 8 - a % 8
    omega
  rw [State.storeWrite, show (wordBytes w).length = 4 from rfl, show 4 / 8 + 2 = 1 + 1 from rfl, State.storeParts,
    if_neg (by simp [wordBytes])]
  dsimp only
  rw [List.take_of_length_le hn, List.drop_eq_nil_of_le hn, hpart]
  rfl

/-- An aperture write of one word: the transaction is counted, the word lands, and a kernel slot that it meets is stale (R97, R254). -/
theorem aperturePut_word {s : State} {o : Nat} {a : Nat} (w : W) (haddr : s.apertureAddr (0x10000000 + o) = a) (ha : a % 4 = 0)
    (hp : s.store.poison = []) (hh : s.store.hard = []) (hs : s.store.soft = []) (hrace : s.recordRace a = false) :
    ∃ ev cs, s.aperturePut (0x10000000 + o) [w] =
      { s with events := ev, clusters := cs, store := { s.store with mem := Mem.setWord s.store.mem a w } } := by
  have hwrite := storeWrite_word w ha hp hh hs
  rw [countLines_frame] at hwrite
  have hpoison : (s.storeWrite a (wordBytes w)).poisoned a (wordBytes w).length = false := by
    rw [hwrite]
    simp [State.poisoned, hp]
  have hput : s.aperturePut (0x10000000 + o) [w] = s.hostPut a (wordBytes w) := by
    rw [← haddr]
    rfl
  rw [hput]
  unfold State.hostPut
  extract_lets r s1 u v
  have hs1 : s1 = s := congrArg Prod.snd (if_neg (ne_true_of_eq_false hrace))
  have hv : v = s.storeWrite a (wordBytes w) := by
    have hu : u = s.storeWrite a (wordBytes w) := congrArg (·.storeWrite a (wordBytes w)) hs1
    rw [← hu] at hpoison ⊢
    exact if_neg fun hc => ne_true_of_eq_false hpoison hc.2
  clear_value v
  rw [if_neg fun hc => ne_true_of_eq_false hrace (hs1 ▸ hc.1), hv, hwrite]
  split
  · exact ⟨_, _, rfl⟩
  · exact ⟨_, _, rfl⟩

theorem regionOf_aperture {a : Nat} (hlo : 0x10000000 ≤ a) (hhi : a < 0x20000000) : regionOf a = some .aperture := by
  have h2 (n : Nat) (hn : n ≤ 0x150000) : ¬ a < n := by omega
  simp [regionOf, regions, h2, hlo, hhi]

/-- A frame of one word that the aperture admits (R255) lands as soon as the idle host port has it. -/
theorem hostWrite_apertureWord {s : State} (h : s.hostIdle) {o : Nat} (ho : o < 2 ^ 28) (h4 : o % 4 = 0) (w : W)
    (hadm : s.apertureAdmits (0x10000000 + o) 4 = true) :
    s.hostWrite (0x10000000 + o) [w] = s.framed.aperturePut (0x10000000 + o) [w] := by
  have hreg : regionOf (0x10000000 + o) = some .aperture := regionOf_aperture (by omega) (by omega)
  have hsub : inSubmit (0x10000000 + o) = false := by simp [inSubmit]; omega
  have hn : inNvWin (0x10000000 + o) = false := by simp [inNvWin]; omega
  have hp : inNvPwin (0x10000000 + o) = false := by simp [inNvPwin]; omega
  have hbegin := hostBegin_of_idle h
  rw [hostWrite_of_admitted h (by omega) hn hp (List.cons_ne_nil w [])]
  · simp [State.hostApply, hsub, hn, hp, hreg, show 0x10000000 + o ≠ 0x28110 by omega, show 0x10000000 + o ≠ 0x28120 by omega]
  · obtain ⟨-, hready, hbufs, -⟩ := h
    refine writeCause_none (by rw [hbegin]; exact hbufs) (by rw [hbegin]; exact hready) (by omega) (List.cons_ne_nil w []) (by simp)
      hreg ?_ ?_
    · simp [wordAddrs, hreg]
    · have hadm' : s.hostBegin.apertureAdmits (0x10000000 + o) 4 = true := by rw [hbegin]; exact hadm
      simp [State.ownerRejects, hreg, hadm']

/-! ### Read frames of one word at an idle host port (R402–R404) -/

/-- The state in which an idle host port samples the one word of a read frame at `a`. -/
def State.sampling (s : State) (a : Nat) : State := s.hostBegin.modSerial fun x => { x with xipWait := [a], readEnd := some none }

theorem sampling_of_idle {s : State} (h : s.hostIdle) (a : Nat) : s.sampling a = s.modSerial fun x =>
    { x with statusOut := s.statusByte, wordsOut := [], xipWait := [a], readEnd := some none, frameWait := none } := by
  rw [State.sampling, hostBegin_of_idle h]
  rfl

/-- A read frame of one word that is sampled at once, with no effect but on the events and the store. -/
theorem hostRead_word {s : State} (h : s.hostIdle) {a : Nat} {v : W} {ev : Events} {st : Store} (h4 : a % 4 = 0)
    (hword : (s.sampling a).hostWord a = (some v, { s.sampling a with events := ev, store := st })) :
    s.hostRead a 1 .whole = { s.framed with events := ev, store := st }.answers [v] := by
  have hframed := framed_of_idle h
  have hbegin := hostBegin_of_idle h
  obtain ⟨hup, hready, hbufs, hend⟩ := h
  have hready' : s.hostBegin.hostReady = true := by rw [hbegin]; exact hready
  have hempty : s.hostBegin.serial.bufs = [] := by rw [hbegin]; exact hbufs
  have haddrs : s.hostBegin.readAddrs a 1 = [a] := by simp [State.readAddrs, wordAddrs, h4, hready']
  have hcause : s.hostBegin.readCause a 1 .whole = none := by simp [State.readCause, wordAddrs, h4, hready']
  have hgo : s.hostRead a 1 .whole = (s.sampling a).readGo := by
    rw [State.hostRead, if_neg (by simp [hup]), hostDrain_of_empty hempty]
    dsimp only
    rw [hcause, if_neg (by decide), haddrs]
    rfl
  have hwords : (s.sampling a).serial.xipWait = [a] := rfl
  have hbufs' : (s.sampling a).serial.bufs = [] := hempty
  rw [hgo, State.readGo]
  simp only [hwords, hbufs', List.isEmpty_nil, List.isEmpty_cons, Bool.not_false, Bool.and_self, if_true, State.readWords, hword]
  refine (if_pos rfl).trans ?_
  rw [hframed]
  simp only [State.sampling, hbegin]
  simp only [State.answers, State.modSerial, hend]
  rfl

/-- The host reads a word behind the aperture (R247, R254): its transaction is counted, and poison reads as ones. -/
theorem apertureGet_clean {s : State} {a : Nat} (ha : a % 4 = 0) (hu : s.unbacked a 4 = false) (hr : inReservedRange a = false)
    (hl : s.store.lost = none) (hp : s.store.poison = []) (hh : s.store.hard = []) (hs : s.store.soft = []) :
    ∃ ev, s.apertureGet a = (Mem.word s.store.mem a, { s with events := ev }) := by
  have hread : s.storeRead a 4 = ((s.countLines a 4).storeBytes a 4, s.countLines a 4) := by
    have hcheck : s.storeCheck a 4 = s.countLines a 4 := by
      rw [storeCheck_word ha, countLines_frame]
      exact checkWord_clean hp hh hs
    rw [State.storeRead, hcheck]
  have hpoison : (s.countLines a 4).poisoned a 4 = false := by
    rw [poisoned_word ha, countLines_frame]
    simp [hp]
  have hword : nthW (bytesWords ((s.countLines a 4).storeBytes a 4)) 0 = Mem.word s.store.mem a := by
    rw [countLines_frame]
    exact storeBytes_word (s := { s with events := _ }) hr hl ha
  simp only [State.apertureGet, hu, hr, hread, hpoison, hword]
  rw [countLines_frame]
  exact ⟨_, rfl⟩

theorem apertureGet_poison {s : State} {a : Nat} (ha : a % 4 = 0) (hu : s.unbacked a 4 = false) (hr : inReservedRange a = false)
    (hp : s.store.poison.contains (a / 8) = true) : ∃ ev, s.apertureGet a = (0xFFFFFFFF, { s with
      events := ev, store := { s.store with poisonAddr := wn (8 * (a / 8)), poisonRd := true } }) := by
  have hcheck : s.storeCheck a 4 = (s.countLines a 4).modStore fun t => { t with poisonAddr := wn (8 * (a / 8)) } := by
    rw [storeCheck_word ha, countLines_frame]
    exact checkWord_poison hp
  have hpoison : (s.storeCheck a 4).poisoned a 4 = true := by
    rw [hcheck, poisoned_word ha, countLines_frame]
    exact hp
  simp only [State.apertureGet, State.storeRead, hu, hr, hpoison]
  rw [hcheck, countLines_frame]
  exact ⟨_, rfl⟩

theorem hostWord_aperture {s : State} {i a : Nat} (hreg : regionOf i = some .aperture) (haddr : s.apertureAddr i = a) :
    s.hostWord i = (some (s.apertureGet a).1, (s.apertureGet a).2) := by
  simp only [State.hostWord, hreg, haddr]

/-- A read frame of one word through the aperture of an idle host port. -/
theorem exec_apertureRead {s : State} (h : s.hostIdle) {addr : W} {o a : Nat} {v : W} {ev : Events} {st : Store}
    (hoff : addr.toNat % 2 ^ 28 = o) (h4 : o % 4 = 0) (haddr : s.apertureAddr (0x10000000 + o) = a)
    (hget : (s.sampling (0x10000000 + o)).apertureGet a = (v, { s.sampling (0x10000000 + o) with events := ev, store := st })) :
    exec (.apertureRead addr 1) s = .next ({ s.framed with events := ev, store := st }.answers [v]) := by
  have ho : o < 2 ^ 28 := hoff ▸ Nat.mod_lt _ (by decide)
  have hreg : regionOf (0x10000000 + o) = some .aperture := regionOf_aperture (by omega) (by omega)
  have haddr' : (s.sampling (0x10000000 + o)).apertureAddr (0x10000000 + o) = a := by
    rw [State.sampling, hostBegin_of_idle h]
    exact haddr
  have hword := hostWord_aperture hreg haddr'
  rw [hget] at hword
  have hread := hostRead_word h (by omega) hword
  show Host.Outcome.next (s.hostRead (0x10000000 + addr.toNat % 2 ^ 28) 1 .whole) = _
  rw [hoff, hread]

/-- A write frame of one word through the aperture of an idle host port. -/
theorem exec_apertureWrite {s : State} (h : s.hostIdle) {addr : W} {o : Nat} (hoff : addr.toNat % 2 ^ 28 = o) (h4 : o % 4 = 0) (w : W)
    (hadm : s.apertureAdmits (0x10000000 + o) 4 = true) :
    exec (.apertureWrite addr [w]) s = .next (s.framed.aperturePut (0x10000000 + o) [w]) := by
  show Host.Outcome.next (s.hostWrite (0x10000000 + addr.toNat % 2 ^ 28) [w]) = _
  rw [hoff, hostWrite_apertureWord h (hoff ▸ Nat.mod_lt _ (by decide)) h4 w hadm]

end Sys2Proof.Machine
open Sys2Proof Sys2Proof.Machine

/-- Settles O31: a frame of one word lands through the aperture (`hostWrite_apertureWord`, `aperturePut_word`), and one is read through it
(`hostRead_apertureWord`), clean (`apertureGet_clean`) or poisoned (`apertureGet_poison`). -/
theorem apertureAccesses : Obligations.ApertureAccesses := by
  unfold Obligations.ApertureAccesses
  intro s addr w h hmem h4 u a hu hr hl hh hs
  obtain ⟨o, hoff⟩ : ∃ o, addr.toNat % 2 ^ 28 = o := ⟨_, rfl⟩
  have ho4 : o % 4 = 0 := by omega
  have ha4 : a % 4 = 0 := by omega
  have haddr : s.apertureAddr (0x10000000 + o) = a :=
    congrArg (s.store.page.toNat * 2 ^ 28 + ·) ((Nat.add_sub_cancel_left ..).trans hoff.symm)
  clear_value a
  have hframed : u = s.modSerial _ := framed_of_idle h
  have hstore : u.store = s.store := by rw [hframed]; rfl
  obtain ⟨f, hsampling⟩ : ∃ f, s.sampling (0x10000000 + o) = s.modSerial f := ⟨_, sampling_of_idle h _⟩
  have hsampled : (s.sampling (0x10000000 + o)).store = s.store := by rw [hsampling]; rfl
  refine ⟨fun hp hadm hrace => ?write, fun hp => ?clean, fun hp => ?poison⟩
  case write =>
    obtain ⟨ev, cs, hput⟩ := aperturePut_word (s := u) w (by rw [hframed]; exact haddr) ha4 (by rw [hstore, hp]) (by rw [hstore, hh])
      (by rw [hstore, hs]) (by rw [hframed]; exact hrace)
    refine ⟨_, (exec_apertureWrite h hoff ho4 w (hoff ▸ hadm)).trans (congrArg _ hput), rfl, ?_, fun b hb => ?_⟩
    · exact Mem.word_setWord a w (hstore ▸ hmem.store)
    · exact (Mem.get_write_out (wordBytes w) (hstore ▸ hmem.store) hb).trans (by rw [hstore])
  case clean =>
    obtain ⟨ev, hget⟩ := apertureGet_clean (s := s.modSerial f) ha4 hu hr hl hp hh hs
    rw [← hsampling, hsampled] at hget
    refine ⟨_, exec_apertureRead h hoff ho4 haddr hget, ?_, rfl⟩
    rw [← hstore]
    rfl
  case poison =>
    have hpoison : s.store.poison.contains (a / 8) = true := by simp [hp]
    obtain ⟨ev, hget⟩ := apertureGet_poison (s := s.modSerial f) ha4 hu hr hpoison
    rw [← hsampling, hsampled] at hget
    refine ⟨_, exec_apertureRead h hoff ho4 haddr hget, ?_, rfl⟩
    rw [← hstore]
    rfl
end

section
/-! SUPPORT. The store's rows, its migration and its scrubber (R245–R248, R250). -/
namespace Sys2Proof.Machine

/-! ### Rows under repair (R248) -/

theorem exec_rowCopyDone {s : State} (hup : s.up) {ch bank : Fin 16} {row : BitVec 13} {q : RowSeq}
    (hq : s.seqAt ch bank row.toNat 0 = some q) : exec (.rowCopyDone ch bank row) s =
      .next ((forEach (s.store.flawed fun w => s.inRow q w) (fun w t => t.checkWord w) s).modStore fun t =>
        { t with seqs := t.seqs.map fun x => if x.ch = q.ch ∧ x.bank = q.bank ∧ x.row = q.row then { x with phase := 1 } else x }) := by
  show execRowCopyDone ch bank row s = _
  simp only [execRowCopyDone, hq]
  exact if_neg (ne_true_of_eq_false hup)

theorem exec_rowCopyBackDone {s : State} (hup : s.up) {ch bank : Fin 16} {row : BitVec 13} {q : RowSeq}
    (hq : s.seqAt ch bank row.toNat 2 = some q) : exec (.rowCopyBackDone ch bank row) s =
      .next (s.modStore fun t => { t with seqs := t.seqs.erase q }) := by
  show execRowCopyBackDone ch bank row s = _
  simp only [execRowCopyBackDone, hq]
  exact if_neg (ne_true_of_eq_false hup)

/-! ### The migration (R250) -/

/-- The state once the block below the pointer is moved. -/
def State.blockMoved (s : State) : State :=
  (s.copyWords fun w => blockOf (8 * w) == s.store.migNext - 1).modStore fun t => { t with migNext := s.store.migNext - 1 }

theorem exec_migrationBlockMove {s : State} (hup : s.up) (hmig : s.store.mig = true) : exec .migrationBlockMove s =
    .next (if s.store.migNext - 1 = 0 then
      (s.blockMoved.modStore fun t => { t with mig := false, ch15 := true }).occur (srcChan s.blockMoved.store.retch 6)
      else s.blockMoved) :=
  (if_neg (ne_true_of_eq_false hup)).trans (congrArg _ (if_pos hmig))

/-! ### What a copy does to a word (R245, R247) -/

theorem copyWord_of_poison {s : State} {w : Nat} (hp : w ∈ s.store.poison) :
    s.copyWord w = s.modStore fun x => { x with poisonAddr := wn (8 * w) } :=
  if_pos (List.contains_iff_mem.mpr hp)

theorem copyWord_of_hard {s : State} {w : Nat} (hp : w ∉ s.store.poison) (hh : w ∈ s.store.hard) : s.copyWord w =
    (s.modStore fun x => { x.poisonWord w with ue := satAdd x.ue 1, poisonAddr := wn (8 * w) }).occur (srcChan (wordLoc s w).1 1) :=
  (if_neg (hp ∘ List.contains_iff_mem.mp)).trans (if_pos (List.contains_iff_mem.mpr hh))

theorem copyWord_of_soft {s : State} {w : Nat} (hp : w ∉ s.store.poison) (hh : w ∉ s.store.hard) (hs : w ∈ s.store.soft) : s.copyWord w =
    (s.modStore fun x => { x with soft := x.soft.filter (· != w), ce := x.ce + 1, fixed := (x.passes, w) :: x.fixed }).occur
      (srcChan (wordLoc s w).1 0) :=
  (if_neg (hp ∘ List.contains_iff_mem.mp)).trans
    ((if_neg (hh ∘ List.contains_iff_mem.mp)).trans (if_pos (List.contains_iff_mem.mpr hs)))

/-! ### The scrubber (R246) -/

/-- The state once the scrubber has met word `w`: a poisoned one is skipped and counted. -/
def State.scrubbed (s : State) (w : Nat) : State :=
  if s.store.poison.contains w then
    s.modStore fun t => { t with skippedPoison := t.skippedPoison + 1, poisonAddr := wn (8 * w) }
  else s.checkWord w

theorem exec_scrubRead {s : State} (hup : s.up) (hboot : 2 ≤ s.boot.step.val) (hstep : s.boot.step ≠ 5) {addr : W}
    (hbacked : s.unbacked (8 * (addr.toNat / 8)) 8 = false) : exec (.scrubRead addr) s =
      .next (if addr.toNat / 8 = (s.scrubbed (addr.toNat / 8)).scrubLast then
        (s.scrubbed (addr.toNat / 8)).modStore fun t => { t with passes := t.passes + 1 } else s.scrubbed (addr.toNat / 8)) := by
  have hheld : s.thermal.held = false := hup
  exact if_neg (by simp [hheld, hstep, hbacked]; omega)

theorem exec_scrubLate {s : State} (hup : s.up) : exec .scrubLate s =
    .next (forEach ((allFin 16).filter fun c => !(s.store.ch15 && c == s.store.retch)) (fun c t => t.occur (srcChan c 7)) s) :=
  if_neg (ne_true_of_eq_false hup)

end Sys2Proof.Machine
open Sys2Proof Sys2Proof.Machine

/-- Settles O47: the row's two copies, the migration's block, what a copy does to a word by its errors, and the scrubber's read. -/
theorem rowsMigrationAndScrub : Obligations.RowsMigrationAndScrub := by
  unfold Obligations.RowsMigrationAndScrub
  intro s ch bank row q addr hup
  refine ⟨exec_rowCopyDone hup, exec_rowCopyBackDone hup, fun hmig => ?migration, fun w => copyWord_of_poison,
    fun w hp => ⟨fun hh => ?hard, fun hh hs => ?soft⟩, fun hboot hstep hbacked => exec_scrubRead hup hboot hstep hbacked,
    exec_scrubLate hup⟩
  case migration =>
    have hmove := exec_migrationBlockMove hup hmig
    exact ⟨fun hn => hmove.trans (congrArg _ (if_neg hn)), fun hn => hmove.trans (congrArg _ (if_pos hn))⟩
  case hard => exact ⟨_, copyWord_of_hard hp hh, rfl⟩
  case soft => exact ⟨_, copyWord_of_soft hp hh hs, by simp [State.modStore], rfl, rfl⟩
end

section
/-! SUPPORT. The tests of units and rows (R249, R287, R288, R292, R293, R295, R296): what a decision writes, and what the rest of a test
leaves of it. -/
namespace Sys2Proof.Machine

/-! ### What is looked at -/

/-- What a decision about unit `u` writes, and the states of the ports, by which what follows it waits for their meridians. -/
structure Verdict where
  unit : UnitS
  permanent : W
  fault : Bool
  last : W
  lastCause : Byte
  lastOut : Byte
  portSt : Port → PortSt

variable {u : Fin 182}

def State.verdict (s : State) (u : Fin 182) : Verdict :=
  ⟨s.unit u, s.fm.permanent, s.fm.fault, s.fm.last, s.fm.lastCause, s.fm.lastOut, fun p => (s.port p).st⟩

theorem anyRunning_eq (s : State) (u : Fin 182) : s.anyRunning = (allFin 4).any fun p => (s.verdict u).portSt p == .running := rfl

theorem anyRunning_of_verdict {s t : State} (h : (t.verdict u).portSt = (s.verdict u).portSt) : t.anyRunning = s.anyRunning := by
  rw [anyRunning_eq t u, anyRunning_eq s u, h]

/-! ### What leaves it alone -/

@[simp] theorem occur_verdict (s : State) (n : Nat) : (s.occur n).verdict u = s.verdict u := by
  rw [occur_frame]
  rfl

@[simp] theorem modNv_verdict (s : State) (f : Nv → Nv) : (s.modNv f).verdict u = s.verdict u := rfl
@[simp] theorem modTwin_verdict (s : State) (f : Twin → Twin) : (s.modTwin f).verdict u = s.verdict u := rfl
@[simp] theorem modTransit_verdict (s : State) (f : TransitU → TransitU) : (s.modTransit f).verdict u = s.verdict u := rfl
@[simp] theorem modTPort_verdict (s : State) (p : Port) (f : TransitPort → TransitPort) : (s.modTPort p f).verdict u = s.verdict u := rfl
@[simp] theorem modBlw_verdict (s : State) (c : Fin 8) (f : Blw → Blw) : (s.modBlw c f).verdict u = s.verdict u := rfl
@[simp] theorem modMod_verdict (s : State) (m : Fin 8) (f : SxMod → SxMod) : (s.modMod m f).verdict u = s.verdict u := rfl
@[simp] theorem modLane_verdict (s : State) (l : LaneNo) (f : Lane → Lane) : (s.modLane l f).verdict u = s.verdict u := rfl

@[simp] theorem latch_verdict (s : State) (e : Eng) (c : Fin 4) (i : Nat) : (s.latch e c i).verdict u = s.verdict u := rfl

theorem modPort_verdict (s : State) (p : Port) (f : PortS → PortS) (hf : ∀ x, (f x).st = x.st) :
    (s.modPort p f).verdict u = s.verdict u := by
  have hst : (fun q => ((s.modPort p f).port q).st) = fun q => (s.port q).st := by
    funext q
    rcases eq_or_ne q p with rfl | hq
    · rw [modPort_port, hf]
    · rw [modPort_port_ne _ _ _ _ hq]
  exact congrArg (Verdict.mk _ _ _ _ _ _) hst

theorem modUnit_verdict_ne (s : State) {v : Fin 182} (f : UnitS → UnitS) (h : u ≠ v) : (s.modUnit v f).verdict u = s.verdict u :=
  congrArg (fun x => (⟨x, _, _, _, _, _, _⟩ : Verdict)) (modUnit_unit_ne s v u f h)

@[simp] theorem linkPut_verdict (s : State) (f : LinkFrame) : (s.linkPut f).verdict u = s.verdict u := by
  unfold State.linkPut
  dsimp only
  split <;> simp

@[simp] theorem linkPump_verdict (n : Nat) (s : State) : (State.linkPump n s).verdict u = s.verdict u := by
  induction n generalizing s with
  | zero => rfl
  | succ n ih =>
    unfold State.linkPump
    split
    · split
      · simp [ih]
      · rfl
    · rfl

@[simp] theorem note_verdict (s : State) (code sev src : Nat) (ws : List W) : (s.note code sev src ws).verdict u = s.verdict u := by
  unfold State.note State.queueRec State.sendRecord State.linkSend State.linkSendAll
  dsimp only
  repeat' split
  all_goals simp

@[simp] theorem life_verdict (s : State) (i : Fin 6) : (s.life i).verdict u = s.verdict u := modNv_verdict ..

/-! ### Decisions (R288) -/

@[simp] theorem modUnit_verdict (s : State) (f : UnitS → UnitS) :
    (s.modUnit u f).verdict u = { s.verdict u with unit := f (s.verdict u).unit } :=
  congrArg (fun x => (⟨x, _, _, _, _, _, _⟩ : Verdict)) (modUnit_unit s u f)

@[simp] theorem fmDecide_verdict (s : State) (uid : W) (cause : Byte) (out : Nat) : (s.fmDecide uid cause out).verdict u =
    { s.verdict u with last := uid, lastCause := cause, lastOut := BitVec.ofNat 8 out } := note_verdict ..

@[simp] theorem fmPermanent_verdict (s : State) : s.fmPermanent.verdict u =
    { s.verdict u with permanent := satAdd (s.verdict u).permanent 1, fault := true } := rfl

@[simp] theorem fmOutcome_verdict (s : State) (r : Option Req) (uid : W) (out : Nat) :
    (s.fmOutcome r uid out).verdict u = s.verdict u := by
  cases r <;> rfl

@[simp] theorem answerTest_verdict (s : State) (out : Nat) : (s.answerTest u out).verdict u =
    { s.verdict u with unit := { (s.verdict u).unit with reqTest := none } } := by
  simp [State.answerTest]

/-! ### A transit that its lane's loss abandons (R142, R211) -/

@[simp] theorem blwOccur_verdict (s : State) (c : Fin 8) (k : Nat) : (s.blwOccur c k).verdict u = s.verdict u := by
  unfold State.blwOccur
  repeat' split
  all_goals simp

@[simp] theorem blwGrant_verdict (s : State) (c : Fin 8) (resumed test : Bool) : (s.blwGrant c resumed test).verdict u = s.verdict u := by
  simp [State.blwGrant]

@[simp] theorem blwReeval_verdict (s : State) (c : Fin 8) : (s.blwReeval c).verdict u = s.verdict u := by
  unfold State.blwReeval
  dsimp only
  repeat' split
  all_goals simp

/-- The release of a bellows channel may end its own test, and no other unit's. -/
theorem blwRelease_verdict (s : State) {c : Fin 8} (h : u ≠ uBlw c) : (s.blwRelease c).verdict u = s.verdict u := by
  unfold State.blwRelease
  extract_lets b t ms
  have ht : t.verdict u = s.verdict u := by
    unfold t
    split
    · exact modUnit_verdict_ne s _ h
    · rfl
  repeat' split
  all_goals simp [ht]

@[simp] theorem transitWake_verdict (s : State) (p : Port) : (s.transitWake p).verdict u = s.verdict u :=
  forEach_eq_of_step (fun t => t.verdict u) (fun _ _ => latch_verdict ..) _ _

theorem transitAbandonNow_verdict (s : State) (code : Nat) (asPartner : Bool) (h1 : code ≠ 1) (h3 : code ≠ 3)
    (hu : ∀ c, u ≠ uBlw c) : (s.transitAbandonNow code asPartner).verdict u = s.verdict u := by
  unfold State.transitAbandonNow
  split
  · rfl
  next c _ =>
    split
    · rfl
    · extract_lets q b moving dome queued counted fresh released held woken
      rw [if_neg (by simp [h1, h3])]
      have hheld : held.verdict u = released.verdict u := modPort_verdict _ _ _ fun _ => rfl
      have hreleased : released.verdict u = s.verdict u := by
        unfold released
        split
        · exact blwRelease_verdict _ (hu _)
        · rfl
      simp only [woken, transitWake_verdict, note_verdict, hheld, hreleased]

theorem transitLaneLost_verdict (s : State) : (s.transitLaneLost u).verdict u = s.verdict u := by
  unfold State.transitLaneLost
  split
  next hlane =>
    have hu (c : Fin 8) : u ≠ uBlw c := by
      rintro rfl
      simp only [uBlw] at hlane
      omega
    split
    · split
      · unfold State.transitAbandon
        repeat' split
        · rfl
        · rfl
        · exact transitAbandonNow_verdict s _ _ (by decide) (by decide) hu
      · rfl
    · rfl
  · rfl

@[simp] theorem giveUp_verdict (s : State) (v : Invoc) : (s.giveUp v).verdict u = s.verdict u := by
  refine forEach_eq_of_step (State.verdict · u) (fun i t => ?_) _ _
  refine (modPort_verdict _ _ _ fun x => ?_).trans rfl
  split <;> rfl

/-! ### The end of a unit's test (R288, R292, R293) -/

@[simp] theorem testEvent_verdict (s : State) (v : Fin 182) (pass : Bool) : (s.testEvent v pass).verdict u = s.verdict u := by
  unfold State.testEvent
  split
  · exact (occur_verdict ..).trans (modPort_verdict _ _ _ fun _ => rfl)
  · rfl

@[simp] theorem testClear_verdict (s : State) (v : Fin 182) : (s.testClear v).verdict u = s.verdict u := by
  unfold State.testClear
  split <;> rfl

/-- A unit that is neither a bellows channel nor a sensor comes back into service. -/
theorem inService_verdict (s : State) (hu : u.val < 112) : (s.inService u).verdict u = { s.verdict u with unit :=
    { (s.verdict u).unit with st := 0, byError := false, window := false, saved := none, retryCause := none } } := by
  have hsensor : s.sensorChange u = s := dif_neg (by omega)
  rw [State.inService, hsensor, dif_neg (by omega), modUnit_verdict]

/-- A requested test that a lane passes returns it to service, with the outcome 0. -/
theorem testDecide_passed_verdict {s : State} (hreq : (s.unit u).byError = false) (hu : u.val < 96) (hst : (s.unit u).st ≠ 6) (left : Nat) :
    (s.testDecide u true left).verdict u = { s.verdict u with
      unit := { s.unit u with
        st := 0, byError := false, window := false, saved := none, retryCause := none, reqTest := none }
      last := slotUid u
      lastCause := (s.unit u).cause
      lastOut := 0 } := by
  unfold State.testDecide
  extract_lets x n cleared
  rw [if_pos rfl, if_neg (by simp [x, hreq]), if_pos (by simp [x, hreq]), if_neg hst,
    inService_verdict _ (by omega), answerTest_verdict, fmDecide_verdict, testClear_verdict, testEvent_verdict]
  rfl

/-- A lane that is rotated out for a requested test serves again at its port's meridian. -/
theorem testDecide_passed_rotated_verdict {s : State} (hreq : (s.unit u).byError = false) (hst : (s.unit u).st = 6) (left : Nat) :
    (s.testDecide u true left).verdict u = { s.verdict u with
      unit := { s.unit u with reqTest := none, backAtMer := true }
      last := slotUid u
      lastCause := (s.unit u).cause
      lastOut := 0 } := by
  unfold State.testDecide
  extract_lets x n cleared
  rw [if_pos rfl, if_neg (by simp [x, hreq]), if_pos (by simp [x, hreq]), if_pos hst,
    modUnit_verdict, answerTest_verdict, fmDecide_verdict, testClear_verdict, testEvent_verdict]
  rfl

/-- What a permanent decision about a failed unit writes. -/
theorem permanent_verdict (s : State) (cause : Byte) (f : UnitS → UnitS) :
    (((s.fmPermanent.fmDecide (slotUid u) cause 1).answerTest u 1).modUnit u f).verdict u = { s.verdict u with
      unit := f { (s.verdict u).unit with reqTest := none }
      permanent := satAdd (s.verdict u).permanent 1
      fault := true
      last := slotUid u
      lastCause := cause
      lastOut := 1 } := by
  rw [modUnit_verdict, answerTest_verdict, fmDecide_verdict, fmPermanent_verdict]
  rfl

/-- What a failed test leaves of a unit that was in state `st`: rotated out, it leaves at its meridian; else it is pending retirement. -/
def UnitS.failedFrom (st : BitVec 4) (y : UnitS) : UnitS :=
  if st = 6 then { y with failAtMer := true, backAtMer := false } else { y with st := 4, backAtMer := false }

/-- A test failed by a unit other than a sensor: permanent (R288, R292). -/
theorem testDecide_failed_verdict {s : State} (hu : u.val < 134) (hrun : s.anyRunning = true) (left : Nat) :
    (s.testDecide u false left).verdict u = { s.verdict u with
      unit := UnitS.failedFrom (s.unit u).st { s.unit u with reqTest := none }
      permanent := satAdd s.fm.permanent 1
      fault := true
      last := slotUid u
      lastCause := (s.unit u).cause
      lastOut := 1 } := by
  unfold State.testDecide
  extract_lets x n cleared _ _ decided failed lost given
  rw [if_neg Bool.false_ne_true, if_neg (by omega)]
  have hcleared : cleared.verdict u = s.verdict u := by rw [testClear_verdict, testEvent_verdict]
  have hfailed : failed.verdict u = _ := permanent_verdict cleared x.cause (UnitS.failedFrom x.st)
  rw [hcleared] at hfailed
  have hgiven : given.verdict u = failed.verdict u := by
    refine Eq.trans ?_ (transitLaneLost_verdict failed)
    unfold given
    repeat' split
    all_goals simp [lost]
  have hports := congrArg Verdict.portSt (hgiven.trans hfailed)
  have hrunning : given.anyRunning = true := (anyRunning_of_verdict (s := s) hports).trans hrun
  rw [settleIdle_running hrunning, hgiven, hfailed]
  rfl

/-- While a port runs, a unit that has failed waits for a meridian: the end of its test moves nothing further. -/
theorem testOver_failed_verdict {s : State} (hu : u.val < 134) (hrun : s.anyRunning = true) (left : Nat) :
    (s.testOver u false left).verdict u = (s.testDecide u false left).verdict u := by
  have hports := congrArg Verdict.portSt (testDecide_failed_verdict hu hrun left)
  have hrunning : (s.testDecide u false left).anyRunning = true := (anyRunning_of_verdict (s := s) hports).trans hrun
  rw [State.testOver, State.settleUnit, settleIdle_running hrunning, ite_self]

/-! ### The ends of tests as commands -/

theorem uidSlot_slotUid : ∀ i : Fin 182, uidSlot (slotUid i) = some i := by decide +kernel

theorem exec_unitDrained {s : State} (hup : s.up) (hshut : s.thermal.shutdown = false) {i : Fin 182} (hst : (s.unit i).st = 1)
    (hdrained : s.drained i = true) : exec (.unitDrained (slotUid i)) s = .next (s.testBegin i) := by
  have hheld : s.thermal.held = false := hup
  show execUnitDrained (slotUid i) s = _
  simp only [execUnitDrained, uidSlot_slotUid]
  exact if_pos ⟨hst, hdrained, by simp [hshut], by simp [hheld]⟩

/-- The end of the test of a unit that was being tested. -/
theorem exec_selfTestDone_slot {s : State} (hup : s.up) (hshut : s.thermal.shutdown = false) {i : Fin 182} {pass : Bool}
    (hst : (s.unit i).st = 2) (hport : ∀ p : Port, i.val = 108 + p.val → (s.port p).selfTest = true)
    (hsensor : i.val < 134 ∨ (178 ≤ i.val ∧ pass = false)) (hmod : ¬(112 ≤ i.val ∧ i.val < 128)) (left : Nat) (wide : Bool) :
    exec (.selfTestDone (slotUid i) pass left wide) s =
      .next (if h : 134 ≤ i.val then s.sensorTest ⟨i.val - 134, by omega⟩ pass else (s.testOver i pass left).fmDeliver) := by
  have hheld : s.thermal.held = false := hup
  show execSelfTestDone (slotUid i) pass left s wide = _
  simp only [execSelfTestDone, uidSlot_slotUid]
  refine (if_neg (by simp [hshut, hheld])).trans (if_pos ⟨.inl hst, ?_, ?_, ?_⟩)
  · split
    next h => exact hport ⟨i.val - 108, by omega⟩ (by simp; omega)
    · rfl
  · simpa using hsensor
  · simp only [hmod, decide_false, Bool.not_false]

/-! ### The march of a row (R249) -/

theorem rowUid_fields {ch bank row : Nat} (hch : ch < 16) (hbank : bank < 16) (hrow : row < 8192) :
    fld (rowUid ch bank row) 31 24 = 3 ∧ fld (rowUid ch bank row) 23 21 = 0 := by
  simp only [fld, rowUid, wn, BitVec.toNat_ofNat]
  omega

theorem isRowUid_rowUid (q : RowSeq) (hrow : q.row < 8192) : isRowUid (rowUid q.ch.val q.bank.val q.row) = true := by
  obtain ⟨htype, hzero⟩ := rowUid_fields q.ch.isLt q.bank.isLt hrow
  simp [isRowUid, htype, hzero]

theorem uidSlot_rowUid (q : RowSeq) (hrow : q.row < 8192) : uidSlot (rowUid q.ch.val q.bank.val q.row) = none := by
  simp [uidSlot, (rowUid_fields q.ch.isLt q.bank.isLt hrow).1]

theorem exec_retryBudgetOverrun_row {s : State} (hup : s.up) (hshut : s.thermal.shutdown = false) {q : RowSeq} (hq : s.store.seqs = [q])
    (hphase : q.phase = 1) (hrow : q.row < 8192) :
    exec (.retryBudgetOverrun (rowUid q.ch.val q.bank.val q.row)) s = .next (s.rowTestOver q false).fmDeliver := by
  have hheld : s.thermal.held = false := hup
  show execRetryBudgetOverrun _ s = _
  rw [execRetryBudgetOverrun, if_neg (by simp [hshut, hheld]), if_pos (isRowUid_rowUid q hrow)]
  simp [hq, hphase]

theorem exec_selfTestDone_row {s : State} (hup : s.up) (hshut : s.thermal.shutdown = false) {q : RowSeq} (hq : s.store.seqs = [q])
    (hphase : q.phase = 1) (hrow : q.row < 8192) (pass wide : Bool) (left : Nat) :
    exec (.selfTestDone (rowUid q.ch.val q.bank.val q.row) pass left wide) s =
      .next (if wide ∧ !pass then s.rowTestWide q else s.rowTestOver q pass).fmDeliver := by
  have hheld : s.thermal.held = false := hup
  have hmarch : s.marchOf (rowUid q.ch.val q.bank.val q.row) = some q := by
    simp [State.marchOf, isRowUid_rowUid q hrow, hq, hphase]
  show execSelfTestDone _ pass left s wide = _
  rw [execSelfTestDone, if_neg (by simp [hshut, hheld]), uidSlot_rowUid q hrow, hmarch]

end Sys2Proof.Machine
open Sys2Proof Sys2Proof.Machine

/-- Settles O48: the ends of tests as commands (`exec_unitDrained`, `exec_selfTestDone_slot`, `exec_selfTestDone_row`,
`exec_retryBudgetOverrun_row`), and what the decisions write (`testDecide_passed_verdict`, `testOver_failed_verdict`). -/
theorem unitTestsDecide : Obligations.UnitTestsDecide := by
  unfold Obligations.UnitTestsDecide
  intro s i left hup hshut
  refine ⟨exec_unitDrained hup hshut, fun pass wide hst => ⟨?unit, ?sensor⟩, fun hreq hi => ?passed, fun hi hrun => ?failed,
    ?permanent, fun q _ hphase hq hrow => ?row⟩
  case unit =>
    intro hi
    have h134 : i.val < 134 := by
      obtain h | ⟨-, h⟩ | ⟨p, h, -⟩ := hi <;> omega
    have hport (p : Port) (hp : i.val = 108 + p.val) : (s.port p).selfTest = true := by
      obtain h | ⟨h, -⟩ | ⟨r, h, htest⟩ := hi
      · omega
      · omega
      · rwa [show p = r from Fin.ext (by omega)]
    rw [exec_selfTestDone_slot hup hshut hst hport (.inl h134) (by omega), dif_neg (by omega)]
  case sensor =>
    rintro t rfl ht
    have hval : (uSensor t).val = 134 + t.val := rfl
    rw [exec_selfTestDone_slot hup hshut hst (fun p hp => by omega) (.inr ⟨by omega, rfl⟩) (by omega), dif_pos (by omega)]
    simp only [hval, Nat.add_sub_cancel_left]
  case passed =>
    by_cases hst : (s.unit i).st = 6
    · have hv := testDecide_passed_rotated_verdict hreq hst left
      exact ⟨absurd hst, fun _ => ⟨(congrArg (fun v => v.unit.st) hv).trans hst, congrArg (fun v => v.unit.backAtMer) hv⟩,
        congrArg Verdict.lastOut hv, congrArg Verdict.last hv, congrArg Verdict.permanent hv, congrArg Verdict.fault hv⟩
    · have hv := testDecide_passed_verdict hreq hi hst left
      exact ⟨fun _ => congrArg (fun v => v.unit.st) hv, (absurd · hst), congrArg Verdict.lastOut hv, congrArg Verdict.last hv,
        congrArg Verdict.permanent hv, congrArg Verdict.fault hv⟩
  case failed =>
    have hv := (testOver_failed_verdict hi hrun left).trans (testDecide_failed_verdict hi hrun left)
    have hunit := congrArg Verdict.unit hv
    refine ⟨fun hst => ?_, fun hst => ?_, congrArg Verdict.permanent hv, congrArg Verdict.fault hv, congrArg Verdict.lastOut hv,
      congrArg Verdict.last hv, congrArg Verdict.lastCause hv⟩
    · exact congrArg UnitS.st (hunit.trans (if_neg hst))
    · exact ⟨(congrArg UnitS.st (hunit.trans (if_pos hst))).trans hst, congrArg UnitS.failAtMer (hunit.trans (if_pos hst))⟩
  case permanent =>
    have hv := fmDecide_verdict (u := i) s.fmPermanent (slotUid i) (s.unit i).cause 1
    rw [fmPermanent_verdict] at hv
    exact ⟨congrArg Verdict.permanent hv, congrArg Verdict.fault hv, congrArg Verdict.lastOut hv, congrArg Verdict.last hv,
      congrArg Verdict.lastCause hv⟩
  case row =>
    have hdone := exec_selfTestDone_row hup hshut hq hphase hrow
    refine ⟨exec_retryBudgetOverrun_row hup hshut hq hphase hrow, fun wide => ?_, ?_, ?_⟩
    · simpa using hdone true wide left
    · simpa using hdone false false left
    · simpa using hdone false true left
end

section
/-! SUPPORT. Streams and transmitters (R265–R274): the start of a frame with none in progress, an image line that is neither the last nor
poisoned, a packet that ends no frame, and the entry into ULPS. -/
namespace Sys2Proof.Machine

section
variable {s : State} {st : Fin 8} {f : OutFrame}

/-! ### Frames and lines (R266–R271) -/

/-- With no frame in progress nothing is cut (R275). -/
theorem streamCut_of_idle (h : (s.stream st).cur = none) : s.streamCut st = s := by
  unfold State.streamCut
  extract_lets x
  rw [show x.cur = none from h]

theorem exec_streamFrameStart_of_idle {rest : List OutFrame} (hup : s.up) (hdue : (s.stream st).due = f :: rest)
    (hready : s.frameReady st f = true) (hidle : (s.stream st).cur = none) :
    let g := s.headOf st f
    let old := (s.stream st).prevHead.getD (List.replicate 15 0)
    exec (.streamFrameStart st) s = .next ((s.modStream st fun x =>
      { x with due := rest, cur := some g, frames := x.frames + 1, firstPend := false, failover := false,
               pkts := x.pkts ++ [framePkt st g.pb 0x00 (csiNumber x.frames), longPkt st g.pb 0x12 (headLine g.head),
                 longPkt st g.pb 0x12 (headLine old)] }).occur (srcStream st 0)) := by
  have hheld : s.thermal.held = false := hup
  show execStreamFrameStart st s = _
  rw [execStreamFrameStart, hdue]
  refine (if_neg (by simp [hheld, hready])).trans ?_
  rw [streamCut_of_idle hidle]
  rfl

/-- An image line without poison, before the last one and without line packets, is one long packet behind what waits (R263, R271). -/
theorem exec_streamLineSend_image (hup : s.up) (hcur : (s.stream st).cur = some f) (hmore : f.nextLine + 1 < outLines f.pb st f.tile)
    (himage : fld (f.pb.streamCtl st) 7 6 ≠ 3) (hlsle : bitOf (f.pb.streamCtl st) 22 = false)
    (hfinal : ((lineRows f.pb st f.nextLine).1.all fun r => s.rowFinal f r.1) = true) :
    let l := s.imageLine st f f.nextLine
    ringBytes (s.stream st).pkts + l.1.length ≤ 0x500000 → l.2.1 = 0 →
    exec (.streamLineSend st) s = .next ((l.2.2.ringPut st l.1).modStream st fun x =>
      { x with cur := some { f with nextLine := f.nextLine + 1, genRead := none },
               pkts := x.pkts ++ [longPkt st f.pb (imageDt f.pb st) l.1], srec := recAdd x.srec 6 0 }) := by
  intro l hroom hclean
  have hheld : s.thermal.held = false := hup
  have hexp : (fld (f.pb.streamCtl st) 7 6 == 3) = false := beq_false_of_ne himage
  have hlast : f.nextLine + 1 ≠ outLines f.pb st f.tile := hmore.ne
  have hleft : ¬ outLines f.pb st f.tile ≤ f.nextLine := by omega
  show execStreamLineSend st s = _
  rw [execStreamLineSend, hcur]
  refine (if_neg (by simp [hheld, hleft, hfinal])).trans ?_
  simp only [hexp, Bool.false_eq_true, if_false]
  refine (if_neg (Nat.not_lt.mpr hroom)).trans ?_
  simp [l, hclean, hlsle, hlast]

end

/-! ### Packets and ULPS (R272–R274) -/

section
variable {s : State} {x : Fin 2}

/-- An update that leaves its stream as it stands leaves the state. -/
theorem modStream_of_fixed {st : Fin 8} {g : Stream → Stream} (h : g (s.stream st) = s.stream st) : s.modStream st g = s := by
  have hself : upd s.streams st g = s.streams := (upd_congr s.streams st g (fun q => q) h).trans (upd_self s.streams st)
  rw [State.modStream, hself]

theorem occur_stream (n : Nat) (st : Fin 8) : (s.occur n).stream st = s.stream st := by
  rw [occur_frame]
  rfl

/-- What sending a packet does before it is looked at: ULPS is left for it, and it goes from its stream to the transmitter (R272, R274). -/
def State.txSent (s : State) (x : Fin 2) (st : Fin 8) (k : Pkt) (r : List Pkt) : State :=
  ((if (s.txs.get x).line = 1 then s.occur (srcTx x 1) else s).modTx x fun t =>
    { t with line := 0, sent := some k, burst := k.wire, sentCount := t.sentCount + 1,
             served := (t.served.filter (· != st)) ++ [st] }).modStream st fun q => { q with pkts := r }

theorem txSent_stream (st : Fin 8) (k : Pkt) (r : List Pkt) : (s.txSent x st k r).stream st = { s.stream st with pkts := r } := by
  have hleave : (if (s.txs.get x).line = 1 then s.occur (srcTx x 1) else s).stream st = s.stream st := by
    split
    · exact occur_stream ..
    · rfl
  rw [State.txSent, modStream_stream]
  exact congrArg (fun q : Stream => { q with pkts := r }) hleave

/-- A packet other than a Frame End, of a stream with no frame in progress, is only sent. -/
theorem exec_txPacket_of_idle {st : Fin 8} {k : Pkt} {r : List Pkt} (hup : s.up) (hon : (s.txs.get x).on = true)
    (hline : (s.txs.get x).line ≠ 2) (hclock : s.clocks.gives ⟨1 + x.val, by omega⟩ = true) (hnext : s.txNext x = some st)
    (hpkts : (s.stream st).pkts = k :: r) (hdt : k.dt ≠ 1) (hidle : (s.stream st).cur = none) :
    exec (.txPacket x) s = .next (s.txSent x st k r) := by
  have hheld : s.thermal.held = false := hup
  have hkeep : ((s.txSent x st k r).modStream st fun q =>
      { q with cur := q.cur.map fun f => { f with sentLines := f.sentLines + 1 } }) = s.txSent x st k r :=
    modStream_of_fixed (by simp [txSent_stream, hidle])
  show execTxPacket x s = _
  unfold execTxPacket
  refine (if_neg (by simp [hheld, hon, hline, hclock])).trans ?_
  simp only [hnext, hpkts]
  refine (if_neg hdt).trans ?_
  split
  · exact congrArg _ hkeep
  · rfl

theorem exec_txUlpsEntry (hup : s.up) (hon : (s.txs.get x).on = true) (hline : (s.txs.get x).line = 0)
    (hulps : bitOf (s.params.force.txCtl x) 7 = true) (hnext : s.txNext x = none) :
    exec (.txUlpsEntry x) s = .next ((s.modTx x fun t => { t with line := 1 }).occur (srcTx x 1)) := by
  have hheld : s.thermal.held = false := hup
  exact if_neg (by simp [hheld, hon, hline, hulps, hnext])

end

end Sys2Proof.Machine
open Sys2Proof Sys2Proof.Machine

/-- Settles O37: the commands of a stream (`exec_streamFrameStart_of_idle`, `exec_streamLineSend_image`) and of a transmitter
(`exec_txPacket_of_idle`, `exec_txUlpsEntry`). -/
theorem streamsAndTransmitters : Obligations.StreamsAndTransmitters := by
  unfold Obligations.StreamsAndTransmitters
  intro s st f rest x k r hup
  refine ⟨?start, ?line, ?packet, ?ulps⟩
  case start => exact exec_streamFrameStart_of_idle hup
  case line =>
    rintro l rfl hcur hmore himage hlsle hfinal
    exact exec_streamLineSend_image hup hcur hmore himage hlsle hfinal
  case packet => exact exec_txPacket_of_idle hup
  case ulps => exact exec_txUlpsEntry hup
end

section
/-! SUPPORT. The phases of a bellows channel (R289, R362–R372): what each command of a channel does in the phase that it ends. -/
namespace Sys2Proof.Machine

section
variable {s : State} {c : Fin 8}

/-! ### A channel and its switch -/

theorem modBlw_congr {f g : Blw → Blw} (h : f (s.blw c) = g (s.blw c)) : s.modBlw c f = s.modBlw c g := by
  rw [State.modBlw, upd_congr s.bellows.ch c f g h]
  rfl

theorem otherBlw_ne (c : Fin 8) : otherBlw c ≠ c := by
  unfold otherBlw
  split
  all_goals
    rw [Ne, Fin.ext_iff]
    dsimp only
    omega

/-- A phase change changes no other channel while no request waits on the switch (R367). -/
theorem blwReeval_of_no_request (h : (s.blw (otherBlw c)).req = none) : s.blwReeval c = s := by
  unfold State.blwReeval
  dsimp only
  rw [h]

theorem blwOut_iff : s.blwOut c = true ↔ ¬((s.unit (uBlw c)).st = 0 ∨ (s.unit (uBlw c)).st = 3) := by
  simp [State.blwOut]

/-- A channel without current is off while the fault manager lets it work or retries it (R287, R374). -/
theorem blwRest_eq : s.blwRest c = if (s.unit (uBlw c)).st = 0 ∨ (s.unit (uBlw c)).st = 3 then 0 else 6 := by
  simp only [State.blwRest, blwOut_iff, ite_not]

/-- A hold that is released goes to release (R365, R366). -/
theorem blwRelease_st_of_hold (hst : (s.blw c).st = 3) (hreq : (s.blw (otherBlw c)).req = none) : ((s.blwRelease c).blw c).st = 4 := by
  have hreq' (f : Blw → Blw) : ((s.modBlw c f).blw (otherBlw c)).req = none := by rwa [modBlw_blw_ne _ _ _ _ (otherBlw_ne c)]
  simp [State.blwRelease, hst, blwReeval_of_no_request (hreq' _)]

/-! ### Loop periods (R362, R364, R365) -/

/-- A loop period's measurement: the current is taken, and an active channel has one period more behind it. -/
def State.loopMeasured (s : State) (c : Fin 8) (ma : BitVec 16) : State :=
  let n := if blwActive (s.blw c) then 1 else 0
  s.modBlw c fun b => { b with measured := ma, periods := b.periods + n, phasePeriods := b.phasePeriods + n }

/-- What a retry does at the end of a loop period (R289, log entry 112): the hold of a dome without its transit is released, a retry whose request
was withdrawn is over. -/
def State.loopRetried (s : State) (c : Fin 8) : State :=
  if (s.unit (uBlw c)).st ≠ 3 then s else if (s.blw c).st = 3 then (if s.domeLone c then s.blwRelease c else s)
  else if (s.blw c).st = 0 then s.blwRetryDone c else s

@[simp] theorem loopMeasured_unit (ma : BitVec 16) (u : Fin 182) : (s.loopMeasured c ma).unit u = s.unit u := rfl

@[simp] theorem loopMeasured_st (ma : BitVec 16) : ((s.loopMeasured c ma).blw c).st = (s.blw c).st := by
  simp [State.loopMeasured]

theorem loopRetried_eq : s.loopRetried c =
    if (s.blw c).st = 3 ∧ (s.unit (uBlw c)).st == 3 ∧ s.domeLone c then s.blwRelease c
    else if (s.blw c).st = 0 ∧ (s.unit (uBlw c)).st == 3 then s.blwRetryDone c else s := by
  by_cases hretry : (s.unit (uBlw c)).st = 3
  · by_cases hhold : (s.blw c).st = 3
    · simp [State.loopRetried, hretry, hhold]
    · simp [State.loopRetried, hretry, hhold]
  · simp only [State.loopRetried, beq_iff_eq, hretry, ne_eq, not_false_eq_true, if_true, false_and, and_false, if_false]

theorem exec_bellowsLoopPeriod (ma : BitVec 16) : exec (.bellowsLoopPeriod c ma) s =
    let u := s.loopMeasured c ma
    if s.thermal.held then .next u
    else .next ((u.loopRetried c).applyI (0x1D0 + c.val) fun o s => s.blwBlock c o) := by
  dsimp only
  rw [loopRetried_eq, State.loopMeasured]
  rfl

theorem exec_bellowsLoopPeriod_of_up (hup : s.up) (ma : BitVec 16) : exec (.bellowsLoopPeriod c ma) s =
    .next (((s.loopMeasured c ma).loopRetried c).applyI (0x1D0 + c.val) fun o s => s.blwBlock c o) :=
  (exec_bellowsLoopPeriod ma).trans (if_neg (ne_true_of_eq_false hup))

theorem exec_bellowsLoopPeriod_of_held (hheld : s.thermal.held = true) (ma : BitVec 16) :
    exec (.bellowsLoopPeriod c ma) s = .next (s.loopMeasured c ma) :=
  (exec_bellowsLoopPeriod ma).trans (if_pos hheld)

/-- No copy may take effect: the idle point leaves the state. -/
theorem applyI_of_not_ready {b : Nat} {after : PMap → State → State} (h : s.readyI b = none) : s.applyI b after = s := by
  rw [State.applyI, h]

/-! ### The ends of the phases (R289, R365, R367) -/

/-- The channel in hold after its pull-in, with the switch's other request evaluated again. -/
def State.pulledIn (s : State) (c : Fin 8) (ma : BitVec 16) : State :=
  (s.modBlw c fun b => { b with st := 3, target := b.act.ihold, phasePeriods := 0, measured := ma }).blwReeval c

/-- A pull-in's retry is over, and a dome that only the retry closed is released (log entry 112). -/
def State.pullInOver (s : State) (c : Fin 8) : State :=
  if (s.unit (uBlw c)).st = 3 ∧ s.domeLone c = true then (s.blwRetryDone c).blwRelease c else s.blwRetryDone c

section
variable {ma : BitVec 16} (hst : (s.blw c).st = 2)
include hst

theorem exec_pullInEnd : exec (.pullInEnd c ma) s =
    let b := s.blw c
    let u := s.pulledIn c ma
    let near := decide (9 * b.act.ipull ≤ 10 * ma.toNat) && decide (10 * ma.toNat ≤ 11 * b.act.ipull)
    .next (State.pullInOver (if 4 ≤ c.val then u.blwOccur c 1
      else if b.wantClosed && !b.act.pos && decide (100 ≤ b.act.ipull) && (near || !u.drives) && u.blwFree c then u.blwClosed c
      else u) c) := by
  show execPullInEnd c ma s = _
  refine (if_neg (not_not_intro hst)).trans ?_
  simp only [State.pullInOver, Bool.and_eq_true, beq_iff_eq]
  rfl

theorem exec_pullInEnd_bellows (hc : 4 ≤ c.val) : exec (.pullInEnd c ma) s = .next (((s.pulledIn c ma).blwOccur c 1).pullInOver c) :=
  (exec_pullInEnd hst).trans (by simp only [if_pos hc])

theorem exec_pullInEnd_unwanted (hc : c.val < 4) (hwant : (s.blw c).wantClosed = false) :
    exec (.pullInEnd c ma) s = .next ((s.pulledIn c ma).pullInOver c) :=
  (exec_pullInEnd hst).trans (by simp [hwant, Nat.not_le.mpr hc])

/-- A timed dome's closed report: its current is near IPULL, or the device drives no pins (R369, R372, log entry 132). -/
theorem exec_pullInEnd_closed (hc : c.val < 4) (hwant : (s.blw c).wantClosed = true) (hpos : (s.blw c).act.pos = false)
    (hpull : 100 ≤ (s.blw c).act.ipull)
    (hnear : (9 * (s.blw c).act.ipull ≤ 10 * ma.toNat ∧ 10 * ma.toNat ≤ 11 * (s.blw c).act.ipull) ∨ (s.pulledIn c ma).drives = false)
    (hfree : (s.pulledIn c ma).blwFree c = true) :
    exec (.pullInEnd c ma) s = .next (((s.pulledIn c ma).blwClosed c).pullInOver c) :=
  (exec_pullInEnd hst).trans (by simp [hwant, hpos, hpull, hfree, hnear, Nat.not_le.mpr hc])

end

theorem exec_holdEnd_of_pulse (hst : (s.blw c).st = 3) (hpulse : (s.blw c).act.pulse = true) :
    exec (.holdEnd c) s = .next ((s.blwRelease c).blwRetryDone c) :=
  if_pos ⟨hst, hpulse⟩

theorem exec_releaseEnd_of_release (hst : (s.blw c).st = 4) :
    let u := s.modBlw c fun b => { b with st := if b.req.isSome then 1 else s.blwRest c, target := 0 }
    let v := if 4 ≤ c.val then u.blwOccur c 2 else u
    exec (.releaseEnd c) s = .next (((v.blwReeval c).parFollow c).blwRetryDone c) := by
  intro u v
  have hu : (s.modBlw c fun b => { b with st := if (s.blw c).req.isSome then 1 else s.blwRest c, target := 0 }) = u := modBlw_congr rfl
  show execReleaseEnd c s = _
  refine (if_neg (not_not_intro hst)).trans ?_
  simp only [hu]
  rfl

/-! ### Reports of a dome (R369, R372) -/

theorem exec_openSettleEnd_of_timed (hwant : (s.blw c).wantOpen = true) (hpos : (s.blw c).act.pos = false)
    (hst : (s.blw c).st = 0 ∨ (s.blw c).st = 1 ∨ (s.blw c).st = 5 ∨ (s.blw c).st = 6) :
    exec (.openSettleEnd c) s = .next (s.blwOpened c) :=
  if_pos ⟨hwant, by simp [hpos], hst⟩

/-- The position detector's pin as the serial unit reads it (R369). -/
def State.positionRead (s : State) (c : Fin 8) (level : Bool) : State :=
  let g : BitVec 16 := 1 <<< (s.blw c).act.pgpio.val
  s.modSerial fun x => { x with gpio := if level then x.gpio ||| g else x.gpio &&& ~~~g }

section
variable {level : Bool} (hpos : (s.blw c).act.pos = true)
include hpos

/-- A channel with a position detector takes the pin's level; the device that drives the pins reports the dome by it. -/
theorem exec_positionReport : exec (.positionReport c level) s =
    let b := s.blw c
    let u := s.positionRead c level
    if s.drives = false then .next u
    else if b.wantClosed ∧ level = b.act.plevel ∧ (b.st = 2 ∨ b.st = 3) then .next (u.blwClosed c)
    else if b.wantOpen ∧ level ≠ b.act.plevel then .next (u.blwOpened c)
    else .next u := by
  show execPositionReport c level s = _
  simp only [execPositionReport, hpos, if_true, Bool.not_true, Bool.false_eq_true, false_or, Bool.not_eq_true']
  rfl

theorem exec_positionReport_of_not_drives (h : s.drives = false) :
    exec (.positionReport c level) s = .next (s.positionRead c level) :=
  (exec_positionReport hpos).trans (if_pos h)

theorem exec_positionReport_closed (h : s.drives = true) (hwant : (s.blw c).wantClosed = true)
    (hst : (s.blw c).st = 2 ∨ (s.blw c).st = 3) (hlevel : level = (s.blw c).act.plevel) :
    exec (.positionReport c level) s = .next ((s.positionRead c level).blwClosed c) :=
  (exec_positionReport hpos).trans ((if_neg (ne_false_of_eq_true h)).trans (if_pos ⟨hwant, hlevel, hst⟩))

theorem exec_positionReport_opened (h : s.drives = true) (hclosed : (s.blw c).wantClosed = false) (hwant : (s.blw c).wantOpen = true)
    (hlevel : level ≠ (s.blw c).act.plevel) : exec (.positionReport c level) s = .next ((s.positionRead c level).blwOpened c) :=
  (exec_positionReport hpos).trans ((if_neg (ne_false_of_eq_true h)).trans
    ((if_neg fun hc => ne_true_of_eq_false hclosed hc.1).trans (if_pos ⟨hwant, hlevel⟩)))

end

/-! ### Test pulses and protective cuts (R368, R370, R371) -/

theorem pulsePass_iff (r : PulseResult) : pulsePass r = true ↔ 85 ≤ r.low ∧ r.high ≤ 115 ∧ r.after < 5 ∧ r.apart ≤ 20 := by
  simp [pulsePass, pulseSwitchOk, and_assoc]

/-- The state in which the channel's own test is decided by its pulse. -/
def State.pulseDecided (s : State) (c : Fin 8) (r : PulseResult) : State :=
  ((s.modBlw c fun b => { b with st := 6, target := 0 }).blwReeval c).blwTestOver c (pulsePass r)

/-- A switch that fails one channel's pulse fails the test of the other with the same cause. -/
def State.switchFailed (s : State) (c : Fin 8) : State :=
  let o := otherBlw c
  let y := (s.modUnit (uBlw o) fun z => { z with byError := true, cause := (s.unit (uBlw c)).cause }).blwRelease o
  let w := if (y.blw o).st = 0 ∨ (y.blw o).st = 7 then y.modBlw o fun b => { b with st := 6 } else y
  w.blwTestOver o false

section
variable {r : PulseResult} (hst : (s.blw c).st = 5)
include hst

theorem exec_testPulseEnd : exec (.testPulseEnd c r) s =
    let x := s.pulseDecided c r
    let u := (x.unit (uBlw (otherBlw c))).st
    .next (if pulseSwitchOk r = true ∨ u = 4 ∨ u = 5 then x else x.switchFailed c).fmDeliver := by
  show execTestPulseEnd c r s = _
  exact if_neg (not_not_intro hst)

theorem exec_testPulseEnd_alone (h : r.apart ≤ 20 ∨ ((s.pulseDecided c r).unit (uBlw (otherBlw c))).st = 4 ∨
      ((s.pulseDecided c r).unit (uBlw (otherBlw c))).st = 5) :
    exec (.testPulseEnd c r) s = .next (s.pulseDecided c r).fmDeliver :=
  (exec_testPulseEnd hst).trans (by simp only [pulseSwitchOk, decide_eq_true_eq, if_pos h])

theorem exec_testPulseEnd_both (hapart : 20 < r.apart) (h4 : ((s.pulseDecided c r).unit (uBlw (otherBlw c))).st ≠ 4)
    (h5 : ((s.pulseDecided c r).unit (uBlw (otherBlw c))).st ≠ 5) :
    exec (.testPulseEnd c r) s = .next ((s.pulseDecided c r).switchFailed c).fmDeliver :=
  (exec_testPulseEnd hst).trans
    (by simp only [pulseSwitchOk, decide_eq_true_eq, Nat.not_le.mpr hapart, h4, h5, or_self, if_false])

end

section
variable (hdrives : s.drives = true)
include hdrives

theorem exec_bellowsOvercurrent_of_live (hlive : s.blwLive c = true) :
    exec (.bellowsOvercurrent c) s = .next (((s.blwOccur c 5).blwDetect c 5).blwCutTest (s.blwDriver c)).fmDeliver :=
  if_neg (by simp [hdrives, hlive])

theorem exec_bellowsRegulationError_of_live (hlive : s.blwLive c = true) (hst : (s.blw (s.blwDriver c)).st ≠ 4) :
    exec (.bellowsRegulationError c) s = .next (((s.blwOccur c 6).blwDetect c 6).blwRelease (s.blwDriver c)).fmDeliver :=
  if_neg (by simp [hdrives, hlive, hst])

end

/-- A channel that a switch fault finds in a phase is cut. -/
def State.cutUnlessIdle (s : State) (c : Fin 8) : State :=
  if (s.blw c).st = 0 ∨ (s.blw c).st = 7 then s else s.blwCutTest c

/-- A switch fault of channels `a` and `b`, detected on both (R370). -/
def State.switchDetected (s : State) (k : Fin 4) (a b : Fin 8) : State :=
  let u := { s with bellows := { s.bellows with hsFault := s.bellows.hsFault ||| 1#4 <<< k.val } }
  let v := ((u.blwOccur a 7).detect (uBlw a) 7).blwOccur b 7
  ((v.detect (uBlw b) 7).settleUnit (uBlw a)).settleUnit (uBlw b)

theorem exec_switchFault_of_drives {k : Fin 4} {a b : Fin 8} (hdrives : s.drives = true) (ha : a.val = 2 * k.val)
    (hb : b.val = 2 * k.val + 1) :
    exec (.switchFault k) s = .next (((s.switchDetected k a b).cutUnlessIdle a).cutUnlessIdle b).fmDeliver := by
  have ha' : a = ⟨2 * k.val, by omega⟩ := Fin.ext ha
  have hb' : b = ⟨2 * k.val + 1, by omega⟩ := Fin.ext hb
  rw [ha', hb']
  exact if_neg (by simp [hdrives])

theorem exec_switchFault_of_not_drives {k : Fin 4} (h : s.drives = false) : exec (.switchFault k) s = .next s :=
  if_pos (by simp [h])

/-- VACT's comparator as the thermal unit and the bellows drive show it (R370). -/
def State.vactSeen (s : State) (low : Bool) : State :=
  { s.modThermal (fun t => { t with vact := !low }) with bellows := { s.bellows with lowVact := low } }

theorem exec_vactUndervoltage (low : Bool) : exec (.vactUndervoltage low) s =
    .next (if low && !s.bellows.lowVact then (s.vactSeen low).blwLowVact else s.vactSeen low) := rfl

theorem exec_vactUndervoltage_kept {low : Bool} (h : low = false ∨ s.bellows.lowVact = true) :
    exec (.vactUndervoltage low) s = .next (s.vactSeen low) := by
  rw [exec_vactUndervoltage, if_neg]
  rcases h with h | h
  · simp [h]
  · simp [h]

theorem exec_vactUndervoltage_falls {low : Bool} (hlow : low = true) (hwas : s.bellows.lowVact = false) :
    exec (.vactUndervoltage low) s = .next (s.vactSeen low).blwLowVact := by
  rw [exec_vactUndervoltage, if_pos (by simp [hlow, hwas])]

end

end Sys2Proof.Machine
open Sys2Proof Sys2Proof.Machine

/-- Settles O54: each clause is the rule of its command above, in the phase, at the report or at the fault that the clause names. -/
theorem bellowsPhases : Obligations.BellowsPhases := by
  unfold Obligations.BellowsPhases
  intro s c
  refine ⟨?period, ?pullIn, ?hold, ?release, blwRest_eq, exec_openSettleEnd_of_timed, ?position, ?pulse, ?live, ?switch, ?vact⟩
  case period =>
    intro ma n u v
    have hv : (s.loopMeasured c ma).loopRetried c = v := by
      simp only [State.loopRetried, loopMeasured_unit, loopMeasured_st]
      rfl
    have hrun (hup : s.up) := hv ▸ exec_bellowsLoopPeriod_of_up (c := c) hup ma
    exact ⟨hrun, fun hup hready => (hrun hup).trans (by rw [applyI_of_not_ready hready]),
      fun hheld => exec_bellowsLoopPeriod_of_held hheld ma⟩
  case pullIn =>
    intro ma hst
    exact ⟨exec_pullInEnd_bellows hst, exec_pullInEnd_unwanted hst, exec_pullInEnd_closed hst⟩
  case hold => exact fun hst hpulse => ⟨exec_holdEnd_of_pulse hst hpulse, fun _ hreq => blwRelease_st_of_hold hst hreq⟩
  case release => exact exec_releaseEnd_of_release
  case position =>
    exact fun level hpos =>
      ⟨exec_positionReport_of_not_drives hpos, exec_positionReport_closed hpos, exec_positionReport_opened hpos⟩
  case pulse => exact fun r => ⟨pulsePass_iff r, fun hst => ⟨exec_testPulseEnd_alone hst, exec_testPulseEnd_both hst⟩⟩
  case live =>
    exact fun hdrives hlive => ⟨exec_bellowsOvercurrent_of_live hdrives hlive, exec_bellowsRegulationError_of_live hdrives hlive⟩
  case switch => exact fun k a b ha hb => ⟨exec_switchFault_of_not_drives, fun hdrives => exec_switchFault_of_drives hdrives ha hb⟩
  case vact => exact fun low => ⟨exec_vactUndervoltage_kept, exec_vactUndervoltage_falls⟩
end

section
/-! SUPPORT. Frames on the link (R313–R316, R330): what a received frame goes through before its own rule, what one sent frame leaves in the
unit, and the commands that carry frames. -/
namespace Sys2Proof.Machine

/-- A device that is up is not held in reset (R387). -/
theorem held_of_up {s : State} (hup : s.up) : s.thermal.held = false := hup

/-! ### Sending (R314, R315) -/

@[simp] theorem occur_twin (s : State) (n : Nat) : (s.occur n).twin = s.twin := by rw [occur_frame]

theorem linkPump_of_queue_nil (n : Nat) {s : State} (hqueue : s.twin.queue = []) : State.linkPump n s = s := by
  cases n with
  | zero => rfl
  | succ n => rw [State.linkPump, hqueue]

/-- A payload shorter than a frame's 2,048 bytes goes in one frame (R314). -/
theorem linkChunks_of_short {ws : List W} (hshort : ws.length < 512) : linkChunks (ws.length / 512 + 1) ws = [ws] := by
  rw [Nat.div_eq_of_lt hshort, linkChunks, List.take_of_length_le (by omega), if_neg (by omega)]

theorem linkPut_twin (s : State) (f : LinkFrame) : (s.linkPut f).twin =
    let g := { f with seq := s.twin.txSeq, ack := s.twin.ackNo }
    { s.twin with txSeq := s.twin.txSeq + 1, unacked := s.twin.unacked ++ [g], lastSent := some g, ackDue := false } := by
  unfold State.linkPut
  extract_lets t g
  split
  · exact occur_twin ..
  · rfl

/-- A payload of one frame, with nothing held and fewer than 128 frames unacknowledged, goes at once (R315). -/
theorem linkSend_of_room {s : State} {ws : List W} (hqueue : s.twin.queue = []) (hroom : s.twin.unacked.length < 128)
    (hshort : ws.length < 512) (type : Byte) (cls : Nat) (p : Port) :
    s.linkSend type cls p ws = s.linkPut ⟨type, 0, 0, cls, p, pad8 ws⟩ := by
  let f : LinkFrame := ⟨type, 0, 0, cls, p, pad8 ws⟩
  have hempty : (s.linkPut f).twin.queue = [] := (congrArg Twin.queue (linkPut_twin s f)).trans hqueue
  rw [State.linkSend, linkChunks_of_short hshort]
  unfold State.linkSendAll
  extract_lets fs held queued pumped
  have hqueued : queued.twin.queue = [f] := by simp [queued, fs, f, hqueue]
  have hroomed : queued.twin.unacked.length < 128 := hroom
  have hemptied : (queued.modTwin fun t => { t with queue := [] }) = s := by
    show ({ s with twin := { s.twin with queue := [] } } : State) = s
    rw [← hqueue]
  have hpumped : pumped = s.linkPut f := by
    simp only [pumped, hqueued, List.length_singleton, State.linkPump, hroomed, if_true]
    rw [hemptied]
  rw [hpumped, hempty, List.isEmpty_nil, Bool.not_true, Bool.and_false, if_neg Bool.false_ne_true]

/-! ### Receiving (R313, R315, R317) -/

section
variable {s : State} {h : RxHdr} (hup : s.up) (htrained : s.twin.trained = true)
include hup htrained

theorem onClass0_of_trained (hcrc : h.crcOk = true) (body : State → State) : s.onClass0 h body = body (s.rxAck h.ack) := by
  simp [State.onClass0, held_of_up hup, htrained, hcrc]

/-- A frame out of sequence is discarded and counted, and what was taken last is acknowledged again (R315, log entry 162). -/
theorem onFrame_of_gap (hcrc : h.crcOk = true) (hseq : h.seq ≠ (s.rxAck h.ack).twin.rxSeq) (takes : State → Bool) (body : State → State) :
    s.onFrame h takes body = (s.rxAck h.ack).modTwin fun t => { t with crcerr := satAdd t.crcerr 1, ackDue := true } := by
  simp [State.onFrame, held_of_up hup, htrained, hcrc, hseq]

end

section
variable {s : State} {h : RxHdr} (hh : s.heard h)
include hh

theorem onFrame_of_heard {takes : State → Bool} (htakes : takes (s.rxAck h.ack) = true) (body : State → State) :
    s.onFrame h takes body = body (s.rxAck h.ack).linkRx := by
  obtain ⟨hup, htrained, hcrc, hseq⟩ := hh
  simp [State.onFrame, held_of_up hup, htrained, hcrc, hseq, htakes]

theorem onLink_of_heard (hlink : (s.rxAck h.ack).linkUp = true) (body : State → State) : s.onLink h body = body (s.rxAck h.ack).linkRx :=
  onFrame_of_heard hh hlink body

end

theorem rxAck_of_queue_nil {s : State} (hqueue : s.twin.queue = []) (a : Byte) : s.rxAck a =
    s.modTwin fun t => { t with badRun := 0, unacked := t.unacked.filter fun f => 128 ≤ (a - f.seq).toNat } :=
  linkPump_of_queue_nil 128 hqueue

/-! ### Heartbeats (R330) -/

/-- Bit `k` of a packed word. -/
theorem bitOf_wn {k : Nat} (hk : k < 32) (n : Nat) : bitOf (wn n) k = decide (n / 2 ^ k % 2 = 1) := by
  rw [bitOf, wn, BitVec.getLsbD_ofNat, decide_eq_true hk, Bool.true_and, Nat.testBit_eq_decide_div_mod_eq]

/-- The first word of a heartbeat: the unit's state, its roles, PEER_OWNER, FAULT and the damper stage (R330). -/
def State.heartWord (s : State) : W :=
  wn (s.twin.st.val + 2 ^ 4 * b2n s.twin.prime + 2 ^ 5 * b2n s.twin.owner + 2 ^ 6 * b2n s.peerOwner + 2 ^ 7 * b2n s.fm.fault +
    2 ^ 8 * s.thermal.stage)

theorem b2n_odd (b : Bool) : b2n b % 2 = 1 ↔ b = true := by cases b <;> decide

theorem b2n_le (b : Bool) : b2n b ≤ 1 := by cases b <;> decide

theorem heartWord_fields (s : State) : fld s.heartWord 3 0 = s.twin.st.val ∧ bitOf s.heartWord 4 = s.twin.prime ∧
    bitOf s.heartWord 5 = s.twin.owner ∧ bitOf s.heartWord 7 = s.fm.fault := by
  have hst := s.twin.st.isLt
  have hprime := b2n_le s.twin.prime
  have howner := b2n_le s.twin.owner
  have hpeer := b2n_le s.peerOwner
  have hbit {k : Nat} (b : Bool) (hk : k < 32) {n : Nat} (h : n / 2 ^ k % 2 = b2n b % 2) : bitOf (wn n) k = b := by
    rw [bitOf_wn hk, h, Bool.eq_iff_iff, decide_eq_true_eq, b2n_odd]
  refine ⟨?state, hbit _ (by decide) (by omega), hbit _ (by decide) (by omega), hbit _ (by decide) (by omega)⟩
  simp only [fld, State.heartWord, wn, BitVec.toNat_ofNat]
  omega

theorem exec_heartbeatSend {s : State} (hup : s.up) (hlink : s.linkUp = true) : exec .heartbeatSend s = .next (s.modTwin fun x =>
    { x with
      heartNo := x.heartNo + 1
      lastSent := some ⟨0x01, 0, x.ackNo, 0, 0, [s.heartWord, x.heartNo, wn s.nv.optime, wn (s.nv.optime / 2 ^ 32 % 256)]⟩
      ackDue := false }) :=
  if_neg (by simp [held_of_up hup, hlink])

/-- A heartbeat of a partner without FAULT whose stage is not above this device's: a gap in the numbers alone is told (R330, R340). -/
theorem exec_heartbeat_of_calm {s v : State} {h : RxHdr} {w0 w1 : W} (hup : s.up) (htrained : s.twin.trained = true) (hcrc : h.crcOk = true)
    (hv : s.rxAck h.ack = v) (hlink : v.linkUp = true) (hfault : bitOf w0 7 = false) (hstage : fld w0 10 8 ≤ v.thermal.stage)
    (hlast : v.twin.lastHeart ≠ Vector.replicate 4 0) (w2 w3 : W) :
    let u := if w1 = v.twin.lastHeart.get 1 + 1 then v else v.occur (srcLink 16)
    exec (.heartbeat w0 w1 w2 w3 h) s = .next ((u.heartState w0).modTwin fun x =>
      { x with lastHeart := #v[w0, w1, w2, w3], peerStage := fld w0 10 8, peerFault := false }) := by
  intro u
  have hfirst : (v.twin.lastHeart == Vector.replicate 4 0) = false := beq_eq_false_iff_ne.mpr hlast
  have hgap : (if w1 ≠ v.twin.lastHeart.get 1 + 1 then v.occur (srcLink 16) else v) = u := ite_not ..
  have hthermal : u.thermal = v.thermal := by
    unfold u
    split
    · rfl
    · exact quiet_thermal.occur ..
  have hbelow : ¬u.thermal.stage < fld w0 10 8 := by rw [hthermal]; exact Nat.not_lt.mpr hstage
  show execHeartbeat w0 w1 w2 w3 s h = _
  rw [execHeartbeat, onClass0_of_trained hup htrained hcrc, hv]
  simp only [hlink, hfault, hfirst, Bool.not_true, Bool.not_false, Bool.false_eq_true, true_and, false_and, if_false, hgap, hbelow]

/-! ### Acknowledgements (R315) -/

section
variable {s : State} (hup : s.up) (htrained : s.twin.trained = true)
include hup htrained

theorem exec_ackSend_of_due (hdue : s.twin.ackDue = true) : exec .ackSend s = .next (s.modTwin fun t =>
    { t with ackDue := false, lastSent := some ⟨0x0C, 0, t.ackNo, 0, 0, []⟩ }) :=
  if_neg (by simp [held_of_up hup, htrained, hdue])

theorem exec_linkResend_of_unacked (hun : s.twin.unacked ≠ []) : exec .linkResend s =
    .next (forEach (List.range s.twin.unacked.length) (fun _ u => u.occur (srcLink 18))
      (s.modTwin fun x => { x with retx := satAdd x.retx x.unacked.length, lastSent := x.unacked.getLast?, ackDue := false })) :=
  if_neg (by simp [held_of_up hup, htrained, hun])

end

end Sys2Proof.Machine
open Sys2Proof Sys2Proof.Machine

/-- Settles O49: a frame that is heard is its own rule on the acknowledged state (`onFrame_of_heard`), one out of sequence is discarded
(`onFrame_of_gap`), and one that is sent with room goes at once (`linkSend_of_room`). -/
theorem linkFrames : Obligations.LinkFrames := by
  unfold Obligations.LinkFrames
  intro s hup
  refine ⟨?send, ?heartbeat, ?heard, ?gap, ?acks, ?sent⟩
  case send => exact fun hlink => ⟨s.heartWord, exec_heartbeatSend hup hlink, heartWord_fields s⟩
  case heartbeat =>
    intro h w0 w1 w2 w3 htrained hcrc v hlink hfault hstage hlast
    exact exec_heartbeat_of_calm hup htrained hcrc rfl hlink hfault hstage hlast w2 w3
  case heard =>
    intro h hh v u
    refine ⟨?msg, ?almanac, ?nvwrite, ?image⟩
    case msg => exact fun ch w hlink hroom => congrArg _ (onFrame_of_heard hh (Bool.and_eq_true_iff.mpr ⟨hlink, hroom⟩) _)
    case almanac => exact fun ws hlink => congrArg _ (onLink_of_heard hh hlink _)
    case nvwrite => exact fun page off bs hlink => congrArg _ (onLink_of_heard hh hlink _)
    case image =>
      intro bs hstep hsel hasked
      exact congrArg _ (onFrame_of_heard hh (takes := fun t => t.boot.step == 2 && t.boot.bootsel == 2 && t.twin.imgAsked)
        (by rw [hstep, hsel, hasked]; rfl) _)
  case gap => exact fun h ch w htrained hcrc hseq => congrArg _ (onFrame_of_gap hup htrained hcrc hseq _ _)
  case acks =>
    exact fun htrained => ⟨fun h hcrc => congrArg _ (onClass0_of_trained hup htrained hcrc _), fun a hq => rxAck_of_queue_nil hq a,
      exec_ackSend_of_due hup htrained, exec_linkResend_of_unacked hup htrained⟩
  case sent =>
    intro ty k p ws hqueue hroom hshort t
    have ht : t.twin = _ := (congrArg State.twin (linkSend_of_room hqueue hroom hshort ty k p)).trans (linkPut_twin ..)
    rw [ht]
    exact ⟨rfl, rfl, hqueue⟩
end

section
/-! SUPPORT. A pair whose agreed damper stage differs from this device's own (R381), where PAIRING would follow at once (R317). -/
namespace Sys2Proof.Machine

/-- An owner in LOCKSTEP with EN, port 0 running, its own damper stage 0 and the agreed one 1. -/
def stagedPair : State :=
  (((State.reset.modParams fun q => { q with force := insertN q.force (2 * 256) 1 }).modTwin fun t => { t with st := 4, owner := true }).modThermal
    fun t => { t with agreed := 1 }).modPort 0 fun x => { x with st := .running }

theorem stagedPair_owns : stagedPair.up ∧ stagedPair.twin.owner = true ∧ stagedPair.twin.laterD = none ∧ stagedPair.nv.sent = [] :=
  ⟨rfl, rfl, rfl, rfl⟩

/-- The return to the device's own stage is noted (record 0x200), and in state 2 the link already takes the record for the partner. -/
theorem stagedPair_pairing_unacked : (stagedPair.alone 2).twin.unacked.map LinkFrame.type = [0x08] := by decide +kernel

end Sys2Proof.Machine
open Sys2Proof Sys2Proof.Machine

/-- Refutes O50: its last clause has no frame left unacknowledged in whatever state the device goes on. In PAIRING, state 2, the link is in
service (R317), so that the record of a damper stage that changes as the pair parts goes to the partner at once, as for `stagedPair`. The
commands use `State.alone` for states 5 and 6 alone. -/
theorem not_pairsFormAndPart : ¬ Obligations.PairsFormAndPart := by
  unfold Obligations.PairsFormAndPart
  intro h
  obtain ⟨hup, howner, hlater, hsent⟩ := stagedPair_owns
  obtain ⟨-, -, -, -, -, hparts⟩ := h stagedPair hup
  obtain ⟨-, -, -, hunacked, -, -⟩ := hparts howner hlater hsent 2
  have hsends := stagedPair_pairing_unacked
  rw [hunacked] at hsends
  exact absurd hsends (by decide)
end

section
/-! SUPPORT. The commit agreement and resync (R322–R329, R333, R334): what each of its frames does that is heard, and the commands by which
the prime agrees and the rows of a resync go and are installed. -/
namespace Sys2Proof.Machine

/-! ### Frames of the agreement and of resync (R323–R328, R333) -/

/-- A PROPOSE as its words give it (R323). -/
def proposalOf (p : Port) (ws : List W) : Proposal :=
  { port := p, m := nthW ws 1, stage := fld (nthW ws 0) 6 4, fstate := fld (nthW ws 0) 9 8, fno := (nthW ws 2).extractLsb' 0 16,
    entries := (List.range (fld (nthW ws 0) 31 16)).map fun i => (nthW ws (3 + 2 * i), nthW ws (4 + 2 * i)), used := false }

/-- The prime with `q` as the latest PROPOSE of its port. -/
def State.proposeKept (s : State) (q : Proposal) : State :=
  s.modTwin fun t => { t with proposals := (t.proposals.filter fun x => x.port ≠ q.port) ++ [q], propStage := q.stage }

section
variable {s u : State} {h : RxHdr} (hh : s.heard h) (hlink : (s.rxAck h.ack).linkUp = true) (hu : (s.rxAck h.ack).linkRx = u)
  (htwin : u.twinning = true)
include hh hlink hu

theorem onLink_of_heard_as (body : State → State) : s.onLink h body = body u := hu ▸ onLink_of_heard hh hlink body

theorem exec_outcome_of_heard (p : Port) (tile frame : W) (a b : Bool) : exec (.outcome p tile frame a b h) s =
    .next ((u.modTwin fun t =>
      { t with tests := t.tests.map fun e =>
          if e.key = p.val * 65536 + tile.toNat % 65536 ∧ e.frame = frame.toNat then { e with peer := some (a || b) } else e }).occur
            (srcLink 12)).testSettle :=
  congrArg _ (onLink_of_heard_as hh hlink hu _)

theorem exec_state_unfinished : exec (.state none h) s = .next u := congrArg _ (onLink_of_heard_as hh hlink hu _)

include htwin

/-- A PROPOSE is the latest of its port; one whose meridian's AGREE has gone is compared at once (R323, R325). -/
theorem exec_propose_of_heard (hprime : u.twin.prime = true) {p : Port} {ws : List W} (hport : fld (nthW ws 0) 1 0 = p.val) :
    let v := u.proposeKept (proposalOf p ws)
    exec (.propose ws h) s = .next
      (if (u.twin.captured.any fun a => a.port == p) = false ∧ nthW ws 1 = v.agreedMer p then v.proposeCheck p else v) := by
  have hq : (⟨fld (nthW ws 0) 1 0 % 4, by omega⟩ : Port) = p := Fin.ext (by simp only [hport]; omega)
  show Host.Outcome.next _ = _
  rw [onLink_of_heard_as hh hlink hu]
  simp only [htwin, hprime, Bool.not_true, Bool.or_self, Bool.false_eq_true, if_false, hq, Bool.not_eq_true']
  rfl

/-- An AGREE of one frame is held for the next meridian of its port while a port runs (R321, R324). -/
theorem exec_agree_of_heard (hshadow : u.twin.prime = false) {ws : List W} (hshort : ws.length < 512) (hin : u.twin.agreeIn = [])
    (hruns : u.anyRunning = true) :
    let a := readAgree ws
    exec (.agree ws h) s = .next (u.modTwin fun t =>
      { t with
        agreeIn := []
        held := (t.held.filter fun x => x.port ≠ a.port) ++ [a]
        offsets := if t.offsetDue.get a.port then upd t.offsets a.port fun _ => a.m - (u.port a.port).mer else t.offsets
        offsetDue := upd t.offsetDue a.port fun _ => false }) := by
  have hruns' (f : Twin → Twin) : (u.modTwin f).anyRunning = true := hruns
  show Host.Outcome.next _ = _
  rw [onLink_of_heard_as hh hlink hu]
  simp only [htwin, hshadow, hin, hruns', Nat.ne_of_lt hshort, List.nil_append, Bool.not_true, Bool.or_self, Bool.false_eq_true, if_false]
  rfl

theorem exec_digest_of_heard (p : Port) (frame : W) (es : List DigestEntry) : exec (.digest p frame es none h) s = .next (u.modTwin fun t =>
    let new := es.map fun e => (p.val * 65536 + e.tile, frame.toNat, e.crc, e.flags)
    { t with peerTiles := (t.peerTiles.filter fun e => !(new.any fun n => n.1 == e.1)) ++ new }).digestSettle := by
  show Host.Outcome.next _ = _
  rw [onLink_of_heard_as hh hlink hu]
  simp only [htwin, Bool.not_true, Bool.false_eq_true, if_false, List.append_nil]

/-- A row without port state waits in place of an earlier one of the same number (R329). -/
theorem exec_state_row {r : ResyncRow} (hstate : r.portState = none) : exec (.state (some r) h) s = .next (u.modTwin fun t =>
    { t with rowsIn := (t.rowsIn.filter fun x => !(x.port == r.port && x.row == r.row)) ++ [r] }) := by
  show Host.Outcome.next _ = _
  rw [onLink_of_heard_as hh hlink hu]
  simp only [htwin, hstate, Bool.not_true, Bool.false_eq_true, if_false, Option.isNone_none, Option.isSome_none, Bool.or_true, Bool.true_or, if_true]

end

/-! ### AGREE sent, rows installed and sent (R324, R328, R329, R333, R334) -/

/-- Too early to install a row of frame `f`: the frame is still to come, or this device has not finished the row in it (R329). -/
def State.rowEarly (s : State) (p : Port) (row : Nat) (f : W) : Bool :=
  let ahead := (f - s.agreedMer p).toNat
  (decide (1 ≤ ahead) && decide (ahead < 2 ^ 31)) || (f == s.agreedMer p && !s.rowDone p row)

theorem rowEarly_iff (s : State) (p : Port) (row : Nat) (f : W) : s.rowEarly p row f = true ↔
    (1 ≤ (f - s.agreedMer p).toNat ∧ (f - s.agreedMer p).toNat < 2 ^ 31) ∨ ((f - s.agreedMer p).toNat = 0 ∧ s.rowDone p row = false) := by
  have hframe : f = s.agreedMer p ↔ (f - s.agreedMer p).toNat = 0 := by
    rw [← sub_eq_zero, ← BitVec.toNat_inj]
    rfl
  simp [State.rowEarly, hframe]

/-- A row that stands after no frame now is not sent. -/
theorem exec_resyncRowSend_of_no_place {s : State} {p : Port} {row : Nat} (hplace : s.rowPlace p row = none) :
    exec (.resyncRowSend p row) s = .next s :=
  if_pos (by simp [hplace])

section
variable {s : State} (hup : s.up) (htwin : s.twinning = true)
include hup htwin

theorem exec_agreeSend_of_captured {p : Port} {a : Agreement} (hprime : s.twin.prime = true) (hwindow : (s.port p).windowOpen = false)
    (hcap : (s.twin.captured.find? fun a => a.port = p) = some a) :
    let v := s.proposeCheck p
    let sends := !v.twin.agreeHold.get p
    let b := v.agreeLists { a with stage := max v.thermal.stage v.twin.propStage, sgen := (v.port p).sgenNext, swap := a.swap && sends }
    ∃ t : State, exec (.agreeSend p) s = .next (if sends then t.linkSend 0x04 1 p (agreeWords b) else t) ∧
      t = { v with twin := t.twin } ∧ t.twin.captured = v.twin.captured.filter (fun x => x.port ≠ p) ∧
      t.twin.held = v.twin.held.filter (fun x => x.port ≠ p) ++ [b] ∧ t.twin.agreeHold.get p = false := by
  intro v sends b
  refine ⟨?held, ?sent, ?frame⟩
  case sent =>
    show execAgreeSend p s = _
    rw [execAgreeSend, if_neg (by simp [held_of_up hup, htwin, hprime, hwindow]), hcap]
  case frame => exact ⟨rfl, rfl, rfl, upd_get ..⟩

/-- A row that waits is installed where it stands after its frame, waits on while it is too early, and is given up after that (R329). -/
theorem exec_resyncRowInstall {p : Port} {row : Nat} {r : ResyncRow} (hrow : (s.twin.rowsIn.find? fun r => r.port = p ∧ r.row = row) = some r) :
    let u := s.modTwin fun t => { t with rowsIn := t.rowsIn.erase r }
    exec (.resyncRowInstall p row) s =
      if (s.rowPlace p row).any (fun e => e.1 == r.frame) then .next ((u.installRow r).rowInstalled p row)
      else if s.rowEarly p row r.frame then .next s else .next u := by
  intro u
  show execResyncRowInstall p row s = _
  rw [execResyncRowInstall, hrow]
  cases hnow : (s.rowPlace p row).any fun e => e.1 == r.frame with
  | true => simp [held_of_up hup, htwin, hnow, u]
  | false => simp [held_of_up hup, htwin, hnow, u, State.rowEarly]

section
variable {p : Port} {row : Nat} (hrow : row < s.params.force.rows p) (hplace : (s.rowPlace p row).isSome = true)
include hrow hplace

theorem resyncRowSend_ready :
    ¬(s.thermal.held = true ∨ (!s.twinning) = true ∨ s.params.force.rows p ≤ row ∨ (s.rowPlace p row).isNone = true) := by
  simp [held_of_up hup, htwin, Nat.not_le.mpr hrow, Option.isSome_iff_ne_none.mp hplace]

/-- The source of the sweep sends its rows in order, an earlier one again (R329, R333). -/
theorem exec_resyncRowSend_of_sweep (hsweep : s.twin.sweep = true) (hport : s.twin.sweepPort = p) (hsource : s.twin.isSource p = true) :
    exec (.resyncRowSend p row) s =
      if row = s.twin.sweepRow then .next (s.sweepSend p row) else if row < s.twin.sweepRow then .next (s.sendRow p row) else .next s :=
  (if_neg (resyncRowSend_ready hup htwin hrow hplace)).trans (if_pos (by simp [hsweep, hport, hsource]))

/-- Outside a sweep the rows of the tiles that this device is the source of go (R328, R329). -/
theorem exec_resyncRowSend_of_tile (hsweep : s.twin.sweep = false)
    (htile : ((tilesAt s.params.force p row).any fun k => s.twin.sendTiles.contains (p.val, k)) = true) :
    exec (.resyncRowSend p row) s = .next (s.sendRow p row) :=
  (if_neg (resyncRowSend_ready hup htwin hrow hplace)).trans ((if_neg (by simp [hsweep])).trans (if_pos htile))

end

end
end Sys2Proof.Machine
open Sys2Proof Sys2Proof.Machine

/-- Settles O51: each frame that is heard (`exec_propose_of_heard` and the rules after it), the prime's AGREE (`exec_agreeSend_of_captured`),
and the rows of a resync that are installed and sent. -/
theorem agreementAndResync : Obligations.AgreementAndResync := by
  unfold Obligations.AgreementAndResync
  intro s p row hup
  refine ⟨fun h hh hlink htwin => ?received, fun htwin => ⟨?agree, ?install, ?send, exec_resyncRowSend_of_no_place⟩⟩
  case received =>
    intro u
    refine ⟨fun ws hprime hport => ?propose, fun ws hshadow => exec_agree_of_heard hh hlink rfl htwin hshadow,
      exec_digest_of_heard hh hlink rfl htwin p, exec_outcome_of_heard hh hlink rfl p, exec_state_unfinished hh hlink rfl,
      fun r => exec_state_row hh hlink rfl htwin⟩
    intro q v
    have hexec := exec_propose_of_heard hh hlink rfl htwin hprime hport
    exact ⟨fun hkept => hexec.trans (congrArg _ (if_neg fun ⟨hnone, hm⟩ => hkept.elim (ne_true_of_eq_false hnone) fun hne => hne hm)),
      fun hnone hm => hexec.trans (congrArg _ (if_pos ⟨hnone, hm⟩))⟩
  case agree => exact fun a hprime hwindow hcap => exec_agreeSend_of_captured hup htwin hprime hwindow hcap
  case install =>
    intro r hrow u now ahead early
    have hexec := exec_resyncRowInstall hup htwin hrow
    have hearly : s.rowEarly p row r.frame = true ↔ early := rowEarly_iff ..
    exact ⟨fun hnow => hexec.trans (if_pos hnow),
      fun hnow he => hexec.trans ((if_neg (ne_true_of_eq_false hnow)).trans (if_pos (hearly.mpr he))),
      fun hnow he => hexec.trans ((if_neg (ne_true_of_eq_false hnow)).trans (if_neg (mt hearly.mp he)))⟩
  case send =>
    intro hrow hplace
    refine ⟨fun hsweep hport hsource => ?sweep, exec_resyncRowSend_of_tile hup htwin hrow hplace⟩
    have hexec := exec_resyncRowSend_of_sweep hup htwin hrow hplace hsweep hport hsource
    exact ⟨fun h => hexec.trans (if_pos h), fun h => hexec.trans ((if_neg h.ne).trans (if_pos h))⟩
end

section
/-! SUPPORT. The Sextant when it stops (R359): what else a power-fail and a thermal shutdown do leaves the converter's part of the state as it
is. -/
namespace Sys2Proof.Machine

/-! ### Records, flushes and the link leave what no report touches (R335, R426–R430) -/

section
variable {β : Type} {P : State → β} (hq : Quiet P)
include hq

theorem Quiet.sendRecord (s : State) (r : Rec) : P (s.sendRecord r) = P s := by
  unfold State.sendRecord
  split
  · exact hq.linkSend ..
  · rfl

theorem Quiet.recLost (s : State) (full : Bool) : P (s.recLost full) = P s := by
  unfold State.recLost
  dsimp only
  split
  · exact (hq.occur ..).trans (hq.nv ..)
  · exact hq.nv ..

theorem Quiet.recPlace (s : State) (r : Rec) : P (s.recPlace r) = P s := by
  unfold State.recPlace
  extract_lets n again repeated lim entered code
  have hrepeated : P repeated = P s := by
    unfold repeated
    split
    · split
      · exact (hq.occur ..).trans (hq.nv ..)
      · rfl
    · rfl
  have hentered : P entered = P s := (hq.occur ..).trans ((hq.nv ..).trans hrepeated)
  split
  · exact hrepeated
  · split
    · exact (hq.recLost ..).trans hrepeated
    · split
      · exact (hq.recLost ..).trans hrepeated
      · split
        · exact (hq.occur ..).trans hentered
        · exact hentered

theorem Quiet.saveCounters (s : State) (src : NvSrc) : P (s.saveCounters src) = P s := by
  unfold State.saveCounters
  exact hq.nv ..

theorem Quiet.flushPages (s : State) : P s.flushPages = P s := hq.nv ..

theorem Quiet.flushNext (s : State) : P s.flushNext = P s := by
  unfold State.flushNext
  split
  · rfl
  · extract_lets paged
    have hpaged : P paged = P s := by
      unfold paged
      split
      · exact hq.flushPages s
      · rfl
    split
    · exact hpaged
    · exact (hq.nv ..).trans hpaged

theorem Quiet.flush (s : State) : P s.flush = P s := by
  unfold State.flush
  split
  · exact hq.nv ..
  · extract_lets begun saved
    have hbegun : P begun = P s := (hq.occur ..).trans (hq.nv ..)
    have hsaved : P saved = P s := by
      unfold saved
      split
      · exact (hq.saveCounters ..).trans hbegun
      · exact hbegun
    exact (hq.flushNext _).trans ((hq.flushPages _).trans hsaved)

theorem Quiet.recEnter (s : State) (r : Rec) : P (s.recEnter r) = P s := by
  unfold State.recEnter
  dsimp only
  split
  · exact (hq.flush _).trans (hq.recPlace ..)
  · exact hq.recPlace ..

theorem Quiet.noteAnalog (s : State) (code sev src : Nat) (ws : List W) : P (s.noteAnalog code sev src ws) = P s :=
  (hq.sendRecord ..).trans (hq.recEnter ..)

end

theorem quiet_sextant : Quiet State.sextant where
  occur s n := by rw [occur_frame]
  nv _ _ := rfl
  twin _ _ := rfl
  events _ _ := rfl
  store _ _ := rfl
  fm _ _ := rfl
  soft _ _ _ := rfl

@[simp] theorem occur_sextant (s : State) (n : Nat) : (s.occur n).sextant = s.sextant := quiet_sextant.occur s n

/-! ### Bellows channels (R373) -/

@[simp] theorem blwOccur_sextant (s : State) (c : Fin 8) (k : Nat) : (s.blwOccur c k).sextant = s.sextant := by
  unfold State.blwOccur
  repeat' split
  all_goals simp

@[simp] theorem blwReeval_sextant (s : State) (c : Fin 8) : (s.blwReeval c).sextant = s.sextant := by
  unfold State.blwReeval
  dsimp only
  repeat' split
  all_goals simp [State.blwGrant]

@[simp] theorem blwRelease_sextant (s : State) (c : Fin 8) : (s.blwRelease c).sextant = s.sextant := by
  unfold State.blwRelease
  dsimp only
  repeat' split
  all_goals simp

@[simp] theorem blwShutdown_sextant (s : State) : s.blwShutdown.sextant = s.sextant :=
  forEach_eq_of_step State.sextant (fun c t => blwRelease_sextant t c) _ _

/-! ### The host port, the master ports and the NV store at a power-fail (R392) -/

@[simp] theorem readPowerFail_sextant (s : State) : s.readPowerFail.sextant = s.sextant := by
  unfold State.readPowerFail State.readClose
  repeat' split
  all_goals simp [State.readFail, State.hostReject, State.hostAdmit]

@[simp] theorem swTake_sextant (s : State) : s.swTake.sextant = s.sextant := by
  unfold State.swTake
  split
  · rfl
  · extract_lets x m0 m1 m new ctl t
    split
    · exact occur_sextant t _
    · rfl

@[simp] theorem mp0Discard_sextant (s : State) : s.mp0Discard.sextant = s.sextant := by simp [State.mp0Discard]

@[simp] theorem nvPowerFail_sextant (s : State) : s.nvPowerFail.sextant = s.sextant := by
  unfold State.nvPowerFail
  dsimp only
  split
  · simp
  · rfl

/-! ### Tests answered (R302) -/

@[simp] theorem fmOutcome_sextant (s : State) (r : Option Req) (uid : W) (out : Nat) : (s.fmOutcome r uid out).sextant = s.sextant := by
  cases r <;> rfl

@[simp] theorem fmDeliver_sextant (s : State) : s.fmDeliver.sextant = s.sextant := by
  refine forEach_eq_of_step State.sextant (fun o t => ?_) s.fm.outcomes s
  dsimp only
  split
  · exact forEach_eq_of_step State.sextant (fun _ _ => rfl) (allFin 4) _
  · rfl

@[simp] theorem testsAbandon_sextant (s : State) : s.testsAbandon.sextant = s.sextant := by
  unfold State.testsAbandon
  extract_lets answered
  have hanswered : answered.sextant = s.sextant := forEach_eq_of_step State.sextant (fun u t => by
    split
    · simp [State.answerTest]
    · rfl) _ _
  rw [fmDeliver_sextant, forEach_eq_of_step State.sextant (fun r t => by simp [State.storeAnswer]), hanswered]

/-! ### The stop (R359) -/

/-- The converter stopped: every modulator idle, its trigger, its sequence and its measurements gone; results stay. -/
def Sextant.halted (x : Sextant) : Sextant :=
  { x with
    stopped := true
    checkDue := none
    mods := updAll x.mods fun _ m =>
      { m with cond := .idle, pend := none, chain := [], edges := 0, testing := false, checking := none, trimDue := false, trimming := none } }

@[simp] theorem sextantStop_sextant (s : State) : s.sextantStop.sextant = s.sextant.halted := rfl

theorem halted_mod (x : Sextant) (m : Fin 8) : (x.halted.mods.get m).cond = .idle ∧ (x.halted.mods.get m).pend = none ∧
    (x.halted.mods.get m).fifo = (x.mods.get m).fifo := by
  simp [Sextant.halted]

theorem powerFailStart_sextant {s : State} (hstep : s.thermal.pfStep = 0) (hshut : s.thermal.shutdown = false) (cause : Nat) :
    (s.powerFailStart cause).sextant = s.sextant.halted := by
  unfold State.powerFailStart
  rw [if_neg (by simp [hstep, hshut])]
  extract_lets failed stopped soft freed told
  have hstopped : stopped.sextant = s.sextant.halted := by simp [stopped, failed, State.life]
  have htold : told.sextant = stopped.sextant := by
    unfold told
    split
    · rw [occur_sextant, modSerial_sextant]
    · exact modSerial_sextant stopped _
  rw [nvPowerFail_sextant, mp0Discard_sextant, htold, hstopped]

theorem thermalShutdown_sextant {s : State} (hshut : s.thermal.shutdown = false) (t : Fin 48) (x : BitVec 16) (cause : Nat) :
    (s.thermalShutdown t x cause).sextant = s.sextant.halted := by
  unfold State.thermalShutdown
  rw [if_neg (ne_true_of_eq_false hshut)]
  extract_lets words fresh late latched dark stopped
  have hstopped : stopped.sextant = s.sextant.halted := by
    simp [stopped, dark, latched, State.life]
  split
  · exact (quiet_sextant.noteAnalog ..).trans hstopped
  · exact hstopped

theorem exec_powerFail_sextant {s t : State} (hpfail : s.thermal.pfail = true) (hstep : s.thermal.pfStep = 0)
    (hshut : s.thermal.shutdown = false) (h : exec .powerFail s = .next t) : t.sextant = s.sextant.halted := by
  have hexec : exec .powerFail s = .next ((s.modThermal fun t => { t with pfail := false }).powerFailStart 0) := if_pos hpfail
  obtain rfl := Host.Outcome.next.inj (hexec.symm.trans h)
  rw [powerFailStart_sextant, modThermal_sextant]
  · exact hstep
  · exact hshut

/-! ### Commands of a converter that stands -/

section
variable {s : State} {m : Fin 8} (h : s.sextant.stopped = true)
include h

theorem exec_sextantTrigger_of_stopped (tm : Nat) : exec (.sextantTrigger m tm) s = .next s := if_pos (.inr (.inl h))

theorem exec_sequenceStart_of_stopped : exec (.sequenceStart m) s = .next s := if_neg (by simp [h])

theorem exec_sextantConversion_of_stopped (c : RawConv) : exec (.sextantConversion m c) s = .next s := if_pos (.inl h)

end

end Sys2Proof.Machine
open Sys2Proof Sys2Proof.Machine

/-- Settles O58: both causes leave the converter halted (`exec_powerFail_sextant`, `thermalShutdown_sextant`), each command finds it stopped, and
the start of a boot lets it serve again. -/
theorem theSextantStops : Obligations.TheSextantStops := by
  unfold Obligations.TheSextantStops
  intro s m
  refine ⟨fun t hcause => ?stops, fun hstop tm r => ?stands, fun bs role => rfl⟩
  case stops =>
    have hhalted : t.sextant = s.sextant.halted := by
      rcases hcause with ⟨hpfail, hstep, hshut, hexec⟩ | ⟨n, x, k, hshut, rfl⟩
      · exact exec_powerFail_sextant hpfail hstep hshut hexec
      · exact thermalShutdown_sextant hshut n x k
    obtain ⟨hcond, hpend, hfifo⟩ := halted_mod s.sextant m
    unfold State.mod
    rw [hhalted]
    exact ⟨rfl, hcond, hpend, hfifo, rfl⟩
  case stands =>
    exact ⟨exec_sextantTrigger_of_stopped hstop tm, exec_sequenceStart_of_stopped hstop, exec_sextantConversion_of_stopped hstop r⟩
end

section
/-! SUPPORT. Triggers, sequences and conversions of a modulator, the drain of its records, and the measurements in its gaps (R342–R344,
R349–R357). -/
namespace Sys2Proof.Machine

section
variable {s : State} {m : Fin 8}

/-! ### Triggers (R350, R351) -/

theorem sxTrigger_of_idle (hidle : (s.mod m).cond = .idle) (hgap : (s.mod m).inGap = false) (hunit : (s.unit (uMod m)).st = 0) (tm : Nat) :
    s.sxTrigger m tm = s.modMod m fun x => { x with cond := .delaying, startAt := tm + s.sxDelay m, late := false } :=
  if_pos ⟨hidle, by simp [hgap], .inl hunit⟩

section
variable (hbusy : (s.mod m).cond ≠ .idle)
include hbusy

theorem sxTrigger_of_free_slot (hpend : (s.mod m).pend = none) (tm : Nat) :
    s.sxTrigger m tm = s.modMod m fun x => { x with pend := some tm } :=
  (if_neg fun h => hbusy h.1).trans (if_pos (by simp [hpend]))

theorem sxTrigger_of_full_slot (hpend : (s.mod m).pend.isSome = true) (tm : Nat) :
    s.sxTrigger m tm = (s.modMod m fun x => { x with overrun := satAdd x.overrun 1 }).occur (srcMod m 4) :=
  (if_neg fun h => hbusy h.1).trans (if_neg (by simpa [Option.isSome_iff_ne_none] using hpend))

end

theorem exec_sextantTrigger_of_timer (hstop : s.sextant.stopped = false) (hok : s.clocks.refOk = true)
    (hen : bitOf (sxCtl s.params.force m) 0 = true) (htrig : sxTrig (sxCtl s.params.force m) = 1) (hret : s.modRetired m = false) (tm : Nat) :
    exec (.sextantTrigger m tm) s = .next (s.sxTrigger m tm) :=
  (if_neg (by simp [hen, hstop, hok, hret])).trans (if_pos htrig)

/-! ### Sequences (R349) -/

/-- The entries that modulator `m`'s chain names, as the table in force gives them. -/
def sxEntries (b : PMap) (m : Fin 8) : List SxEntry :=
  ((sxChainOf b m).getD []).map fun e => { no := BitVec.ofNat 8 e, w0 := (sxEntryOf b e).1, w1 := (sxEntryOf b e).2 }

theorem sxEntries_no (b : PMap) (m : Fin 8) : (sxEntries b m).map (·.no) = ((sxChainOf b m).getD []).map (BitVec.ofNat 8) :=
  List.map_map

/-- A sequence has begun with its chain. -/
def State.sequenceBegun (s : State) (m : Fin 8) : State :=
  s.modMod m fun x =>
    { x with cond := .converting, chain := sxEntries s.params.force m, conv := 0, sum := 0, clip := false, compl := false }

theorem exec_sequenceStart_of_delaying (hstop : s.sextant.stopped = false) (hok : s.clocks.refOk = true)
    (hunit : (s.unit (uMod m)).st = 0) (hgap : (s.mod m).inGap = false) (hdelay : (s.mod m).cond = .delaying) :
    exec (.sequenceStart m) s = .next ((s.sequenceBegun m).occur (srcMod m 0)) :=
  if_pos ⟨hdelay, by simp [hstop], hok, by simp [hgap], .inl hunit⟩

/-! ### Raw codes (R343) -/

theorem sxRaw_fst (inp ref gain : Nat) (c : RawConv) : (s.sxRaw inp ref gain c).1 =
    let i := sxInput inp c.pins
    let q := sxReference ref c.pins
    if q = 0 then s.free.1.toInt else rndDiv (i.1 * q.sign * 2 ^ (gain + 23)) (q.natAbs * 2 ^ i.2) + c.err := by
  simp only [State.sxRaw, apply_ite Prod.fst]

theorem sxRaw_snd (inp ref gain : Nat) (c : RawConv) : (s.sxRaw inp ref gain c).2 = if sxReference ref c.pins = 0 then s.free.2 else s := by
  simp only [State.sxRaw, apply_ite Prod.snd]

/-- A conversion leaves the trims that correct its code. -/
@[simp] theorem sxRaw_sxCode (inp ref gain : Nat) (c : RawConv) (k : Fin 8) (raw : Int) :
    (s.sxRaw inp ref gain c).2.sxCode k raw = s.sxCode k raw := by
  rw [sxRaw_snd]
  split
  · rfl
  · rfl

@[simp] theorem sxRaw_mod (inp ref gain : Nat) (c : RawConv) (k : Fin 8) : (s.sxRaw inp ref gain c).2.mod k = s.mod k := by
  rw [sxRaw_snd]
  split
  · rfl
  · rfl

/-- A raw code at gain 1 against the internal reference inside its window (R357): there is a reference voltage, and it is positive. -/
theorem sxRaw_internal {c : RawConv} (hin : sxOutside c = false) (inp : Nat) : s.sxRaw inp 0 0 c =
    (rndDiv ((sxInput inp c.pins).1 * 2 ^ 23) (c.pins.vint.toNat * 2 ^ (sxInput inp c.pins).2) + c.err, s) := by
  obtain ⟨hlow, -⟩ : 2475000000 ≤ c.pins.vint ∧ c.pins.vint ≤ 2525000000 := by simpa [sxOutside] using hin
  have hpos : 0 < c.pins.vint := by omega
  have habs : (c.pins.vint.natAbs : Int) = c.pins.vint.toNat := by omega
  simp [State.sxRaw, sxReference, hpos.ne', Int.sign_eq_one_of_pos hpos, habs]

/-! ### Conversions of a sequence (R343, R349, R352, R357) -/

/-- What makes a conversion of an entry an error: a failed residue check, or the internal reference outside its window. -/
def sxBad (e : SxEntry) (c : RawConv) : Bool := c.residueFail || (sxOutside c && fld e.w0 9 8 == 0)

/-- One conversion of entry `e` added to the modulator's sum. -/
def State.converted (s : State) (m : Fin 8) (e : SxEntry) (c : RawConv) : State :=
  let v := s.sxRaw (fld e.w0 5 0) (fld e.w0 9 8) (fld e.w0 14 12) c
  let clip := c.overload || decide (sxFull < v.1) || decide (v.1 < -sxFull)
  v.2.modMod m fun x =>
    { x with conv := x.conv + 1, sum := x.sum + s.sxCode m (clampI v.1 (-sxFull) sxFull), clip := x.clip || clip,
             compl := x.compl || c.compliance }

/-- The entry's record placed, and the modulator at the rest `r` of its chain. -/
def State.entryOver (s : State) (m : Fin 8) (e : SxEntry) (r : List SxEntry) : State :=
  (s.sxRecord m e).modMod m fun x =>
    { x with chain := r, conv := 0, sum := 0, clip := false, compl := false, startAt := x.startAt + e.dur }

theorem converted_conv (e : SxEntry) (c : RawConv) : ((s.converted m e c).mod m).conv = (s.mod m).conv + 1 := by
  simp [State.converted]

section
variable {e : SxEntry} {r : List SxEntry} {c : RawConv}

theorem sxEntryConv_of_bad (hbad : sxBad e c = true) (hout : ((s.sxError m).unit (uMod m)).st = 1) : s.sxEntryConv m e r c = s.sxError m := by
  unfold State.sxEntryConv
  extract_lets t
  have ht : t = s.sxError m := if_pos hbad
  rw [ht, if_pos hout]

theorem sxEntryConv_of_sound (hbad : sxBad e c = false) (hunit : (s.unit (uMod m)).st = 0) : s.sxEntryConv m e r c =
    let u := s.converted m e c
    if (s.mod m).conv + 1 < e.reps then u
    else if r.isEmpty then ((u.entryOver m e r).sxEnd m).fmDeliver else u.entryOver m e r := by
  unfold State.sxEntryConv
  extract_lets t v clip code added placed rested u
  have ht : t = s := if_neg (ne_true_of_eq_false hbad)
  have hadded : added = u := by
    simp only [added, code, clip, v, ht, sxRaw_sxCode]
    rfl
  have hrested : rested = u.entryOver m e r := by
    simp only [rested, placed, hadded, State.entryOver]
  rw [ht, if_neg (by simp [hunit]), hrested, hadded, converted_conv]

end

/-! ### The command (R343, R357) -/

section
variable (hstop : s.sextant.stopped = false) (hok : s.clocks.refOk = true)
include hstop hok

theorem exec_sextantConversion_of_entry {e : SxEntry} {r : List SxEntry} (hunit : (s.unit (uMod m)).st = 0)
    (hgap : (s.mod m).inGap = false) (hconv : (s.mod m).cond = .converting) (hchain : (s.mod m).chain = e :: r) (c : RawConv) :
    exec (.sextantConversion m c) s = .next (s.sxEntryConv m e r c) := by
  obtain ⟨⟨htest, hcheck⟩, htrim⟩ : ((s.mod m).testing = false ∧ (s.mod m).checking = none) ∧ (s.mod m).trimming = none := by
    simpa [SxMod.inGap] using hgap
  show execSextantConversion m c s = _
  simp [execSextantConversion, hstop, hok, htest, hconv, hunit, hcheck, htrim, hchain]

theorem exec_sextantConversion_of_test (htest : (s.mod m).testing = true) (hunit : (s.unit (uMod m)).st = 2)
    (hshut : s.thermal.shutdown = false) (hup : s.up) (c : RawConv) : exec (.sextantConversion m c) s = .next (s.sxTestConv m c) := by
  have hheld : s.thermal.held = false := hup
  exact (if_neg (by simp [hstop, hok])).trans ((if_pos htest).trans (congrArg _ (if_pos (by simp [hunit, hshut, hheld]))))

theorem exec_sextantConversion_of_trim {n : Nat} {a b : Int} (hunit : (s.unit (uMod m)).st = 0) (htest : (s.mod m).testing = false)
    (hcheck : (s.mod m).checking = none) (htrim : (s.mod m).trimming = some (n, a, b)) (c : RawConv) :
    exec (.sextantConversion m c) s = .next (s.sxTrimConv m n a b c) := by
  have hgap : (s.mod m).inGap = true := by simp [SxMod.inGap, htrim]
  show execSextantConversion m c s = _
  simp [execSextantConversion, hstop, hok, htest, hgap, hunit, hcheck, htrim]

end

/-! ### Self-tests and self-trim passes (R355, R357) -/

/-- The saturated raw code of a measurement at gain 1 against the internal reference. -/
def internalCode (c : RawConv) (inp : Nat) : Int :=
  let i := sxInput inp c.pins
  clampI (rndDiv (i.1 * 2 ^ 23) (c.pins.vint.toNat * 2 ^ i.2) + c.err) (-sxFull) sxFull

section
variable {c : RawConv} (hres : c.residueFail = false) (hin : sxOutside c = false)
include hres hin

theorem sxTestConv_of_sound : s.sxTestConv m c =
    let pass := decide ((s.sxCode m (internalCode c 0x3A) - 2 ^ 22).natAbs ≤ 2097)
    ((s.testOver (uMod m) pass 0).sxNext m (some (((s.mod m).gapAt.map (· + 3000)).getD c.endUs))).fmDeliver := by
  simp [State.sxTestConv, hres, hin, sxRaw_internal hin, internalCode]

theorem sxTrimConv_of_sound (hunit : (s.unit (uMod m)).st = 0) {n : Nat} (hn : n < 31) (a b : Int) : s.sxTrimConv m n a b c =
    s.modMod m fun x =>
      { x with trimming := some (n + 1, if n < 16 then (a + internalCode c 0x30, b) else (a, b + internalCode c 0x3A)) } := by
  have hmore : n + 1 < 32 := by omega
  by_cases hofs : n < 16
  all_goals simp [State.sxTrimConv, hres, hin, hunit, hmore, hofs, sxRaw_internal hin, internalCode]

end

/-! ### The drain (R353) -/

theorem exec_sextantDrain_of_room (hup : s.up) (hdrain : bitOf (sxCtl s.params.force m) 5 = true)
    (hroom : ((s.eng engCE).chans.get 12).length ≤ 2) {a b : W} {l : List (W × W)} (hfifo : (s.mod m).fifo = (a, b) :: l) :
    exec (.sextantDrain m) s = .next (forEach (allFin 4) (fun c t => t.latch engCE c 24)
      ((s.modMod m fun x => { x with fifo := l }).modEng engCE fun en => { en with chans := upd en.chans 12 (· ++ [a, b]) })) := by
  have hheld : s.thermal.held = false := hup
  refine (if_neg (by simp [hheld, hdrain, Nat.not_lt.mpr hroom])).trans ?_
  rw [hfifo]

end

end Sys2Proof.Machine
open Sys2Proof Sys2Proof.Machine

/-- Settles O53: a trigger by what the modulator and its slot hold (`sxTrigger_of_idle` and the rules after it), the start of a sequence, a
conversion by its soundness (`sxEntryConv_of_bad`, `sxEntryConv_of_sound`), the drain, and the conversions of a test and of a trim pass. -/
theorem sextantSequences : Obligations.SextantSequences := by
  unfold Obligations.SextantSequences
  refine ⟨fun s m tm hstop hok hunit htest hgap => ?sequence, fun s m c hstop hok => ?gap⟩
  case sequence =>
    intro ctl
    refine ⟨fun hen htrig hret => ?trigger, fun hdelay => ?start, fun c e r hconv hchain => ?conversion,
      fun a b l hup hdrain hroom hfifo => exec_sextantDrain_of_room hup hdrain hroom hfifo⟩
    case trigger =>
      have hexec := exec_sextantTrigger_of_timer hstop hok hen htrig hret tm
      exact ⟨fun hidle => hexec.trans (congrArg _ (sxTrigger_of_idle hidle hgap hunit tm)),
        fun hbusy hpend => hexec.trans (congrArg _ (sxTrigger_of_free_slot hbusy hpend tm)),
        fun hbusy hpend => hexec.trans (congrArg _ (sxTrigger_of_full_slot hbusy hpend tm))⟩
    case start =>
      refine ⟨s.sequenceBegun m, exec_sequenceStart_of_delaying hstop hok hunit hgap hdelay, rfl,
        fun k hk => modMod_mod_ne _ _ _ _ hk, ?_⟩
      rw [State.sequenceBegun, modMod_mod]
      exact ⟨rfl, sxEntries_no .., rfl, rfl⟩
    case conversion =>
      intro bad i q f raw clip u v
      have hexec := exec_sextantConversion_of_entry hstop hok hunit hgap hconv hchain c
      have hu : s.converted m e c = u := by
        simp only [State.converted, sxRaw_fst, sxRaw_snd]
        rfl
      have hsound (hbad : bad = false) := hexec.trans (congrArg _ (sxEntryConv_of_sound hbad hunit))
      rw [hu] at hsound
      refine ⟨fun hbad hout => hexec.trans (congrArg _ (sxEntryConv_of_bad hbad hout)),
        fun hbad hmore => (hsound hbad).trans (congrArg _ (if_pos hmore)), fun hbad hlast hr => ?_, fun hbad hlast hr => ?_⟩
      · exact (hsound hbad).trans (congrArg _ ((if_neg hlast.not_lt).trans (if_neg (by simpa using hr))))
      · exact (hsound hbad).trans (congrArg _ ((if_neg hlast.not_lt).trans (if_pos (by simpa using hr))))
  case gap =>
    exact ⟨fun htest hunit hshut hup => exec_sextantConversion_of_test hstop hok htest hunit hshut hup c, sxTestConv_of_sound,
      fun n a b hunit htest hcheck htrim hn hres hin =>
        (exec_sextantConversion_of_trim hstop hok hunit htest hcheck htrim c).trans (congrArg _ (sxTrimConv_of_sound hres hin hunit hn a b))⟩
end

section
/-! SUPPORT. Frames of the host port (R398–R404): the judgement of a write frame and its admission, the oldest frame applied, and the words
of a read frame. -/
namespace Sys2Proof.Machine

/-! ### What an occurrence leaves -/

@[simp] theorem occur_serial (s : State) (n : Nat) : (s.occur n).serial = s.serial := by rw [occur_frame]

/-! ### Write frames (R402, R403) -/

theorem ownerRejects_ident {s : State} {a : Nat} (hreg : regionOf a = some .ident) (ws : List W) : s.ownerRejects a ws = false := by
  simp [State.ownerRejects, hreg]

section
variable {s : State}

theorem writeCause_address (a : Nat) (ws : List W) : s.writeCause a ws .address = some 2 := rfl

theorem writeCause_misaligned {a : Nat} (h4 : a % 4 ≠ 0) (w : W) : s.writeCause a [w] .whole = some 3 := by
  simp [State.writeCause, h4]

/-- A word that nothing else rejects is rejected while READY is 0 (R402). -/
theorem writeCause_notReady {a : Nat} (hready : s.hostReady = false) (hreg : regionOf a = some .ident) (h4 : a % 4 = 0) (w : W) :
    s.writeCause a [w] .whole = some 8 := by
  simp [State.writeCause, h4, hreg, wordAddrs, ownerRejects_ident hreg, hready]

theorem hostJudge_of_cause {a : Nat} {ws : List W} {cut : Cut} {c : Byte} (hc : s.writeCause a ws cut = some c) (h7 : c ≠ 7) :
    s.hostJudge a ws cut = s.hostReject c := by
  rw [State.hostJudge, hc]
  exact if_neg fun h => h7 h.1

theorem hostJudge_of_none {a : Nat} {ws : List W} {cut : Cut} (hc : s.writeCause a ws cut = none) (hw : ws ≠ []) :
    s.hostJudge a ws cut = s.hostAdmit.modSerial fun x => { x with bufs := x.bufs ++ [(wn a, ws)] } := by
  rw [State.hostJudge, hc]
  exact if_neg hw

theorem hostBegin_of_closed (hend : s.serial.readEnd = none) :
    s.hostBegin = s.modSerial fun x => { x with statusOut := s.statusByte, wordsOut := [], xipWait := [], frameWait := none } := by
  simp only [State.hostBegin, State.readClose, hend]

/-- With a buffer free a write frame is judged as it ends. -/
theorem hostFrame_of_room (hup : s.hostUp = true) (hend : s.serial.readEnd = none) (hroom : s.serial.bufs.length < 2) (addr : W)
    (ws : List W) (cut : Cut) : s.hostFrame addr ws cut = s.hostBegin.hostJudge addr.toNat ws cut := by
  have hbufs : s.hostBegin.serial.bufs = s.serial.bufs := by rw [hostBegin_of_closed hend]; rfl
  have hnot : ¬ 2 ≤ s.hostBegin.serial.bufs.length := by rw [hbufs]; omega
  rw [State.hostFrame, if_neg (by simp [hup])]
  simp only [if_neg hnot, State.hostTake, decide_eq_false hnot, Bool.false_and, Bool.false_eq_true, if_false]

theorem exec_hostWriteSingle (addr : W) (ws : List W) (cut : Cut) :
    exec (.hostWriteSingle addr ws cut) s = .next (s.hostFrame addr ws cut) := rfl

theorem exec_hostWriteQuad (addr : W) (ws : List W) (cut : Cut) : exec (.hostWriteQuad addr ws cut) s = .next (s.hostFrame addr ws cut) := rfl

theorem exec_hostReadSingle (addr : W) (n : Nat) (cut : Cut) :
    exec (.hostReadSingle addr n cut) s = .next (s.hostRead addr.toNat n cut) := rfl

theorem exec_hostReadQuad (addr : W) (n : Nat) (cut : Cut) : exec (.hostReadQuad addr n cut) s = .next (s.hostRead addr.toNat n cut) := rfl

section
variable (hup : s.hostUp = true) (hend : s.serial.readEnd = none)
include hup hend

theorem exec_hostWriteSingle_rejected (hroom : s.serial.bufs.length < 2) {addr w : W} {cut : Cut} {c : Byte}
    (hc : s.hostBegin.writeCause addr.toNat [w] cut = some c) (h7 : c ≠ 7) :
    exec (.hostWriteSingle addr [w] cut) s = .next (s.hostBegin.hostReject c) := by
  rw [exec_hostWriteSingle, hostFrame_of_room hup hend hroom, hostJudge_of_cause hc h7]

/-- A word of the identity region is admitted into the first buffer. -/
theorem hostFrame_admitted (hempty : s.serial.bufs = []) (hready : s.hostReady = true) {addr : W}
    (hreg : regionOf addr.toNat = some .ident) (h4 : addr.toNat % 4 = 0) (w : W) :
    s.hostFrame addr [w] .whole = s.framed.modSerial fun x => { x with bufs := [(addr, [w])] } := by
  have hbegin := hostBegin_of_closed hend
  have hbufs : s.hostBegin.serial.bufs = [] := by rw [hbegin]; exact hempty
  have hbufs' : s.framed.serial.bufs = [] := hbufs
  have hcause : s.hostBegin.writeCause addr.toNat [w] .whole = none := by
    refine writeCause_none hbufs (by rw [hbegin]; exact hready) h4 (List.cons_ne_nil w []) (by simp) hreg ?_ (ownerRejects_ident hreg _)
    simp [wordAddrs, hreg]
  have hwn : wn addr.toNat = addr := by simp [wn]
  rw [hostFrame_of_room hup hend (by simp [hempty]), hostJudge_of_none hcause (List.cons_ne_nil w []), hwn]
  show (s.framed.modSerial fun x => { x with bufs := x.bufs ++ [(addr, [w])] }) = _
  simp only [State.modSerial, hbufs', List.nil_append]

theorem exec_hostStatus (n : Nat) :
    exec (.hostStatus n) s = .next (s.framed.answers (List.replicate n (s.statusByte.zeroExtend 32))) := by
  have hstatus : s.hostBegin.serial.statusOut = s.statusByte := by rw [hostBegin_of_closed hend]; rfl
  show Host.Outcome.next (s.hostStatus n) = _
  rw [State.hostStatus, if_neg (by simp [hup])]
  simp only [hstatus]
  rfl

end

theorem exec_hostUnknownCommand (hup : s.hostUp = true) {cmd : Byte} (hcmd : frameTypeOf cmd = none) :
    exec (.hostUnknownCommand cmd) s = .next (s.hostBegin.hostReject 1) := by
  show (if (frameTypeOf cmd).isSome then _ else _) = _
  rw [hcmd, if_neg (by simp), State.hostByte, hcmd]
  simp [hup]

/-! ### The words of a read frame (R401–R404) -/

theorem readGo_of_answered (hwait : s.serial.xipWait = []) : s.readGo = s.readClose := by
  simp [State.readGo, hwait]

/-- With no read frame in progress there is nothing to go on with. -/
theorem readGo_of_rest (hwait : s.serial.xipWait = []) (hend : s.serial.readEnd = none) : s.readGo = s := by
  rw [readGo_of_answered hwait, State.readClose, hend]

theorem readClose_of_admitted (hend : s.serial.readEnd = some none) :
    s.readClose = (s.modSerial fun x => { x with readEnd := none }).hostAdmit := by
  rw [State.readClose, hend]

theorem readClose_of_cause {c : Byte} (hend : s.serial.readEnd = some (some c)) :
    s.readClose = (s.modSerial fun x => { x with readEnd := none }).hostReject c := by
  rw [State.readClose, hend]

/-- The last waiting word's answer ends the frame. -/
theorem readGo_of_word (hbufs : s.serial.bufs = []) {a : Nat} {v : W} {t : State} (hwait : s.serial.xipWait = [a])
    (hword : s.hostWord a = (some v, t)) : s.readGo =
      (t.modSerial fun x => { x with wordsOut := x.wordsOut ++ [v], xipWait := [] }).readClose := by
  simp only [State.readGo, hbufs, hwait, List.isEmpty_nil, List.isEmpty_cons, Bool.not_false, Bool.and_self, if_true, State.readWords,
    hword]
  exact if_pos rfl

/-- An idle host port samples the one word of a whole frame. -/
theorem hostRead_sampling (h : s.hostIdle) {a : Nat} (h4 : a % 4 = 0) : s.hostRead a 1 .whole = (s.sampling a).readGo := by
  have hbegin := hostBegin_of_idle h
  obtain ⟨hup, hready, hbufs, -⟩ := h
  have hready' : s.hostBegin.hostReady = true := by rw [hbegin]; exact hready
  have haddrs : s.hostBegin.readAddrs a 1 = [a] := by simp [State.readAddrs, wordAddrs, h4, hready']
  have hcause : s.hostBegin.readCause a 1 .whole = none := by simp [State.readCause, wordAddrs, h4, hready']
  rw [State.hostRead, if_neg (by simp [hup]), hostDrain_of_empty (by rw [hbegin]; exact hbufs)]
  dsimp only
  rw [hcause, if_neg (by decide), haddrs]
  rfl

/-- A read frame of one word whose value and effect `g` have nothing to do with the serial ports: the effect, and the word driven out. -/
theorem hostRead_of_word (h : s.hostIdle) {a : Nat} {v : W} {g : State → State} (h4 : a % 4 = 0)
    (hword : ∀ x, { s with serial := x }.hostWord a = (some v, g { s with serial := x }))
    (hg : ∀ x, g { s with serial := x } = { g s with serial := x }) : s.hostRead a 1 .whole = (g s.framed).answers [v] := by
  have hframed := framed_of_idle h
  have hsampling := sampling_of_idle h a
  rw [hostRead_sampling h h4]
  obtain ⟨-, -, hbufs, hend⟩ := h
  have hgo := readGo_of_word (s := s.sampling a) (by rw [hsampling]; exact hbufs) rfl (by rw [hsampling]; exact hword _)
  rw [hgo, hg, readClose_of_admitted rfl, hframed]
  refine Eq.trans ?_ (congrArg (State.answers · [v]) (hg _).symm)
  simp only [State.hostAdmit, State.answers, State.modSerial, hend, List.nil_append]

/-! ### Apply and time out (R401, R403) -/

/-- The scratch word takes what an admitted frame holds for it (R485, R486). -/
theorem hostApplyOne_scratch {w : W} {r : List (W × List W)} (hbufs : s.serial.bufs = (0x80, [w]) :: r) :
    s.hostApplyOne = { (s.modSerial fun x => { x with bufs := r }) with scratch := w } := by
  rw [State.hostApplyOne, hbufs]
  rfl

/-- With no frame held back and no read frame in progress nothing follows an application. -/
theorem frameGo_readGo_of_rest (hframe : s.serial.frameWait = none) (hwait : s.serial.xipWait = []) (hend : s.serial.readEnd = none) :
    s.frameGo.readGo = s := by
  simp only [State.frameGo, hframe, readGo_of_rest hwait hend]

section
variable (hs : s.up)
include hs

theorem exec_hostWriteApply_scratch {w : W} {r : List (W × List W)} (hbufs : s.serial.bufs = (0x80, [w]) :: r)
    (hwait : s.serial.xipWait = []) (hend : s.serial.readEnd = none) (hframe : s.serial.frameWait = none) :
    exec .hostWriteApply s = .next { (s.modSerial fun x => { x with bufs := r }) with scratch := w } := by
  have hheld : s.thermal.held = false := hs
  refine (if_neg (by simp [hheld])).trans (congrArg _ ?_)
  rw [hostApplyOne_scratch hbufs]
  exact frameGo_readGo_of_rest hframe hwait hend

/-- The last word of a read frame, which no line fill gives in time, is ones and the cause of the frame's rejection. -/
theorem exec_hrdyTimeout_of_fill {a : Nat} (hwait : s.serial.xipWait = [a]) (hreg : regionOf a = some .xip)
    (hend : s.serial.readEnd = some none) : exec .hrdyTimeout s = .next (((((s.modSerial fun x =>
      { x with timeouts := satAdd x.timeouts 1, wordsOut := x.wordsOut ++ [0xFFFFFFFF], xipWait := [] }).occur (srcSerial 2)).occur
        (srcSerial 7)).modSerial fun x => { x with readEnd := none }).hostReject 9) := by
  have hheld : s.thermal.held = false := hs
  show execHrdyTimeout s = _
  simp only [execHrdyTimeout, hwait, hheld, Bool.false_eq_true, if_false, hreg, if_true]
  rw [readGo_of_answered (by simp [State.readFail]), readClose_of_cause (c := 9) (by simp [State.readFail, hend])]
  rfl

end

end

end Sys2Proof.Machine
open Sys2Proof Sys2Proof.Machine

/-- Settles O25: frames at the port by what `State.writeCause` finds (`hostFrame_admitted`, `exec_hostWriteSingle_rejected`), reads
(`hostRead_of_word`), the frame applied and the word that is waited for too long. -/
theorem hostFramesAreAppliedInOrder : Obligations.HostFramesAreAppliedInOrder := by
  unfold Obligations.HostFramesAreAppliedInOrder
  refine ⟨fun s addr w n cmd hup hend => ?frames, fun s w a r hs => ?applied⟩
  case frames =>
    have hscratch (h : s.hostIdle) : s.hostRead 0x80 1 .whole = s.framed.answers [s.scratch] :=
      hostRead_of_word h (g := id) rfl (fun _ => rfl) fun _ => rfl
    refine ⟨by decide, fun hempty hready hreg h4 => ?admitted, fun h => ?read, exec_hostStatus hup hend n, exec_hostUnknownCommand hup,
      fun hroom h4 => ?misaligned, fun hroom => ?cut, fun hroom hready hreg h4 => ?notReady⟩
    case admitted =>
      have hadmitted := hostFrame_admitted hup hend hempty hready hreg h4 w
      exact ⟨by rw [exec_hostWriteSingle, hadmitted], by rw [exec_hostWriteQuad, hadmitted]⟩
    case read => exact ⟨(exec_hostReadSingle ..).trans (congrArg _ (hscratch h)), (exec_hostReadQuad ..).trans (congrArg _ (hscratch h))⟩
    case misaligned => exact exec_hostWriteSingle_rejected hup hend hroom (writeCause_misaligned h4 w) (by decide)
    case cut => exact exec_hostWriteSingle_rejected hup hend hroom (writeCause_address _ _) (by decide)
    case notReady =>
      have hready' : s.hostBegin.hostReady = false := by rw [hostBegin_of_closed hend]; exact hready
      exact exec_hostWriteSingle_rejected hup hend hroom (writeCause_notReady hready' hreg h4 w) (by decide)
  case applied => exact ⟨exec_hostWriteApply_scratch hs, exec_hrdyTimeout_of_fill hs⟩
end

section
/-! SUPPORT. The words whose read latches another word or moves something on (R256, R339, R354, R360, R404, R431, R478, R486). -/
namespace Sys2Proof.Machine

/-! ### Their places in the host's address map (R483) -/

theorem regionOf_sextant {a : Nat} (hlo : 0x2C000 ≤ a) (hhi : a < 0x30000) : regionOf a = some .sextant := by
  have h (n : Nat) (hn : n ≤ 0x2C000) : ¬ a < n := by omega
  simp [regionOf, regions, h, hlo, hhi]

theorem regionOf_observe {a : Nat} (hlo : 0x3C000 ≤ a) (hhi : a < 0x40000) : regionOf a = some .observe := by
  have h (n : Nat) (hn : n ≤ 0x3C000) : ¬ a < n := by omega
  simp [regionOf, regions, h, hlo, hhi]

section
variable {s : State}

/-- The low words of modulator `m`: the FIFO's and the accumulator's (R354, R360). -/
theorem hostWord_resLo (m : Fin 8) : s.hostWord (0x2C100 + 0x20 * m.val) = (some (s.resLo m).1, (s.resLo m).2) := by
  fin_cases m <;> rfl

theorem hostWord_accLo (m : Fin 8) : s.hostWord (0x2C108 + 0x20 * m.val) = (some (s.accLo m).1, (s.accLo m).2) := by
  fin_cases m <;> rfl

/-- The words of entry `e` of the conversion table (R360). -/
theorem hostWord_lastLo (e : BitVec 8) : s.hostWord (0x2C800 + 8 * e.toNat) = (some (s.lastLo e.toNat).1, (s.lastLo e.toNat).2) := by
  have he : e.toNat < 256 := e.isLt
  have hreg : regionOf (0x2C800 + 8 * e.toNat) = some .sextant := regionOf_sextant (by omega) (by omega)
  have hn : (0x2C800 + 8 * e.toNat - 0x2C000 - 0x800) / 8 = e.toNat := by omega
  have hread : s.sextantRead (0x2C800 + 8 * e.toNat) = s.lastLo e.toNat := by
    unfold State.sextantRead
    dsimp only
    rw [if_neg (by omega), if_neg (by omega), dif_neg (by omega), if_pos (by omega), if_pos (by omega), hn]
  simp only [State.hostWord, hreg, hread]

/-- The words of counter `i` (R478). -/
theorem hostWord_counterLo (i : Fin 512) : s.hostWord (0x3C000 + 8 * i.val) = (some ((s.counter i.val).extractLsb' 0 32),
    s.modEvents fun e => { e with countHi := insertN e.countHi i.val ((s.counter i.val).extractLsb' 32 32) }) := by
  have hreg : regionOf (0x3C000 + 8 * i.val) = some .observe := regionOf_observe (by omega) (by omega)
  have hi : (0x3C000 + 8 * i.val - 0x3C000) / 8 = i.val := by omega
  simp only [State.hostWord, hreg, State.observeRead, if_pos (show 0x3C000 ≤ 0x3C000 + 8 * i.val ∧ 0x3C000 + 8 * i.val < 0x3D000 by omega),
    if_pos (show (0x3C000 + 8 * i.val) % 8 = 0 by omega), hi]

/-- Outside twin operation the agreed operating time is the local one (R486). -/
theorem hostWord_agreedLo (htwin : s.twinEn = false) : s.hostWord 0x20 =
    (some (wn s.nv.optime), s.modNv fun n => { n with agreedHi := wn (s.nv.optime / 2 ^ 32 % 256) }) := by
  show (some (s.identRead 0x20).1, (s.identRead 0x20).2) = _
  simp only [State.identRead, htwin, Bool.false_eq_true, if_false]

/-- A read of a FIFO that the CE does not drain takes the oldest result (R360). -/
theorem resLo_of_fifo {m : Fin 8} {r : W × W} {q : List (W × W)} (hdrain : bitOf (sxCtl s.params.force m) 5 = false)
    (hfifo : (s.mod m).fifo = r :: q) : s.resLo m = (r.1, s.modMod m fun x => { x with fifo := q, resHi := r.2 }) := by
  simp only [State.resLo, hdrain, hfifo, Bool.false_eq_true, if_false]

/-- A read of the NV store where no word has an error. -/
theorem nvRead_of_sound (hbad : s.nv.bad = []) (hsoft : s.nv.soft = []) (a n : Nat) : (s.nvRead a n).2 = s := by
  simp [State.nvRead, Nv.softView, Nv.badView, hbad, hsoft, forEach]

/-- The last word of the almanac's window moves the cursor on (R431). -/
theorem almWin_last (hopen : s.nv.readOpen 0 = true) (hbad : s.nv.bad = []) (hsoft : s.nv.soft = []) :
    s.almWin 252 =
      (let o := s.nv.cursor.toNat + 252
       word4 (s.nv.logByte o) (s.nv.logByte (o + 1)) (s.nv.logByte (o + 2)) (s.nv.logByte (o + 3)),
       s.modNv fun n => { n with cursor := wn ((n.cursor.toNat + 256) % 2 ^ 19) }) := by
  have hview : s.nv.badView = [] := by simp [Nv.badView, hbad]
  simp [State.almWin, hopen, nvRead_of_sound hbad hsoft, hview]

end

end Sys2Proof.Machine
open Sys2Proof Sys2Proof.Machine

/-- Settles O26: each is a read of one word (`hostRead_of_word`), by what that word gives and does. -/
theorem lowWordsLatchTheirHighWords : Obligations.LowWordsLatchTheirHighWords := by
  unfold Obligations.LowWordsLatchTheirHighWords
  intro s m e i r q h u x
  have hcounter : u.counter i.val = s.counter i.val := by rw [show u = _ from framed_of_idle h]; rfl
  refine ⟨?serial, ?serialHi, ?optime, fun htwin => ?agreed, ?ce, ?peerSn, ?counter, ?acc, fun hdrain hfifo => ?res, ?last,
    fun hopen hbad hsoft => ?almanac⟩
  all_goals refine congrArg Host.Outcome.next ?_
  case serial => exact hostRead_of_word h (g := (State.modNv · _)) rfl (fun _ => rfl) fun _ => rfl
  case serialHi => exact hostRead_of_word h (g := id) rfl (fun _ => rfl) fun _ => rfl
  case optime => exact hostRead_of_word h (g := (State.modNv · _)) rfl (fun _ => rfl) fun _ => rfl
  case agreed => exact hostRead_of_word h (g := (State.modNv · _)) rfl (fun _ => hostWord_agreedLo htwin) fun _ => rfl
  case ce => exact hostRead_of_word h (g := (State.modStore · _)) rfl (fun _ => rfl) fun _ => rfl
  case peerSn => exact hostRead_of_word h (g := (State.modTwin · _)) rfl (fun _ => rfl) fun _ => rfl
  case counter =>
    rw [hcounter]
    exact hostRead_of_word h (g := (State.modEvents · _)) (by omega) (fun _ => hostWord_counterLo i) fun _ => rfl
  case acc => exact hostRead_of_word h (g := (State.modMod · m _)) (by omega) (fun _ => hostWord_accLo m) fun _ => rfl
  case res =>
    refine hostRead_of_word h (g := (State.modMod · m _)) (by omega) (fun y => (hostWord_resLo m).trans ?_) fun _ => rfl
    rw [resLo_of_fifo (s := { s with serial := y }) hdrain hfifo]
  case last =>
    exact hostRead_of_word h (g := fun t => { t with sextant := { t.sextant with
      lastHi := insertN t.sextant.lastHi e.toNat (getN s.sextant.latest e.toNat (0, 0)).2 } }) (by omega) (fun _ => hostWord_lastLo e)
      fun _ => rfl
  case almanac =>
    refine hostRead_of_word h (g := (State.modNv · _)) rfl (fun y => ?_) fun _ => rfl
    show (some ({ s with serial := y }.almWin 252).1, ({ s with serial := y }.almWin 252).2) = _
    rw [almWin_last (s := { s with serial := y }) hopen hbad hsoft]
end

section
/-! SUPPORT. MP0 at a command boundary and at the ends of its commands (R406, R408–R411, R419, R420). -/
namespace Sys2Proof.Machine

theorem quiet_serial : Quiet State.serial where
  occur s n := occur_serial s n
  nv _ _ := rfl
  twin _ _ := rfl
  events _ _ := rfl
  store _ _ := rfl
  fm _ _ := rfl
  soft _ _ _ := rfl

theorem Quiet.ringFix {β : Type} {P : State → β} (hq : Quiet P) (s : State) (e : Eng) (base : Nat) : P (s.ringFix e base) = P s := by
  unfold State.ringFix
  dsimp only
  split
  · exact (hq.dataFix ..).trans (hq.dataFix ..)
  · exact hq.dataFix ..

/-- What a sequencer command does to the port: it has the command and its transactions, and loses its lines unless it reads (R408). -/
theorem mp0Issue_eq (s : State) (ctl : W) (c : Mp0Cmd) (ops : List XspiOp) : s.mp0Issue ctl c ops =
    s.modSerial fun x => { x with mp0 := some c, mp0Bus := ops, lines := if bitOf ctl 18 then [] else x.lines } := by
  unfold State.mp0Issue
  cases bitOf ctl 18 <;> rfl

theorem xspiOps_of_serial {s t : State} (h : t.serial = s.serial) : t.xspiOps = s.xspiOps := by
  unfold State.xspiOps
  rw [h]

theorem mp0Soft_of_serial {s t : State} (h : t.serial = s.serial) : t.mp0Soft = s.mp0Soft := by
  unfold State.mp0Soft
  rw [h]

/-- The ME's ring as the sequencer reads it, single-bit errors corrected; the ring of a retired ME is not read (R43, R411). -/
def State.mp0Read (s : State) : State := if s.engRetired engME then s else s.ringFix engME 0x7E00

theorem mp0Read_serial (s : State) : s.mp0Read.serial = s.serial := by
  unfold State.mp0Read
  split
  · rfl
  · exact quiet_serial.ringFix ..

section
variable {s : State}

theorem swTake_of_none (h : s.serial.swPend = none) : s.swTake = s := by
  rw [State.swTake, h]

/-! ### Command boundaries (R409) -/

theorem exec_mp0CommandStart (hup : s.up) (hidle : s.serial.mp0 = none) : exec .mp0CommandStart s = .next s.mp0Start := by
  have hheld : s.thermal.held = false := hup
  exact if_neg (by simp [hheld, hidle])

theorem mp0Start_of_production (hprod : s.prodFills = true) : s.mp0Start = s := if_pos hprod

section
variable (hprod : s.prodFills = false)
include hprod

theorem mp0Start_of_fill {a : Nat} (hlines : s.serial.lines = [⟨a, [], true⟩]) (hsoft : s.mp0Soft (a / 2 ^ 32) = false) :
    s.mp0Start = s.fillStart a := by
  have hfind : s.serial.lines.find? (fun l => l.filling && !s.mp0Soft (l.addr / 2 ^ 32)) = some ⟨a, [], true⟩ := by
    rw [hlines]
    exact List.find?_cons_of_pos (by rw [hsoft]; rfl)
  rw [State.mp0Start, if_neg (by simp [hprod]), hfind]

/-- With no line to fill it is the ring's turn. -/
theorem mp0Start_of_ring (hlines : s.serial.lines = []) {i : Nat} (hhead : s.mp0Read.mp0Head = some i)
    (hbad : s.mp0Read.mp0Bad i = false) (hsoft : s.mp0Soft (fld (ringWord (s.mp0Read.eng engME).data 0x7E00 i 0) 19 19) = false) :
    s.mp0Start = s.mp0Read.mp0RingStart i := by
  rw [← mp0Soft_of_serial (mp0Read_serial s)] at hsoft
  have hfilter : (s.mp0Read.mp0Head.filter fun i => s.mp0Read.mp0Bad i ||
      !s.mp0Read.mp0Soft (fld (ringWord (s.mp0Read.eng engME).data 0x7E00 i 0) 19 19)) = some i := by
    simp [hhead, hbad, hsoft]
  unfold State.mp0Read at hfilter hbad ⊢
  simp [State.mp0Start, hprod, hlines, hfilter, hbad]

/-- With no line to fill and no descriptor in the ring it is the host's turn. -/
theorem mp0Start_of_host (hlines : s.serial.lines = []) (hhead : s.mp0Read.mp0Head = none) (hbusy : s.serial.hbusy = true)
    (hsoft : s.mp0Soft (fld s.serial.hcmd 19 19) = false) :
    s.mp0Start = s.mp0Read.mp0Issue s.serial.hcmd .host (s.xspiOps s.serial.hcmd (fld s.serial.hcmd 15 0) s.serial.haddr.toNat
      (Mem.read s.serial.hbuf 0 s.serial.hlen) s.serial.hlen) := by
  have hserial := mp0Read_serial s
  rw [← xspiOps_of_serial hserial]
  rw [← mp0Soft_of_serial hserial] at hsoft
  unfold State.mp0Read at hhead hserial hsoft ⊢
  simp [State.mp0Start, hprod, hlines, hhead, hserial, hbusy, hsoft]

end

/-! ### The ends of commands (R410, R411, R420) -/

/-- A change of the port that leaves no select to hand over and no read frame to go on with. -/
theorem exec_mp0CommandDone (hup : s.up) {c : Mp0Cmd} (hcmd : s.serial.mp0 = some c) (bs : List Byte)
    (hsw : (s.mp0End bs).serial.swPend = none) (hwait : (s.mp0End bs).serial.xipWait = [])
    (hend : (s.mp0End bs).serial.readEnd = none) : exec (.mp0CommandDone bs) s = .next (s.mp0End bs) := by
  have hheld : s.thermal.held = false := hup
  refine (if_neg (by simp [hheld, hcmd])).trans (congrArg _ ?_)
  rw [swTake_of_none hsw, readGo_of_rest hwait hend]

/-- The bytes of a fill become its line. -/
theorem mp0End_of_fill {a : Nat} {bs : List Byte} (hcmd : s.serial.mp0 = some (.fill a)) (hlines : s.serial.lines = [⟨a, [], true⟩])
    (hlen : bs.length = 64) : s.mp0End bs = s.modSerial fun x => { x with mp0 := none, lines := [⟨a, bs, false⟩] } := by
  have htake : bs.take 64 = bs := List.take_of_length_le hlen.le
  simp [State.mp0End, hcmd, State.modSerial, hlines, hlen, htake]

/-- The bytes of a read of the host's become its buffer (R420). -/
theorem mp0End_of_host_read {bs : List Byte} (hcmd : s.serial.mp0 = some .host) (hread : bitOf s.serial.hcmd 18 = false)
    (hlen : bs.length = s.serial.hlen) : s.mp0End bs = (s.modSerial fun x =>
      { x with mp0 := none, hbusy := false, hcode := 1, hbuf := Mem.write x.hbuf 0 bs }).occur (srcSerial 5) := by
  have htake : bs.take s.serial.hlen = bs := List.take_of_length_le hlen.le
  simp only [State.mp0End, hcmd, hread, htake]
  rfl

theorem exec_mp0PollTimeout_host (hup : s.up) (hsw : s.serial.swPend = none) (hcmd : s.serial.mp0 = some .host)
    (hpoll : bitOf s.serial.hcmd 20 = true) : exec .mp0PollTimeout s =
      .next (((s.modSerial fun x => { x with pollto := satAdd x.pollto 1 }).occur (srcSerial 6)).mp0Host 2) := by
  have hheld : s.thermal.held = false := hup
  refine (if_neg (by simp [hheld, State.mp0Polls, hcmd, hpoll])).trans ?_
  simp only [hcmd]
  exact congrArg _ (swTake_of_none (by simpa [State.mp0Host] using hsw))

end

end Sys2Proof.Machine
open Sys2Proof Sys2Proof.Machine

/-- Settles O35: what has the command boundary, in the order of R409 (`mp0Start_of_production`, `mp0Start_of_fill`, `mp0Start_of_ring`,
`mp0Start_of_host`), the ends of a fill and of the host command, and what each issue does to the lines (`mp0Issue_eq`). -/
theorem flashSequencer : Obligations.FlashSequencer := by
  unfold Obligations.FlashSequencer
  intro s a i bs hup hsw hwait hend u hostOps
  have hstart (hidle : s.serial.mp0 = none) := exec_mp0CommandStart hup hidle
  refine ⟨fun hidle hprod => ?production, fun hidle hprod hlines hsoft => ?fill, fun hcmd hlines hlen => ?filled,
    fun hidle hprod hlines hhead hbad hsoft => ?ring, fun hidle hprod hlines hhead hbusy hsoft => ?host, fun hcmd hread hlen => ?done,
    exec_mp0PollTimeout_host hup hsw, mp0Issue_eq s⟩
  case production => rw [hstart hidle, mp0Start_of_production hprod]
  case fill => rw [hstart hidle, mp0Start_of_fill hprod hlines hsoft, State.fillStart]
  case ring => exact (hstart hidle).trans (congrArg _ (mp0Start_of_ring hprod hlines hhead hbad hsoft))
  case host => exact (hstart hidle).trans (congrArg _ (mp0Start_of_host hprod hlines hhead hbusy hsoft))
  case filled =>
    have hfilled := mp0End_of_fill hcmd hlines hlen
    rw [exec_mp0CommandDone hup hcmd, hfilled]
    all_goals rw [hfilled]; assumption
  case done =>
    have hdone := mp0End_of_host_read hcmd hread hlen
    rw [exec_mp0CommandDone hup hcmd, hdone]
    all_goals rw [hdone, occur_serial]; assumption
end

section
/-! SUPPORT. Passwords of the NV store (R437, R438, R441). -/
namespace Sys2Proof.Machine

/-- Eight zero bytes are the password 0. -/
theorem allZero_iff {bs : List Byte} : allZero bs = true ↔ ∀ b ∈ bs, b = 0 := by
  simp [allZero]

theorem writeOpen_of_zero {n : Nv} {r : Fin 4} (h : ∀ b ∈ n.password r true, b = 0) : n.writeOpen r = true := by
  rw [Nv.writeOpen, allZero_iff.mpr h, Bool.or_true]

theorem readOpen_of_zero {n : Nv} {r : Fin 4} (h : ∀ b ∈ n.password r false, b = 0) : n.readOpen r = true := by
  rw [Nv.readOpen, allZero_iff.mpr h, Bool.or_true, Bool.true_or]

theorem readOpen_of_writeOpen {n : Nv} {r : Fin 4} (h : n.writeOpen r = true) : n.readOpen r = true := by
  rw [Nv.readOpen, h, Bool.or_true]

/-- The last of the eight passwords ends with the item's data. -/
theorem password_length {n : Nv} (h : (n.itemRead itemPasswords).length = 64) (r : Fin 4) (w : Bool) : (n.password r w).length = 8 := by
  have hplace : 16 * r.val + (if w then 8 else 0) ≤ 56 := by
    have := r.isLt
    split <;> omega
  rw [Nv.password, List.length_take, List.length_drop, h]
  omega

end Sys2Proof.Machine
open Sys2Proof Sys2Proof.Machine

/-- Settles O59: a password is read in its place of item 5, and the open accesses follow from `Nv.writeOpen` and `Nv.readOpen`. -/
theorem passwordsOpenRegions : Obligations.PasswordsOpenRegions := by
  unfold Obligations.PasswordsOpenRegions
  exact fun n r => ⟨fun w => ⟨rfl, fun hlen => password_length hlen r w⟩, readOpen_of_zero, writeOpen_of_zero, readOpen_of_writeOpen,
    rfl, rfl⟩
end

section
/-! SUPPORT. Write frames of an idle host port to the NV region (R402, R436–R441, R447). -/
namespace Sys2Proof.Machine

/-! ### Admission and rejection at an idle host port (R402, R403) -/

theorem regionOf_nv {a : Nat} (hlo : 0x28000 ≤ a) (hhi : a < 0x2C000) : regionOf a = some .nv := by
  have h (n : Nat) (hn : n ≤ 0x28000) : ¬ a < n := by omega
  simp [regionOf, regions, h, hlo, hhi]

section
variable {s : State} {a : Nat} {ws : List W}

/-- A frame of one region, or of a window that wraps, that its owner rejects (R402). -/
theorem writeCause_owner {r : Region} (hbufs : s.serial.bufs = []) (h4 : a % 4 = 0) (hw : ws ≠ []) (hlen : ws.length ≤ 1024)
    (hreg : regionOf a = some r) (hall : inNvPwin a = false → ∀ x ∈ wordAddrs a ws.length, regionOf x = some r)
    (hown : s.ownerRejects a ws = true) : s.writeCause a ws .whole = some 7 := by
  simp [State.writeCause, hw, h4, Nat.not_lt.mpr hlen, hreg, ahead_of_empty hbufs, hown]
  exact fun _ _ hpwin => hall hpwin

theorem toNat_wn (ha : a < 2 ^ 32) : (wn a).toNat = a := (BitVec.toNat_ofNat ..).trans (Nat.mod_eq_of_lt ha)

theorem hostTake_of_room (hroom : s.serial.bufs = []) (addr : W) (cut : Cut) :
    s.hostTake addr ws cut = s.hostJudge addr.toNat ws cut := by
  simp [State.hostTake, hroom]

/-- A frame that starts at an idle port finds the buffers empty and READY 1. -/
theorem hostBegin_takes (h : s.hostIdle) : s.hostBegin.serial.bufs = [] ∧ s.hostBegin.hostReady = true := by
  rw [hostBegin_of_idle h]
  obtain ⟨-, hready, hbufs, -⟩ := h
  exact ⟨hbufs, hready⟩

/-- A frame that its owner rejects does nothing but raise the rejection. -/
theorem hostWrite_of_ownerRejected (h : s.hostIdle) (ha : a < 2 ^ 32) (hsub : inSubmit a = false)
    (hc : s.hostBegin.writeCause a ws .whole = some 7) : s.hostWrite a ws = s.hostBegin.hostReject 7 := by
  obtain ⟨hempty, -⟩ := hostBegin_takes h
  obtain ⟨hup, -⟩ := h
  have hempty' : (s.hostBegin.hostReject 7).serial.bufs = [] := by rw [State.hostReject, occur_serial]; exact hempty
  have hjudge : s.hostBegin.hostJudge a ws .whole = s.hostBegin.hostReject 7 := by
    rw [State.hostJudge, hc]
    exact if_neg fun h => by simp [hsub] at h
  rw [State.hostWrite, if_neg (by simp [hup]), hostDrain_of_empty hempty, hostTake_of_room hempty, toNat_wn ha, hjudge,
    hostDrain_of_empty hempty']

/-- The only frame that waits is applied while no page write is busy and no power-fail has begun. -/
theorem hostDrain_of_unbusy {f : W × List W} (hbufs : s.serial.bufs = [f]) (hbusy : s.nvBusy = false) (hpf : s.thermal.pfStep = 0) :
    s.hostDrain = (s.modSerial fun x => { x with bufs := [] }).hostApply f.1.toNat f.2 := by
  rw [State.hostDrain, hbufs]
  show s.hostApplyOne = _
  simp [State.hostApplyOne, hbufs, State.hostBlocked, hbusy, hpf]

/-- READY is 1 only while no power-fail has begun (R400). -/
theorem pfStep_of_ready (hready : s.hostReady = true) : s.thermal.pfStep = 0 := eq_of_beq (Bool.and_eq_true_iff.mp hready).2

/-- A frame to a window of the NV store that nothing rejects is applied at once while no page write is busy (R436). -/
theorem hostWrite_of_unbusy (h : s.hostIdle) (hbusy : s.nvBusy = false) (ha : a < 2 ^ 32) (hw : ws ≠ [])
    (hc : s.hostBegin.writeCause a ws .whole = none) : s.hostWrite a ws = s.framed.hostApply a ws := by
  have hframed := framed_of_idle h
  obtain ⟨hempty, -⟩ := hostBegin_takes h
  obtain ⟨hup, hready, -⟩ := h
  have hempty' : s.framed.serial.bufs = [] := hempty
  have hpf : s.framed.thermal.pfStep = 0 := by rw [hframed]; exact pfStep_of_ready hready
  have hbusy' : s.framed.nvBusy = false := by rw [hframed]; exact hbusy
  have hback : ((s.framed.modSerial fun x => { x with bufs := [(wn a, ws)] }).modSerial fun x => { x with bufs := [] }) = s.framed := by
    show (s.framed.modSerial fun x => { x with bufs := [] }) = _
    rw [← hempty']
    rfl
  rw [State.hostWrite, if_neg (by simp [hup]), hostDrain_of_empty hempty, hostTake_of_room hempty, toNat_wn ha,
    hostJudge_of_none hc hw]
  show (s.framed.modSerial fun x => { x with bufs := s.framed.serial.bufs ++ [(wn a, ws)] }).hostDrain = _
  rw [hempty', List.nil_append]
  refine (hostDrain_of_unbusy (s := s.framed.modSerial fun x => { x with bufs := [(wn a, ws)] }) (f := (wn a, ws)) rfl hbusy' hpf).trans ?_
  rw [hback]
  exact congrArg (s.framed.hostApply · ws) (toNat_wn ha)

/-- What the NV region's chapter judges a frame by is not what the start of a frame changes. -/
theorem ownerRejects_hostBegin (h : s.hostIdle) (hreg : regionOf a = some .nv) :
    s.hostBegin.ownerRejects a ws = s.ownerRejects a ws := by
  rw [hostBegin_of_idle h]
  simp only [State.ownerRejects, hreg]
  rfl

/-- A frame of words of the NV region, outside its two windows, that its chapter does not reject (R447). -/
theorem hostWrite_nvWords (h : s.hostIdle) (hlo : 0x28000 ≤ a) (hhi : a + 4 * ws.length ≤ 0x28400) (h4 : a % 4 = 0)
    (hn : inNvWin a = false) (hp : inNvPwin a = false) (hw : ws ≠ [])
    (hgood : ∀ x ∈ (wordAddrs a ws.length).zip ws, s.nvWordBad a ws.length x.1 x.2 = false) :
    s.hostWrite a ws = s.framed.hostApply a ws := by
  have hpos : 0 < ws.length := List.length_pos_iff.mpr hw
  have hreg : regionOf a = some .nv := regionOf_nv hlo (by omega)
  have hall : ∀ x ∈ wordAddrs a ws.length, regionOf x = some .nv := by
    intro x hx
    obtain ⟨i, hi, rfl⟩ := List.mem_map.mp hx
    have := List.mem_range.mp hi
    exact regionOf_nv (by omega) (by omega)
  have hown : s.hostBegin.ownerRejects a ws = false := by
    rw [ownerRejects_hostBegin h hreg]
    simp only [State.ownerRejects, hreg, hn, hp, Bool.false_eq_true, if_false, List.any_eq_false, Bool.not_eq_true]
    exact hgood
  obtain ⟨hempty, hready⟩ := hostBegin_takes h
  exact hostWrite_of_admitted h (by omega) hn hp hw (writeCause_none hempty hready h4 hw (by omega) hreg (fun _ => hall) hown)

/-- A frame of one word of the NV region that its chapter rejects. -/
theorem hostWrite_nvWord_rejected {w : W} (h : s.hostIdle) (hlo : 0x28000 ≤ a) (hhi : a < 0x2C000) (h4 : a % 4 = 0)
    (hown : s.ownerRejects a [w] = true) : s.hostWrite a [w] = s.hostBegin.hostReject 7 := by
  have hreg := regionOf_nv hlo hhi
  obtain ⟨hempty, -⟩ := hostBegin_takes h
  exact hostWrite_of_ownerRejected h (by omega) (by simp [inSubmit]; omega) (writeCause_owner hempty h4 (List.cons_ne_nil _ _) (by simp)
    hreg (fun _ => by simp [wordAddrs, hreg]) ((ownerRejects_hostBegin h hreg).trans hown))

/-- A frame of one word of the NV region that its chapter does not reject, while no page write is busy. -/
theorem hostWrite_nvWord {w : W} (h : s.hostIdle) (hlo : 0x28000 ≤ a) (hhi : a < 0x2C000) (h4 : a % 4 = 0) (hbusy : s.nvBusy = false)
    (hown : s.ownerRejects a [w] = false) : s.hostWrite a [w] = s.framed.hostApply a [w] := by
  have hreg := regionOf_nv hlo hhi
  obtain ⟨hempty, hready⟩ := hostBegin_takes h
  exact hostWrite_of_unbusy h hbusy (by omega) (List.cons_ne_nil _ _) (writeCause_none hempty hready h4 (List.cons_ne_nil _ _) (by simp)
    hreg (fun _ => by simp [wordAddrs, hreg]) ((ownerRejects_hostBegin h hreg).trans hown))

end

/-! ### The passwords' registers (R438, R447) -/

section
variable {s : State}

theorem exec_nvUnlock (h : s.hostIdle) (x p0 p1 : W) :
    exec (.nvUnlock [x, p0, p1]) s = .next (s.framed.unlock [x, p0, p1]) := by
  refine congrArg Host.Outcome.next ((hostWrite_nvWords h (by decide) (by simp) rfl rfl rfl (List.cons_ne_nil _ _) ?_).trans rfl)
  simp [wordAddrs, List.range_succ, State.nvWordBad, inNvPwin]

theorem exec_nvPwset (h : s.hostIdle) (x p0 p1 : W) :
    exec (.nvPwset [x, p0, p1]) s = .next (s.framed.pwset [x, p0, p1]) := by
  refine congrArg Host.Outcome.next ((hostWrite_nvWords h (by decide) (by simp) rfl rfl rfl (List.cons_ne_nil _ _) ?_).trans rfl)
  simp [wordAddrs, List.range_succ, State.nvWordBad, inNvPwin]

theorem exec_nvLock (h : s.hostIdle) (v : W) : exec (.nvLock v) s = .next (s.framed.nvLock v) := by
  refine congrArg Host.Outcome.next ((hostWrite_nvWords h (by decide) (by simp) rfl rfl rfl (List.cons_ne_nil _ _) ?_).trans rfl)
  simp [wordAddrs, State.nvWordBad, inNvPwin]

/-- The words of NV_UNLOCK and NV_PWSET that name the write password of region `r` (R438). -/
theorem write_password_digits (r : Fin 4) : fld (wn (r.val + 16)) 1 0 % 4 = r.val ∧ bitOf (wn (r.val + 16)) 4 = true := by
  fin_cases r <;> decide

section
variable {r : Fin 4} {p0 p1 : W}

/-- A password given during a lockout is counted, whatever it is (R438; log entry 70). -/
theorem unlock_of_locked (hlock : s.nv.lockW.getLsbD r.val = true) :
    s.unlock [wn (r.val + 16), p0, p1] = s.modNv fun n => { n with pwbad := satAdd n.pwbad 1 } := by
  obtain ⟨hregion, hwrite⟩ := write_password_digits r
  simp only [State.unlock, nthW, List.getD_cons_zero, hregion, Fin.eta, hwrite, if_true, hlock]

/-- The right password opens its access (R438). -/
theorem unlock_of_right (hlock : s.nv.lockW.getLsbD r.val = false)
    (hright : wordsBytes [p0, p1] = (s.itemCheck itemPasswords).nv.password r true) :
    s.unlock [wn (r.val + 16), p0, p1] =
      ((s.itemCheck itemPasswords).modNv fun n => { n with openW := n.openW ||| 1 <<< r.val }).occur (srcAlm 11) := by
  obtain ⟨hregion, hwrite⟩ := write_password_digits r
  simp only [State.unlock, nthW, List.getD_cons_zero, List.getD_cons_succ, hregion, Fin.eta, hwrite, if_true, hlock,
    Bool.false_eq_true, if_false, hright]

/-- A wrong password is counted, locks its access out and is noted (R438). -/
theorem unlock_of_wrong (hlock : s.nv.lockW.getLsbD r.val = false)
    (hwrong : wordsBytes [p0, p1] ≠ (s.itemCheck itemPasswords).nv.password r true) :
    s.unlock [wn (r.val + 16), p0, p1] = (((s.itemCheck itemPasswords).modNv fun n =>
      { n with pwbad := satAdd n.pwbad 1, lockW := n.lockW ||| 1 <<< r.val }).occur (srcAlm 10)).note 0x006 1 suAlmanac
        [wn (r.val + 16)] := by
  obtain ⟨hregion, hwrite⟩ := write_password_digits r
  simp only [State.unlock, nthW, List.getD_cons_zero, List.getD_cons_succ, hregion, Fin.eta, hwrite, if_true, hlock,
    Bool.false_eq_true, if_false, hwrong]
  rfl

/-- A new password is written in its place of item 5 (R438, R441). -/
theorem pwset_of_open (hopen : s.nv.writeOpen r = true) : s.pwset [wn (r.val + 16), p0, p1] =
    s.modNv fun n => n.itemWrite itemPasswords (16 * r.val + 8) (wordsBytes [p0, p1]) .item := by
  obtain ⟨hregion, hwrite⟩ := write_password_digits r
  simp only [State.pwset, nthW, List.getD_cons_zero, List.getD_cons_succ, hregion, Fin.eta, hwrite, if_true, hopen]

end

/-- A write of ones to NV_LOCK closes every access that a password has opened (R447). -/
theorem nvLock_all (s : State) : s.nvLock 0xFF =
    if s.nv.openR ≠ 0 ∨ s.nv.openW ≠ 0 then (s.modNv fun n => { n with openR := 0, openW := 0 }).occur (srcAlm 12)
    else s.modNv fun n => { n with openR := 0, openW := 0 } := by
  have hread : BitVec.ofNat 4 (bitsOf (fun r => bitOf 0xFF (2 * r)) 4) = BitVec.allOnes 4 := by decide
  have hwrite : BitVec.ofNat 4 (bitsOf (fun r => bitOf 0xFF (2 * r + 1)) 4) = BitVec.allOnes 4 := by decide
  simp only [State.nvLock, hread, hwrite, BitVec.and_allOnes, BitVec.not_allOnes, BitVec.and_zero, Bool.or_eq_true, bne_iff_ne]
  rfl

/-! ### The keys' item (R441, R447) -/

/-- The chapter rejects a word to the item while its region is closed for writing. -/
theorem nvWordBad_security (n : Nat) (w : W) : s.nvWordBad 0x28300 n 0x28300 w = !s.nv.writeOpen 3 := by
  simp [State.nvWordBad, inNvPwin]

theorem exec_nvSecWrite_open (h : s.hostIdle) (hopen : s.nv.writeOpen 3 = true) (w : W) :
    exec (.nvSecWrite 0 [w]) s = .next (s.framed.secPut 0 w) := by
  show Host.Outcome.next (s.hostWrite 0x28300 [w]) = _
  refine congrArg Host.Outcome.next ((hostWrite_nvWords h (by decide) (by simp) rfl rfl rfl (List.cons_ne_nil _ _) ?_).trans rfl)
  simp [wordAddrs, nvWordBad_security, hopen]

theorem exec_nvSecWrite_closed (h : s.hostIdle) (hclosed : s.nv.writeOpen 3 = false) (w : W) :
    exec (.nvSecWrite 0 [w]) s = .next (s.hostBegin.hostReject 7) := by
  refine congrArg Host.Outcome.next (hostWrite_nvWord_rejected h (a := 0x28300) (by decide) (by decide) rfl ?_)
  show ((wordAddrs 0x28300 1).zip [w]).any (fun x => s.nvWordBad 0x28300 1 x.1 x.2) = true
  simp [wordAddrs, nvWordBad_security, hclosed]

end

/-! ### The windows of the host pages (R436, R440) -/

theorem hostInsert_length (l : List NvWrite) (w : NvWrite) : (hostInsert l w).length = l.length + 1 := by
  simp [hostInsert]
  omega

/-- A write of an item is at least one page write, after those that wait. -/
theorem itemWrite_writes (n : Nv) (t : NvItem) (off : Nat) (bs : List Byte) (src : NvSrc) :
    ∃ w l, (n.itemWrite t off bs src).writes = n.writes ++ w :: l := by
  unfold Nv.itemWrite
  extract_lets cur base gen d hd pad all
  have hall : all.isEmpty = false := by simp [all, wordsBytes, wordBytes]
  have hpages : pageWrites src (all.length / 256 + 2) base all ≠ [] := by
    rw [pageWrites, hall, if_neg Bool.false_ne_true]
    exact List.cons_ne_nil _ _
  obtain ⟨w, l, h⟩ := List.exists_cons_of_ne_nil hpages
  exact ⟨w, l, congrArg (n.writes ++ ·) h⟩

section
variable {s : State}

/-- Outside twin operation a page write of the host's joins the queue (R336, R436). -/
theorem hostPage_of_alone (hmirrors : s.mirrors = false) (q off : Nat) (bs : List Byte) (src : NvSrc) (skip : Nat × Nat) :
    s.hostPage q off bs src skip = s.nvQueue { page := 1024 + q, off := off, bytes := bs, src := src, skip := skip } := by
  simp [State.hostPage, hmirrors]

/-- `t` is `s` with `k` more page writes in the queue. -/
def QueuesMore (s : State) (k : Nat) (t : State) : Prop :=
  t = { s with nv := { s.nv with writes := t.nv.writes } } ∧ t.nv.writes.length = s.nv.writes.length + k

theorem hostPages_queue {l : List NvWrite} (hmirrors : s.mirrors = false) :
    QueuesMore s l.length (forEach l (fun w s => s.hostPage (w.page - 1024) w.off w.bytes .prot) s) := by
  induction l generalizing s with
  | nil => exact ⟨rfl, rfl⟩
  | cons w r ih =>
    rw [forEach_cons, hostPage_of_alone hmirrors]
    generalize hx : ({ page := 1024 + (w.page - 1024), off := w.off, bytes := w.bytes, src := .prot, skip := (0, 0) } : NvWrite) = x
    obtain ⟨hframe, hlen⟩ := ih (s := s.nvQueue x) hmirrors
    refine ⟨hframe, hlen.trans ?_⟩
    show (hostInsert s.nv.writes x).length + r.length = _
    rw [hostInsert_length, List.length_cons]
    omega

/-- A frame to NV_PWIN queues the page writes of its item (R440). -/
theorem pwinPut_queues (hmirrors : s.mirrors = false) (off : Nat) (ws : List W) : ∃ k, QueuesMore s (k + 1) (s.pwinPut off ws) := by
  unfold State.pwinPut
  extract_lets t d after
  obtain ⟨w, l, hafter⟩ : ∃ w l, after.writes = s.nv.writes ++ w :: l := itemWrite_writes ..
  rw [hafter, List.drop_left]
  exact ⟨l.length, hostPages_queue hmirrors⟩

theorem inNvWin_at (off : BitVec 8) : inNvWin (0x28000 + off.toNat) = true := by
  have := off.isLt
  simp [inNvWin]
  omega

theorem inNvPwin_at {o : Nat} (ho : o < 240) : inNvPwin (0x28200 + o) = true ∧ inNvWin (0x28200 + o) = false := by
  simp [inNvPwin, inNvWin]
  omega

/-- Whether the chapter rejects a word to a window: the region of its page is closed for writing, or the page is no host page. -/
theorem ownerRejects_win (off : BitVec 8) (ws : List W) : s.ownerRejects (0x28000 + off.toNat) ws =
    (!s.nv.writeOpen (pageRegion s.nv.page.toNat) || decide (640 ≤ s.nv.page.toNat) || s.thermal.pfStep != 0) := by
  have := off.isLt
  simp [State.ownerRejects, regionOf_nv (a := 0x28000 + off.toNat) (by omega) (by omega), inNvWin_at]

theorem ownerRejects_pwin {o : Nat} (ho : o < 240) (ws : List W) : s.ownerRejects (0x28200 + o) ws = !s.nv.writeOpen 2 := by
  obtain ⟨hin, hout⟩ := inNvPwin_at ho
  simp [State.ownerRejects, regionOf_nv (a := 0x28200 + o) (by omega) (by omega), hin, hout]

/-- A word in the page is one page write of its four bytes (R436). -/
theorem winPut_word {off : BitVec 8} (h4 : off.toNat % 4 = 0) (hmirrors : s.mirrors = false) (w : W) : s.winPut off.toNat [w] =
    s.nvQueue { page := 1024 + s.nv.page.toNat, off := off.toNat, bytes := wordBytes w, src := .host } := by
  have hoff := off.isLt
  rw [State.winPut, if_pos (by simp; omega), hostPage_of_alone hmirrors]
  simp [wordsBytes]

section
variable {off : BitVec 8} (h : s.hostIdle) (h4 : off.toNat % 4 = 0)
include h h4

theorem exec_nvWinWrite_closed (hclosed : s.nv.writeOpen (pageRegion s.nv.page.toNat) = false) (w : W) :
    exec (.nvWinWrite off [w]) s = .next (s.hostBegin.hostReject 7) := by
  have hoff := off.isLt
  refine congrArg Host.Outcome.next (hostWrite_nvWord_rejected h (by omega) (by omega) (by omega) ?_)
  rw [ownerRejects_win, hclosed]
  rfl

theorem exec_nvWinWrite_open (hpage : s.nv.page.toNat < 640) (hbusy : s.nvBusy = false) (hmirrors : s.mirrors = false)
    (hopen : s.nv.writeOpen (pageRegion s.nv.page.toNat) = true) (w : W) : exec (.nvWinWrite off [w]) s =
      .next (s.framed.nvQueue { page := 1024 + s.nv.page.toNat, off := off.toNat, bytes := wordBytes w, src := .host }) := by
  have hoff := off.isLt
  have hframed := framed_of_idle h
  have hmirrors' : s.framed.mirrors = false := by rw [hframed]; exact hmirrors
  have hnv : s.framed.nv = s.nv := by rw [hframed]; rfl
  have hpf : s.thermal.pfStep = 0 := by
    obtain ⟨-, hready, -⟩ := h
    exact pfStep_of_ready hready
  have hown : s.ownerRejects (0x28000 + off.toNat) [w] = false := by
    rw [ownerRejects_win]
    simp [hopen, hpf, Nat.not_le.mpr hpage]
  have happly : s.framed.hostApply (0x28000 + off.toNat) [w] = s.framed.winPut off.toNat [w] := by
    have hsub : inSubmit (0x28000 + off.toNat) = false := by simp [inSubmit]; omega
    rw [State.hostApply, hsub, inNvWin_at, if_neg Bool.false_ne_true, if_pos rfl, Nat.add_sub_cancel_left]
  refine congrArg Host.Outcome.next ((hostWrite_nvWord h (by omega) (by omega) (by omega) hbusy hown).trans ?_)
  rw [happly, winPut_word h4 hmirrors', hnv]

end

theorem exec_nvPwinWrite_closed (h : s.hostIdle) {off : BitVec 8} (h4 : off.toNat % 4 = 0) (hoff : off.toNat < 240)
    (hclosed : s.nv.writeOpen 2 = false) (w : W) : exec (.nvPwinWrite off [w]) s = .next (s.hostBegin.hostReject 7) := by
  show Host.Outcome.next (s.hostWrite (0x28200 + off.toNat % 240) [w]) = _
  rw [Nat.mod_eq_of_lt hoff]
  refine congrArg Host.Outcome.next (hostWrite_nvWord_rejected h (by omega) (by omega) (by omega) ?_)
  rw [ownerRejects_pwin hoff, hclosed]
  rfl

theorem exec_nvPwinWrite_open (h : s.hostIdle) (hopen : s.nv.writeOpen 2 = true) (hbusy : s.nvBusy = false) (w : W) :
    exec (.nvPwinWrite 0 [w]) s = .next (s.framed.pwinPut 0 [w]) := by
  refine congrArg Host.Outcome.next ((hostWrite_nvWord h (a := 0x28200) (by decide) (by decide) rfl hbusy ?_).trans rfl)
  exact (ownerRejects_pwin (o := 0) (by decide) [w]).trans (by rw [hopen]; rfl)

end

end Sys2Proof.Machine
open Sys2Proof Sys2Proof.Machine

/-- Settles O30: the frames that are applied (`hostWrite_nvWords`, `hostWrite_nvWord`) or rejected (`hostWrite_nvWord_rejected`), and what
each does to the passwords (`unlock_of_right`, `unlock_of_wrong`, `nvLock_all`) and to the queue of page writes. -/
theorem nvHostAccess : Obligations.NvHostAccess := by
  unfold Obligations.NvHostAccess
  intro s r p0 p1 off w h u v m
  have hnv : u.nv = s.nv := by rw [show u = _ from framed_of_idle h]; rfl
  refine ⟨fun hlock hright => ?right, fun hlock => ?locked, fun hlock hwrong => ?wrong, rfl, rfl, ?lock, fun hopen => ?pwset,
    fun hopen => exec_nvSecWrite_open h hopen w, fun hclosed => exec_nvSecWrite_closed h hclosed w,
    fun h4 hpage hbusy _ hmirrors => ⟨fun hopen => exec_nvWinWrite_open h h4 hpage hbusy hmirrors hopen w,
      fun hclosed => exec_nvWinWrite_closed h h4 hclosed w⟩,
    fun h4 hoff hclosed => exec_nvPwinWrite_closed h h4 hoff hclosed w, fun hopen hbusy hmirrors _ => ?pwin⟩
  case right => rw [exec_nvUnlock h, unlock_of_right (hnv ▸ hlock) hright]
  case locked => rw [exec_nvUnlock h, unlock_of_locked (hnv ▸ hlock)]
  case wrong => rw [exec_nvUnlock h, unlock_of_wrong (hnv ▸ hlock) hwrong]
  case lock =>
    rintro t rfl
    rw [exec_nvLock h, nvLock_all, show s.framed.nv = s.nv from hnv]
  case pwset => rw [exec_nvPwset h, pwset_of_open (hnv ▸ hopen)]
  case pwin =>
    have hmirrors' : u.mirrors = false := by rw [show u = _ from framed_of_idle h]; exact hmirrors
    obtain ⟨k, hframe, hlen⟩ := pwinPut_queues hmirrors' 0 [w]
    refine ⟨_, exec_nvPwinWrite_open h hopen hbusy w, ?_, ?_, ?_⟩
    · exact hframe.trans (congrArg (fun n => { u with nv := n }) (congrArg State.nv hframe).symm)
    · exact (congrArg State.nv hframe).trans (by rw [hnv])
    · rw [hlen, hnv]
      omega
end

section
/-! SUPPORT. The almanac's buffer, the page writes and the counter record as they go on (R422–R428, R435, R443). -/
namespace Sys2Proof.Machine

/-! ### Occurrences and the link leave the NV store -/

@[simp] theorem occur_nv (s : State) (n : Nat) : (s.occur n).nv = s.nv := by rw [occur_frame]

@[simp] theorem occur_thermal (s : State) (n : Nat) : (s.occur n).thermal = s.thermal := by rw [occur_frame]

@[simp] theorem linkPut_nv (s : State) (f : LinkFrame) : (s.linkPut f).nv = s.nv := by
  unfold State.linkPut
  dsimp only
  split <;> simp

@[simp] theorem linkPump_nv (n : Nat) (s : State) : (State.linkPump n s).nv = s.nv := by
  induction n generalizing s with
  | zero => rfl
  | succ n ih =>
    unfold State.linkPump
    split
    · split
      · rw [ih, linkPut_nv, modTwin_nv]
      · rfl
    · rfl

@[simp] theorem linkSend_nv (s : State) (ty : Byte) (cls : Nat) (p : Port) (ws : List W) : (s.linkSend ty cls p ws).nv = s.nv := by
  unfold State.linkSend State.linkSendAll
  dsimp only
  split <;> simp

@[simp] theorem sendRecord_nv (s : State) (r : Rec) : (s.sendRecord r).nv = s.nv := by
  unfold State.sendRecord
  split <;> simp

/-! ### A record reaches the buffer (R426–R428) -/

/-- Taking a record out of the queue changes nothing of the NV store but the queue. -/
theorem queueTake_nv (s : State) : s.queueTake.nv = { s.nv with queue := s.queueTake.nv.queue } := by
  unfold State.queueTake State.queueStamp
  extract_lets q' t stamp q
  rw [forEach_eq_of_step State.nv fun _ _ => sendRecord_nv ..]
  rfl

theorem wordsBytes_length (ws : List W) : (wordsBytes ws).length = 4 * ws.length := by
  induction ws with
  | nil => rfl
  | cons w r ih =>
    show (wordBytes w ++ wordsBytes r).length = _
    rw [List.length_append, ih, List.length_cons, wordBytes]
    simp
    omega

/-- A record takes its size, padding included (R422). -/
theorem recBytes_length (r : Rec) : (recBytes r).length = recSize r := by
  simp only [recBytes, List.length_append, List.length_replicate, wordsBytes_length, List.length_cons, List.length_nil, recSize]
  omega

section
variable {s : State} {r : Rec}

/-- The record at the end of the buffer. -/
def Nv.enter (n : Nv) (r : Rec) : Nv := { n with last := some (n.almEnd, r), dirty := n.dirty ++ recBytes r }

/-- A record that follows none and is within the limits is added, and raises source 0 alone where it is no service event (R427, R428, R448). -/
theorem recPlace_adds (hlast : s.nv.last = none) (hmark : s.nv.lostMark = false) (hend : s.nv.almEnd + recSize r ≤ 262144)
    (hroom : s.nv.dirty.length + recSize r ≤ 56 * 1024) (hcode : fld r.w0 11 0 < 0x100) :
    s.recPlace r = (s.modNv (·.enter r)).occur (srcAlm 0) := by
  have hroom' : ¬ (if bitOf r.w1 17 && !bitOf r.w1 16 then 59 * 1024 else 56 * 1024) < s.nv.dirty.length + recSize r := by
    split <;> omega
  have hcode' : ¬ (0x100 ≤ fld r.w0 11 0 ∧ fld r.w0 11 0 ≤ 0x106) := by omega
  simp only [State.recPlace, hlast, hmark, Nat.not_lt.mpr hend, hroom', hcode', Bool.false_eq_true, or_self, if_false]
  rfl

/-- A record of low severity that leaves the dirty part below 8 KiB starts no flush (R429). -/
theorem recEnter_adds (hlast : s.nv.last = none) (hmark : s.nv.lostMark = false) (hend : s.nv.almEnd + recSize r ≤ 262144)
    (hroom : s.nv.dirty.length + recSize r ≤ 8191) (hsev : fld r.w0 15 12 < 3) (hcode : fld r.w0 11 0 < 0x100) :
    s.recEnter r = (s.modNv (·.enter r)).occur (srcAlm 0) := by
  have hadds := recPlace_adds hlast hmark hend (by omega) hcode
  have hdirty : ((s.modNv (·.enter r)).occur (srcAlm 0)).nv.dirty.length = s.nv.dirty.length + recSize r := by
    rw [occur_nv, modNv_nv, Nv.enter, List.length_append, recBytes_length]
  have hflush : s.recFlushes ((s.modNv (·.enter r)).occur (srcAlm 0)) r = false := by
    have hsev' : ¬ 3 ≤ fld r.w0 15 12 := by omega
    have hsmall : ¬ 8192 ≤ s.nv.dirty.length + recSize r := by omega
    simp only [State.recFlushes, hdirty, hsev', hsmall, decide_false, Bool.or_self, Bool.and_false]
  rw [State.recEnter, hadds]
  simp only [hflush, Bool.false_eq_true, if_false]

theorem exec_almanacRecordEnter_unasked (hup : s.up) {q : List (Rec × Option Req)} (hqueue : s.nv.queue = (r, none) :: q)
    (hown : bitOf r.w1 16 = false) : exec .almanacRecordEnter s = .next (s.queueTake.recEnter r) := by
  have hheld : s.thermal.held = false := hup
  show execAlmanacRecordEnter s = _
  simp only [execAlmanacRecordEnter, hqueue, hheld, hown, Bool.false_eq_true, if_false]

end

/-! ### A page write lands (R435) -/

/-- The byte that a page write has for a byte address. -/
def NvWrite.byteAt (w : NvWrite) (a : Nat) : Byte := w.bytes.getD (a - w.base) 0

/-- Bytes written one by one at a list's places. -/
theorem foldl_write_get (f : Nat → Byte) (p : Nat → Nat) (l : List Nat) {m : Mem} (hm : m.wf = true) (a : Nat) :
    Mem.get (l.foldl (fun m i => Mem.write m (p i) [f (p i)]) m) a = if a ∈ l.map p then f a else Mem.get m a := by
  induction l generalizing m with
  | nil => simp
  | cons i r ih =>
    rw [List.foldl_cons, ih (Mem.write_wf _ _ hm), List.map_cons]
    by_cases hr : a ∈ r.map p
    · rw [if_pos hr, if_pos (List.mem_cons_of_mem _ hr)]
    · rw [if_neg hr]
      by_cases hi : a = p i
      · subst hi
        rw [if_pos List.mem_cons_self]
        exact Mem.get_set _ _ hm
      · rw [if_neg (by simp only [List.mem_cons, hi, hr, or_self, not_false_eq_true])]
        exact Mem.get_set_ne _ hm hi

namespace NvWrite
variable {w : NvWrite} {m : Mem}

/-- One group of a page write changes the bytes of the group that the write covers. -/
theorem putGroup_get (hm : m.wf = true) (g a : Nat) :
    Mem.get (w.putGroup m g) a = if a / 8 = g ∧ w.covers a = true then w.byteAt a else Mem.get m a := by
  have hplaces : a ∈ ((List.range 8).filter fun i => w.covers (8 * g + i)).map (8 * g + ·) ↔ a / 8 = g ∧ w.covers a = true := by
    simp only [List.mem_map, List.mem_filter, List.mem_range]
    constructor
    · rintro ⟨i, ⟨hi, hcovers⟩, rfl⟩
      exact ⟨by omega, hcovers⟩
    · rintro ⟨rfl, hcovers⟩
      have ha : 8 * (a / 8) + a % 8 = a := Nat.div_add_mod a 8
      exact ⟨a % 8, ⟨Nat.mod_lt _ (by decide), ha.symm ▸ hcovers⟩, ha⟩
  simp only [← hplaces]
  exact foldl_write_get w.byteAt (8 * g + ·) _ hm a

theorem putGroups_get (l : List Nat) (hm : m.wf = true) (a : Nat) :
    Mem.get (l.foldl w.putGroup m) a = if a / 8 ∈ l ∧ w.covers a = true then w.byteAt a else Mem.get m a := by
  induction l generalizing m with
  | nil => simp
  | cons g r ih =>
    rw [List.foldl_cons, ih (putGroup_wf hm), putGroup_get hm]
    by_cases hcovers : w.covers a = true
    · by_cases hr : a / 8 ∈ r <;> simp [hcovers, hr]
    · simp [hcovers]

/-- Every byte that a page write within its page covers lies in one of its groups. -/
theorem mem_groups_of_covers (hin : w.off + w.bytes.length ≤ 256) {a : Nat} (hcovers : w.covers a = true) : a / 8 ∈ w.groups := by
  have hspan : w.base ≤ a ∧ a < w.base + w.bytes.length := by
    simp only [NvWrite.covers, Bool.and_eq_true, decide_eq_true_eq] at hcovers
    exact hcovers.1
  have ha : 8 * (a / 8) + a % 8 = a := Nat.div_add_mod a 8
  simp only [NvWrite.base] at hspan
  refine List.mem_filter.mpr ⟨List.mem_map.mpr ⟨a / 8 - 32 * w.page, List.mem_range.mpr (by omega), by omega⟩, ?_⟩
  exact List.any_eq_true.mpr ⟨a % 8, List.mem_range.mpr (Nat.mod_lt _ (by decide)), ha.symm ▸ hcovers⟩

/-- A page write within its page changes the bytes that it covers, and no other. -/
theorem applied_get (hm : m.wf = true) (hin : w.off + w.bytes.length ≤ 256) (a : Nat) :
    Mem.get (applyNvWrite m w) a = if w.covers a = true then w.byteAt a else Mem.get m a := by
  unfold applyNvWrite
  split
  next hskip =>
    rw [putGroups_get _ hm]
    by_cases hcovers : w.covers a = true
    · simp [hcovers, mem_groups_of_covers hin hcovers]
    · simp [hcovers]
  next hskip =>
    have hcovers : w.covers a = true ↔ w.base ≤ a ∧ a < w.base + w.bytes.length := by
      have hleaves : w.leaves a = false := by
        simp [NvWrite.leaves]
        omega
      simp [NvWrite.covers, hleaves]
    by_cases hspan : w.base ≤ a ∧ a < w.base + w.bytes.length
    · have hi : a - w.base < w.bytes.length := by omega
      have hread := Mem.get_write_in (a := w.base) w.bytes hm hi
      rw [Nat.add_sub_cancel' hspan.1] at hread
      rw [if_pos (hcovers.mpr hspan), hread, NvWrite.byteAt, List.getD_eq_getElem _ _ hi]
    · rw [if_neg (mt hcovers.mp hspan), Mem.get_write_out _ hm (by omega)]

end NvWrite

section
variable {s : State}

/-- The NV store once its page write at the front, `w` before `l`, is done. -/
def Nv.landed (n : Nv) (w : NvWrite) (l : List NvWrite) : Nv :=
  { n with mem := applyNvWrite n.mem w, bad := n.bad.filter fun g => !w.whole g, soft := n.soft.filter fun g => !w.touches g, writes := l }

theorem exec_nvPageWriteDone_host {w : NvWrite} {l : List NvWrite} (hwrites : s.nv.writes = w :: l) (hsrc : w.src = .host)
    (hpf : s.thermal.pfStep = 0) : exec .nvPageWriteDone s = .next ((s.modNv (·.landed w l)).occur (srcAlm 7)) := by
  have hdone : s.pageWriteDone = (s.modNv (·.landed w l)).occur (srcAlm 7) := by
    simp only [State.pageWriteDone, hwrites, hsrc, State.pageDone]
    rfl
  show execNvPageWriteDone s = _
  simp only [execNvPageWriteDone, hdone]
  rw [if_neg (by simp [hpf])]

/-! ### The counters (R443) -/

theorem exec_optimeTick_running (hup : s.up) (hstep : s.boot.step = 3) :
    exec .optimeTick s = .next (s.modNv fun n => { n with optime := (n.optime + 1) % 2 ^ 40 }) := by
  have hheld : s.thermal.held = false := hup
  exact if_neg (by simp [hheld, hstep])

/-- The counter record does not tell when it was last saved on the hour, so that the order of the two does not matter. -/
theorem exec_counterSave_due (hup : s.up) (hdue : s.nv.savedTicks / 57600 < s.nv.optime / 57600) : exec .counterSave s =
    .next (s.modNv fun n => { n.itemWrite itemCounters 0 (wordsBytes s.counterWords) .item with savedTicks := n.optime }) := by
  have hheld : s.thermal.held = false := hup
  exact if_neg (by simp [hheld]; omega)

end

end Sys2Proof.Machine
open Sys2Proof Sys2Proof.Machine

/-- Settles O34: a record is added (`recEnter_adds`), a page write lands byte by byte (`NvWrite.applied_get`), and the counters' own steps. -/
theorem almanacAndNvSteps : Obligations.AlmanacAndNvSteps := by
  unfold Obligations.AlmanacAndNvSteps
  intro s r q w l hup hmems
  obtain ⟨-, hmem, -⟩ := hmems
  refine ⟨fun hqueue hlast hmark hend hroom hsev hcode hown => ?record, fun hwrites hsrc hpf hin => ?page, exec_optimeTick_running hup,
    exec_counterSave_due hup⟩
  case record =>
    have hnv := queueTake_nv s
    rw [exec_almanacRecordEnter_unasked hup hqueue hown, recEnter_adds (by rw [hnv]; exact hlast) (by rw [hnv]; exact hmark)
      (by rw [hnv]; exact hend) (by rw [hnv]; exact hroom) hsev hcode]
    rfl
  case page =>
    exact ⟨s.modNv (·.landed w l), exec_nvPageWriteDone_host hwrites hsrc hpf, rfl, NvWrite.applied_get hmem hin⟩
end

section
/-! SUPPORT. The reference and the PLLs, the clocks of ports and clusters, and the islands' fences (R450–R470). -/
namespace Sys2Proof.Machine
variable {s : State}

/-! ### The lock bits (R469) -/

@[simp] theorem Clocks.setLock_locked (c : Clocks) (k : Fin 4) (b : Bool) : (c.setLock k b).locked k = b := by
  fin_cases k <;> rfl

theorem Clocks.setLock_locked_ne (c : Clocks) {k j : Fin 4} (h : j ≠ k) (b : Bool) : (c.setLock k b).locked j = c.locked j := by
  revert h
  fin_cases k <;> fin_cases j <;> simp [Clocks.setLock, Clocks.locked]

@[simp] theorem Clocks.setLock_lost (c : Clocks) (k : Fin 4) (b : Bool) : (c.setLock k b).lost = c.lost := by
  fin_cases k <;> rfl

/-- The PLL `k` has lock: it is locked and no longer counts as one that lost it. -/
def Clocks.lockGained (k : Fin 4) (c : Clocks) : Clocks := { c.setLock k true with lost := c.lost &&& ~~~(1 <<< k.val : BitVec 4) }

/-- The PLL `k` has lost its lock. -/
def Clocks.lockLost (k : Fin 4) (c : Clocks) : Clocks := { c.setLock k false with lost := c.lost ||| (1 <<< k.val : BitVec 4) }

/-! ### The commands -/

theorem exec_pllLocked_running {k : Fin 4} (hrun : s.pllRuns k = true) (hlock : s.clocks.locked k = false)
    (href : k = 3 ∨ s.clocks.refOk = true) :
    let t := s.modClocks (.lockGained k)
    exec (.pllLocked k) s = .next (if s.clocks.lost.getLsbD k.val then t.occur (srcClock (pllSource k)) else t) := by
  have href' : (k != 3 && !s.clocks.refOk) = false := by rcases href with rfl | h <;> simp [*]
  exact if_neg (by simp [hrun, hlock, href'])

theorem exec_pllLockLost_locked {k : Fin 4} (hlock : s.clocks.locked k = true) :
    exec (.pllLockLost k) s = .next ((s.modClocks (.lockLost k)).occur (srcClock (pllSource k))) := if_pos hlock

theorem exec_portClockSwitch_other {p : Port} {b : Bool} (hup : s.up) (hb : (s.port p).backupClock ≠ b) : exec (.portClockSwitch p b) s =
    .next ((s.modPort p fun x => { x with backupClock := b }).occur (srcClock (27 + 2 * p.val))) := by
  have hheld : s.thermal.held = false := hup
  exact if_neg (by simp [hheld, hb])

theorem exec_dcoRestart_stopped {c : Fin 12} (hup : s.up) (hstop : (s.cluster c).stopped = true) :
    exec (.dcoRestart c) s = .next ((s.dcoSet c).modCluster c fun x => { x with stopped := false }) := by
  have hheld : s.thermal.held = false := hup
  exact if_neg (by simp [hheld, hstop])

theorem fenceDrop_of_released {i : Nat} (hfence : s.clocks.fenced.getLsbD i = true) (hout : s.clocks.inReset.getLsbD i = false) :
    s.fenceDrop i = (s.modClocks fun c => { c with fenced := c.fenced &&& ~~~(1 <<< i : BitVec 23) }).occur (srcClock (2 * i)) :=
  if_pos (by simp [hfence, hout])

theorem exec_islandResetRelease_beyond_clusters {i : Fin 23} (hup : s.up) (hi : 12 ≤ i.val) :
    exec (.islandResetRelease i) s = .next (s.fenceDrop i.val) := by
  have hheld : s.thermal.held = false := hup
  exact (if_neg (by simp [hheld])).trans (if_neg (by omega))

theorem exec_islandClockOutOfRange_up (hup : s.up) (fabric : Bool) :
    exec (.islandClockOutOfRange fabric) s = .next (s.occur (srcClock (if fabric then 45 else 25))) := by
  have hheld : s.thermal.held = false := hup
  exact if_neg (by simp [hheld])

end Sys2Proof.Machine
open Sys2Proof Sys2Proof.Machine

/-- Settles O32: each command where it acts, and what a PLL's gain (`Clocks.lockGained`) and loss (`Clocks.lockLost`) of lock leave. -/
theorem clocksAndResets : Obligations.ClocksAndResets := by
  unfold Obligations.ClocksAndResets
  intro s k p b c i
  refine ⟨fun h => if_pos h, fun h => if_neg (by simp [h]), fun hrun hlock href => ?gain, fun hlock => ?loss,
    exec_portClockSwitch_other, exec_dcoRestart_stopped, fun hup hi hfence hout => ?fence, fun hup => ?range⟩
  case gain =>
    exact ⟨_, exec_pllLocked_running hrun hlock href, rfl, Clocks.setLock_locked _ _ _, rfl, fun j hj => Clocks.setLock_locked_ne _ hj _⟩
  case loss => exact ⟨_, exec_pllLockLost_locked hlock, rfl, Clocks.setLock_locked _ _ _, rfl⟩
  case fence => rw [exec_islandResetRelease_beyond_clusters hup hi, fenceDrop_of_released hfence hout]
  case range => exact ⟨exec_islandClockOutOfRange_up hup true, exec_islandClockOutOfRange_up hup false⟩
end

section
/-! SUPPORT. The units of the machine in reset (R11, R486): every element of a table is the zero of its kind. -/
namespace Sys2Proof.Machine

@[simp] theorem reset_port (p : Port) : State.reset.port p = PortS.zero := Vector.getElem_replicate p.isLt
@[simp] theorem reset_eng (e : Eng) : State.reset.eng e = Engine.zero := Vector.getElem_replicate e.isLt
@[simp] theorem reset_pend (g : Fin 48) : State.reset.events.pend.get g = 0 := Vector.getElem_replicate g.isLt

end Sys2Proof.Machine
open Sys2Proof Sys2Proof.Machine

/-- Settles O2: the memories by `State.reset_memsOk`, the units by what each table holds in reset, the words by their values. -/
theorem resetState : Obligations.ResetState := by
  unfold Obligations.ResetState
  refine ⟨rfl, State.reset_memsOk, rfl, rfl, rfl, rfl, fun p => ?_, rfl, rfl, rfl, rfl, rfl, fun e => ?_, reset_pend⟩
  · rw [reset_port]
    exact ⟨rfl, rfl⟩
  · rw [reset_eng]
    rfl
end

section
/-! SUPPORT. The queue of commands (log entry 1): what a step takes from it, and the branches, folds and outcomes through which it stays
as it is. The updates of one unit leave it by `modEng_pending` and its like. -/
namespace Sys2Proof.Machine
variable {s : State}

/-! ### Branches -/

@[simp] theorem pending_ite {c : Prop} [Decidable c] (a b : State) :
    (if c then a else b).pending = if c then a.pending else b.pending := apply_ite ..

@[simp] theorem pending_dite {c : Prop} [Decidable c] (a : c → State) (b : ¬ c → State) :
    (if h : c then a h else b h).pending = if h : c then (a h).pending else (b h).pending := apply_dite ..

/-! The branches of a read, which answers values and the state. -/

@[simp] theorem pending_ite_snd {α : Type} {c : Prop} [Decidable c] (a b : α × State) :
    (if c then a else b).2.pending = if c then a.2.pending else b.2.pending := apply_ite (fun x : α × State => x.2.pending) ..

@[simp] theorem pending_ite_snd_snd {α β : Type} {c : Prop} [Decidable c] (a b : α × β × State) :
    (if c then a else b).2.2.pending = if c then a.2.2.pending else b.2.2.pending :=
  apply_ite (fun x : α × β × State => x.2.2.pending) ..

/-! ### Folds -/

@[simp] theorem forEach_pending {α : Type} {l : List α} {f : α → State → State} (h : ∀ x t, (f x t).pending = t.pending) :
    (forEach l f s).pending = s.pending := by
  induction l generalizing s with
  | nil => rfl
  | cons x l ih => exact ih.trans (h x s)

@[simp] theorem foldl_pending {α : Type} {l : List α} {f : State → α → State} (h : ∀ t x, (f t x).pending = t.pending) :
    (l.foldl f s).pending = s.pending := forEach_pending fun x t => h t x

/-- A fold that carries the state as the last component of what it gathers. -/
theorem foldl_snd_snd_pending {α β γ : Type} {l : List α} {f : β × γ × State → α → β × γ × State} {a : β × γ × State}
    (h : ∀ a x, (f a x).2.2.pending = a.2.2.pending) : (l.foldl f a).2.2.pending = a.2.2.pending := by
  induction l generalizing a with
  | nil => rfl
  | cons x l ih => exact ih.trans (h a x)

/-! ### Outcomes -/

/-- The command completes, and the queue `q` waits in the state that it answers. -/
def Out.leaves (q : List Instr) : Out → Prop
  | .next t => t.pending = q
  | _ => False

@[simp] theorem leaves_next {q : List Instr} {t : State} : Out.leaves q (.next t) ↔ t.pending = q := Iff.rfl

@[simp] theorem leaves_ite {q : List Instr} {c : Prop} [Decidable c] (x y : Out) :
    Out.leaves q (if c then x else y) ↔ if c then Out.leaves q x else Out.leaves q y := by split <;> rfl

theorem Out.leaves.exists_next {q : List Instr} {x : Out} (h : Out.leaves q x) : ∃ t, x = .next t ∧ t.pending = q := by
  cases x with
  | next t => exact ⟨t, rfl, h⟩
  | fault r => exact h.elim
  | refused r => exact h.elim

/-! ### A step -/

theorem step_of_pending {c : Instr} {q : List Instr} (h : s.pending = c :: q) : step s = exec c { s with pending := q } := by
  rw [step, h]

theorem step_of_idle (h : s.pending = []) : step s = .next s := by rw [step, h]

end Sys2Proof.Machine
open Sys2Proof Sys2Proof.Machine

/-- Settles O1: `step` on a queue with a front command (`step_of_pending`) and on an empty one (`step_of_idle`). -/
theorem stepRunsTheFrontCommand : Obligations.StepRunsTheFrontCommand := by
  unfold Obligations.StepRunsTheFrontCommand
  exact fun s c q => ⟨step_of_pending (s := { s with pending := c :: q }) rfl, step_of_idle (s := { s with pending := [] }) rfl⟩
end

section
/-! SUPPORT. The operations that commands share leave the queue of commands as it is, each lemma after its definition: events, the link, the
almanac, bellows channels, the store, faults, outputs, parameters, the NV store, engines, bands, the host port, operands. An operation is
made of operations before it; where a match chooses among them, the proof splits its cases. -/
namespace Sys2Proof.Machine
variable {s : State}

/-! ### Machine/Ops -/

@[simp] theorem State.free_pending : s.free.2.pending = s.pending := by simp [State.free]

/-! ### Machine/Events -/

@[simp] theorem State.count_pending {i n : Nat} : (s.count i n).pending = s.pending := by simp [State.count]
@[simp] theorem State.trace_pending {ty src : Nat} {body : List Byte} : (s.trace ty src body).pending = s.pending := by
  simp [State.trace]
@[simp] theorem State.traceFlow_pending {e : Eng} {c : Fin 4} {reason : Nat} {target : W} {cause : List Byte} :
    (s.traceFlow e c reason target cause).pending = s.pending := by
  simp [State.traceFlow]
@[simp] theorem State.occur_pending {src : Nat} : (s.occur src).pending = s.pending := by simp [State.occur]
@[simp] theorem State.latch_pending {e : Eng} {c : Fin 4} {input : Nat} : (s.latch e c input).pending = s.pending := by
  simp [State.latch]
@[simp] theorem State.islandReset_pending {i : Nat} : (s.islandReset i).pending = s.pending := by simp [State.islandReset]
@[simp] theorem State.islandOut_pending {i : Nat} : (s.islandOut i).pending = s.pending := by simp [State.islandOut]

/-! ### Machine/LinkBase -/

@[simp] theorem State.linkPut_pending {f : LinkFrame} : (s.linkPut f).pending = s.pending := by simp [State.linkPut]
@[simp] theorem State.linkPump_pending {n : Nat} : (State.linkPump n s).pending = s.pending := by
  induction n generalizing s with
  | zero => rfl
  | succ n ih =>
    unfold State.linkPump
    split <;> simp [ih]
@[simp] theorem State.linkSendAll_pending {type : Byte} {cls : Nat} {p : Port} {payloads : List (List W)} :
    (s.linkSendAll type cls p payloads).pending = s.pending := by
  simp [State.linkSendAll]
@[simp] theorem State.linkSend_pending {type : Byte} {cls : Nat} {p : Port} {payload : List W} :
    (s.linkSend type cls p payload).pending = s.pending := by
  simp [State.linkSend]
@[simp] theorem State.sendRecord_pending {r : Rec} : (s.sendRecord r).pending = s.pending := by simp [State.sendRecord]
@[simp] theorem State.linkDiscard_pending : s.linkDiscard.pending = s.pending := by simp [State.linkDiscard]
@[simp] theorem State.linkRetrain_pending : s.linkRetrain.pending = s.pending := by simp [State.linkRetrain]
@[simp] theorem State.rxBad_pending : s.rxBad.pending = s.pending := by simp [State.rxBad]
@[simp] theorem State.rxAck_pending {ack : Byte} : (s.rxAck ack).pending = s.pending := by simp [State.rxAck]
@[simp] theorem State.onClass0_pending {x : RxHdr} {body : State → State} (h : ∀ t, (body t).pending = t.pending) :
    (s.onClass0 x body).pending = s.pending := by
  simp [State.onClass0, h]
@[simp] theorem State.onFrame_pending {x : RxHdr} {takes : State → Bool} {body : State → State}
    (h : ∀ t, (body t).pending = t.pending) :
    (s.onFrame x takes body).pending = s.pending := by
  simp [State.onFrame, State.linkRx, h]
@[simp] theorem State.onLink_pending {x : RxHdr} {body : State → State} (h : ∀ t, (body t).pending = t.pending) :
    (s.onLink x body).pending = s.pending :=
  State.onFrame_pending h

/-! ### Machine/Almanac -/

@[simp] theorem State.queueRec_pending {r : Rec} {who : Option Req} : (s.queueRec r who).pending = s.pending := by simp [State.queueRec]
@[simp] theorem State.queueStamp_pending {sel : Nat → Bool} : (s.queueStamp sel).pending = s.pending := by simp [State.queueStamp]
@[simp] theorem State.note_pending {code sev src : Nat} {payload : List W} : (s.note code sev src payload).pending = s.pending := by
  simp [State.note]
@[simp] theorem State.noteTwin_pending {src : Nat} : (s.noteTwin src).pending = s.pending := by simp [State.noteTwin]

/-! ### Machine/Bellows -/

@[simp] theorem State.blwShut_pending {c : Fin 8} : (s.blwShut c).pending = s.pending := by simp [State.blwShut]
@[simp] theorem State.parFollow_pending {c : Fin 8} : (s.parFollow c).pending = s.pending := by simp [State.parFollow]
@[simp] theorem State.blwOccur_pending {c : Fin 8} {k : Nat} : (s.blwOccur c k).pending = s.pending := by
  fun_cases State.blwOccur <;> simp
@[simp] theorem State.blwRefuse_pending {c : Fin 8} : (s.blwRefuse c).pending = s.pending := by simp [State.blwRefuse]
@[simp] theorem State.blwGrant_pending {c : Fin 8} {resumed test : Bool} : (s.blwGrant c resumed test).pending = s.pending := by
  simp [State.blwGrant]
@[simp] theorem State.blwRequest_pending {c : Fin 8} {resumed test : Bool} : (s.blwRequest c resumed test).pending = s.pending := by
  simp [State.blwRequest]
@[simp] theorem State.blwReeval_pending {c : Fin 8} : (s.blwReeval c).pending = s.pending := by fun_cases State.blwReeval <;> simp
@[simp] theorem State.blwRelease_pending {c : Fin 8} : (s.blwRelease c).pending = s.pending := by simp [State.blwRelease]
@[simp] theorem State.blwAction_pending {c : Fin 8} {pulse : Bool} : (s.blwAction c pulse).pending = s.pending := by
  simp [State.blwAction]
@[simp] theorem State.blwShutdown_pending : s.blwShutdown.pending = s.pending := by simp [State.blwShutdown]

/-! ### Machine/StoreOps -/

@[simp] theorem State.rowDetect_pending {ch : Fin 16} {bank row : Nat} {cause : Byte} :
    (s.rowDetect ch bank row cause).pending = s.pending := by
  fun_cases State.rowDetect <;> simp
@[simp] theorem State.copyWord_pending {w : Nat} : (s.copyWord w).pending = s.pending := by simp [State.copyWord]
@[simp] theorem State.checkWord_pending {w : Nat} : (s.checkWord w).pending = s.pending := by simp [State.checkWord]
@[simp] theorem State.copyWords_pending {at' : Nat → Bool} : (s.copyWords at').pending = s.pending := by simp [State.copyWords]
@[simp] theorem State.countLines_pending {a n : Nat} : (s.countLines a n).pending = s.pending := by simp [State.countLines]
@[simp] theorem State.storeCheck_pending {a n : Nat} : (s.storeCheck a n).pending = s.pending := by simp [State.storeCheck]
@[simp] theorem State.storeRead_pending {a n : Nat} : (s.storeRead a n).2.pending = s.pending := by simp [State.storeRead]
@[simp] theorem State.storePart_pending {a : Nat} {bs : List Byte} : (s.storePart a bs).pending = s.pending := by simp [State.storePart]
@[simp] theorem State.storeParts_pending {n a : Nat} {bs : List Byte} : (State.storeParts n a bs s).pending = s.pending := by
  induction n generalizing a bs s with
  | zero => rfl
  | succ n ih => simp [State.storeParts, ih]
@[simp] theorem State.storeWrite_pending {a : Nat} {bs : List Byte} : (s.storeWrite a bs).pending = s.pending := by
  simp [State.storeWrite]

/-! ### Machine/FaultBase -/

@[simp] theorem State.dropOwner_pending : s.dropOwner.pending = s.pending := by simp [State.dropOwner]
@[simp] theorem State.yieldDue_pending : s.yieldDue.pending = s.pending := by simp [State.yieldDue]
@[simp] theorem State.setFault_pending : s.setFault.pending = s.pending := by simp [State.setFault]
@[simp] theorem State.life_pending {i : Fin 6} : (s.life i).pending = s.pending := by simp [State.life]
@[simp] theorem State.fmDecide_pending {uid : W} {cause : Byte} {out : Nat} : (s.fmDecide uid cause out).pending = s.pending := by
  simp [State.fmDecide]
@[simp] theorem State.fmPermanent_pending : s.fmPermanent.pending = s.pending := by simp [State.fmPermanent]
@[simp] theorem State.fmOutcome_pending {r : Option Req} {uid : W} {out : Nat} : (s.fmOutcome r uid out).pending = s.pending := by
  fun_cases State.fmOutcome <;> simp
@[simp] theorem State.fmDeliver_pending : s.fmDeliver.pending = s.pending := by simp [State.fmDeliver]
@[simp] theorem State.programError_pending {u : Fin 182} {cause : Byte} {addr word : W} :
    (s.programError u cause addr word).pending = s.pending := by
  simp [State.programError]
@[simp] theorem State.sensorChange_pending {u : Fin 182} : (s.sensorChange u).pending = s.pending := by simp [State.sensorChange]
@[simp] theorem State.inService_pending {u : Fin 182} : (s.inService u).pending = s.pending := by simp [State.inService]
@[simp] theorem State.countTransient_pending {u : Fin 182} : (s.countTransient u).pending = s.pending := by simp [State.countTransient]
@[simp] theorem State.uncountTransient_pending {u : Fin 182} : (s.uncountTransient u).pending = s.pending := by
  simp [State.uncountTransient]
@[simp] theorem State.closeTransient_pending {u : Fin 182} : (s.closeTransient u).pending = s.pending := by simp [State.closeTransient]
@[simp] theorem State.detect_pending {u : Fin 182} {cause : Byte} {exc : Option (Byte × W × W)} :
    (s.detect u cause exc).pending = s.pending := by
  simp [State.detect, State.isolate, State.retryRepeats]
@[simp] theorem State.retryDone_pending {u : Fin 182} : (s.retryDone u).pending = s.pending := by simp [State.retryDone]

/-! ### Machine/OutputBase -/

@[simp] theorem State.streamRecord_pending {st : Fin 8} : (s.streamRecord st).pending = s.pending := by simp [State.streamRecord]
@[simp] theorem State.streamFinal_pending {st : Fin 8} {f : OutFrame} : (s.streamFinal st f).pending = s.pending := by
  simp [State.streamFinal]
@[simp] theorem State.streamEnded_pending {st : Fin 8} {f : OutFrame} : (s.streamEnded st f).pending = s.pending := by
  simp [State.streamEnded]
@[simp] theorem State.streamCut_pending {st : Fin 8} : (s.streamCut st).pending = s.pending := by
  unfold State.streamCut
  dsimp only
  (repeat' split) <;> simp
@[simp] theorem State.txDiscard_pending {x : Fin 2} : (s.txDiscard x).pending = s.pending :=
  Eq.trans (forEach_pending fun _ _ => rfl) (by simp)
@[simp] theorem State.markStreams_pending {p : Port} {m : W} {patched held : Bool} {prev : Option (Fin 4)} :
    (s.markStreams p m patched held prev).pending = s.pending := by
  simp [State.markStreams]
@[simp] theorem State.outputsGain_pending : s.outputsGain.pending = s.pending := by simp [State.outputsGain]

/-! ### Machine/Apply -/

@[simp] theorem State.transitWake_pending {p : Port} : (s.transitWake p).pending = s.pending := by simp [State.transitWake]
@[simp] theorem State.transitAbandonNow_pending {code : Nat} {asPartner : Bool} :
    (s.transitAbandonNow code asPartner).pending = s.pending := by
  unfold State.transitAbandonNow
  split <;> simp
@[simp] theorem State.transitAbandon_pending {code : Nat} {asPartner : Bool} :
    (s.transitAbandon code asPartner).pending = s.pending := by
  simp [State.transitAbandon]
@[simp] theorem State.transitAbandonPort_pending {p : Port} {code : Nat} : (s.transitAbandonPort p code).pending = s.pending := by
  fun_cases State.transitAbandonPort <;> simp
@[simp] theorem State.refuseBlock_pending {blk idx : Nat} : (s.refuseBlock blk idx).pending = s.pending := by
  simp [State.refuseBlock, State.noteRefused]
@[simp] theorem State.genInc_pending {blk : Nat} : (s.genInc blk).pending = s.pending := by simp [State.genInc]
@[simp] theorem State.dropPending_pending {blk : Nat} : (s.dropPending blk).pending = s.pending := by simp [State.dropPending]
@[simp] theorem State.afterP_pending {blk : Nat} {o : PMap} : (s.afterP blk o).pending = s.pending := by
  fun_cases State.afterP <;> simp [State.zonesChange, State.streamChange, State.txChange]
@[simp] theorem State.applyOneP_pending {v o : PMap} {blk : Nat} {copy : PMap} : (s.applyOneP v o blk copy).pending = s.pending := by
  unfold State.applyOneP
  dsimp only
  (repeat' split) <;> simp
@[simp] theorem State.applyBatch_pending {l : List (Nat × PMap)} : (s.applyBatch l).pending = s.pending := by simp [State.applyBatch]
@[simp] theorem State.devSettle_pending : s.devSettle.pending = s.pending := by fun_cases State.devSettle <;> simp
@[simp] theorem State.devCheck_pending {also : List (Nat × PMap)} : (s.devCheck also).pending = s.pending := by
  fun_cases State.devCheck <;> simp
@[simp] theorem State.devAdopt_pending {p : Port} {also : List (Nat × PMap)} : (s.devAdopt p also).pending = s.pending := by
  unfold State.devAdopt
  dsimp only
  (repeat' split) <;> simp
@[simp] theorem State.devEnter_pending {p : Port} : (s.devEnter p).pending = s.pending := by simp [State.devEnter]
@[simp] theorem State.clusterClock_pending {k : Fin 12} {mhz : Nat} : (s.clusterClock k mhz).pending = s.pending := by
  simp [State.clusterClock]
@[simp] theorem State.clocksTake_pending : s.clocksTake.pending = s.pending := forEach_pending fun k t => by split <;> simp
@[simp] theorem State.agreeNow_pending {l : List (Nat × PMap)} : (s.agreeNow l).pending = s.pending := by simp [State.agreeNow]
@[simp] theorem State.devIdle_pending : s.devIdle.pending = s.pending := by simp [State.devIdle]
@[simp] theorem State.portLeave_pending {p : Port} {dst : PortSt} : (s.portLeave p dst).pending = s.pending := by
  unfold State.portLeave
  split <;> simp [State.parkLanes, State.pendingIdle]
@[simp] theorem State.portFollow_pending {p : Port} : (s.portFollow p).pending = s.pending := by
  fun_cases State.portFollow <;> simp [State.portSync]
@[simp] theorem State.applyIdleP_pending {p : Port} {blk : Nat} : (s.applyIdleP p blk).pending = s.pending := by
  fun_cases State.applyIdleP <;> simp

/-! ### Machine/NvBase -/

@[simp] theorem State.nvQueue_pending {w : NvWrite} : (s.nvQueue w).pending = s.pending := by simp [State.nvQueue]
@[simp] theorem State.mapEntry_pending {f : RMap → RMap} : (s.mapEntry f).pending = s.pending := by simp [State.mapEntry]

/-! ### Machine/EngineBase -/

@[simp] theorem State.dataFix_pending {e : Eng} {a n : Nat} : (s.dataFix e a n).pending = s.pending := by simp [State.dataFix]
@[simp] theorem State.ringFix_pending {e : Eng} {base : Nat} : (s.ringFix e base).pending = s.pending := by
  unfold State.ringFix
  dsimp only
  (repeat' split) <;> simp
@[simp] theorem State.mp1Detach_pending {e : Eng} : (s.mp1Detach e).pending = s.pending := by simp [State.mp1Detach]
@[simp] theorem State.engReset_pending {e : Eng} : (s.engReset e).pending = s.pending := by simp [State.engReset, State.ceRestart]
@[simp] theorem State.engStart_pending {e : Eng} : (s.engStart e).pending = s.pending := by simp [State.engStart]
@[simp] theorem State.swTake_pending : s.swTake.pending = s.pending := by
  unfold State.swTake
  split <;> simp
@[simp] theorem State.mp0Discard_pending : s.mp0Discard.pending = s.pending := by simp [State.mp0Discard]
@[simp] theorem State.meRestart_pending : s.meRestart.pending = s.pending := by simp [State.meRestart]
@[simp] theorem State.engException_pending {e : Eng} {cause : Byte} {data : W} : (s.engException e cause data).pending = s.pending := by
  simp [State.engException]
@[simp] theorem State.giveUp_pending {v : Invoc} : (s.giveUp v).pending = s.pending := by simp [State.giveUp]
@[simp] theorem State.noRetry_pending {l : LaneNo} : (s.noRetry l).pending = s.pending := by
  unfold State.noRetry
  dsimp only
  (repeat' split) <;> simp
@[simp] theorem State.dropInvoc_pending {l : LaneNo} : (s.dropInvoc l).pending = s.pending := by
  unfold State.dropInvoc
  split <;> simp
@[simp] theorem State.clusterReset_pending {k : Fin 12} : (s.clusterReset k).pending = s.pending :=
  Eq.trans (forEach_pending fun _ _ => rfl) (by simp)
@[simp] theorem State.clusterDetect_pending {k : Fin 12} {cause : Byte} : (s.clusterDetect k cause).pending = s.pending := by
  simp [State.clusterDetect]
@[simp] theorem State.laneException_pending {l : LaneNo} {cause : Byte} {data : W} {tile : Bool} :
    (s.laneException l cause data tile).pending = s.pending := by
  simp [State.laneException]
@[simp] theorem State.raise_pending {ag : Agent} {cause : Byte} {data : W} : (s.raise ag cause data).pending = s.pending := by
  fun_cases State.raise <;> simp
@[simp] theorem State.stopSettle_pending {e : Eng} : (s.stopSettle e).pending = s.pending := by simp [State.stopSettle]
@[simp] theorem State.stopsTake_pending : s.stopsTake.pending = s.pending := by simp [State.stopsTake]

/-! ### Machine/Retire -/

@[simp] theorem State.chanRetire_pending {ch : Fin 16} {cause : Byte} {who : Option Req} {decided : Bool} :
    (s.chanRetire ch cause who decided).pending = s.pending := by
  simp [State.chanRetire]
@[simp] theorem State.bankRetire_pending {ch : Fin 16} {bank : Nat} {cause : Byte} {who : Option Req} {decided : Bool} :
    (s.bankRetire ch bank cause who decided).pending = s.pending := by
  simp [State.bankRetire]
@[simp] theorem State.rowRetire_pending {q : RowSeq} : (s.rowRetire q).pending = s.pending := by
  unfold State.rowRetire
  dsimp only
  (repeat' split) <;> simp
@[simp] theorem State.storeRetire_pending {uid : W} {decided : Bool} : (s.storeRetire uid decided).pending = s.pending := by
  unfold State.storeRetire
  dsimp only
  (repeat' split) <;> simp
@[simp] theorem State.portOff_pending {p : Port} : (s.portOff p).pending = s.pending := by simp [State.portOff]
@[simp] theorem State.laneGone_pending {l : LaneNo} : (s.laneGone l).pending = s.pending := by
  unfold State.laneGone
  split <;> simp
@[simp] theorem State.transitModLost_pending {k : Fin 8} : (s.transitModLost k).pending = s.pending := by
  fun_cases State.transitModLost <;> simp
@[simp] theorem State.transitLaneLost_pending {u : Fin 182} : (s.transitLaneLost u).pending = s.pending := by
  fun_cases State.transitLaneLost <;> simp
@[simp] theorem State.retireUnit_pending {u : Fin 182} : (s.retireUnit u).pending = s.pending := by
  unfold State.retireUnit
  dsimp only
  (repeat' split) <;> simp [State.retireEffect]
@[simp] theorem State.retirePending_pending {ok : Fin 182 → Bool} {store : Bool} : (s.retirePending ok store).pending = s.pending := by
  simp [State.retirePending]
@[simp] theorem State.failedBack_pending : s.failedBack.pending = s.pending := by simp [State.failedBack]
@[simp] theorem State.rotateBack_pending : s.rotateBack.pending = s.pending := by simp [State.rotateBack]
@[simp] theorem State.rotateOut_pending {ok : Fin 182 → Bool} : (s.rotateOut ok).pending = s.pending := by simp [State.rotateOut]
@[simp] theorem State.settleIdle_pending : s.settleIdle.pending = s.pending := by simp [State.settleIdle]
@[simp] theorem State.settleUnit_pending {u : Fin 182} : (s.settleUnit u).pending = s.pending := by simp [State.settleUnit]

/-! ### Machine/Bands -/

@[simp] theorem State.kernelLoad_pending {k : Fin 12} {slot : Fin 16} : (s.kernelLoad k slot).pending = s.pending :=
  Eq.trans (forEach_pending fun _ _ => rfl) (by simp)
@[simp] theorem State.clusterSet_pending {k : Fin 12} {slot : Option (Fin 16)} {mhz : Nat} :
    (s.clusterSet k slot mhz).pending = s.pending := by
  unfold State.clusterSet
  split <;> simp
@[simp] theorem State.clustersSet_pending {p : Port} {v : PMap} {pl : Plan} {stage : Nat} {duty : Option (Fin 12)} :
    (s.clustersSet p v pl stage duty).pending = s.pending :=
  forEach_pending fun k t => by dsimp only; split <;> simp
@[simp] theorem State.bandsSet_pending {p : Port} {stage : Nat} : (s.bandsSet p stage).pending = s.pending := by
  simp [State.bandsSet, State.parkPeers]

/-! ### Machine/ThermalBase -/

@[simp] theorem State.stageFollow_pending {old : Nat} : (s.stageFollow old).pending = s.pending := by
  simp [State.stageFollow, State.stageIdle]
@[simp] theorem State.setZone_pending {z : Fin 4} {n : Fin 5} : (s.setZone z n).pending = s.pending := by simp [State.setZone]
@[simp] theorem State.zoneAfter_pending {z : Fin 4} {wasHot : Bool} : (s.zoneAfter z wasHot).pending = s.pending := by
  simp [State.zoneAfter]
@[simp] theorem State.thermalApply_pending {ws : List W} {seq : Byte} : (s.thermalApply ws seq).pending = s.pending := by
  simp [State.thermalApply, State.sensorNews]

/-! ### Machine/NvOps -/

@[simp] theorem State.nvRead_pending {a n : Nat} : (s.nvRead a n).2.pending = s.pending := by simp [State.nvRead]
@[simp] theorem State.itemCheck_pending {t : NvItem} : (s.itemCheck t).pending = s.pending := by simp [State.itemCheck]
@[simp] theorem State.saveCounters_pending {src : NvSrc} : (s.saveCounters src).pending = s.pending := by simp [State.saveCounters]
@[simp] theorem State.flushPages_pending : s.flushPages.pending = s.pending := by simp [State.flushPages]
@[simp] theorem State.flushNext_pending : s.flushNext.pending = s.pending := by simp [State.flushNext]
@[simp] theorem State.flush_pending : s.flush.pending = s.pending := by simp [State.flush]
@[simp] theorem State.handFlush_pending : s.handFlush.pending = s.pending := by simp [State.handFlush]
@[simp] theorem State.recPlace_pending {r : Rec} : (s.recPlace r).pending = s.pending := by
  unfold State.recPlace
  dsimp only
  (repeat' split) <;> simp [State.recLost]
@[simp] theorem State.recEnter_pending {r : Rec} : (s.recEnter r).pending = s.pending := by simp [State.recEnter]
@[simp] theorem State.noteAnalog_pending {code sev src : Nat} {payload : List W} {enter : State → Rec → State}
    (h : ∀ t r, (enter t r).pending = t.pending) :
    (s.noteAnalog code sev src payload enter).pending = s.pending := by
  simp [State.noteAnalog, h]
@[simp] theorem State.almClear_pending : s.almClear.pending = s.pending := by simp [State.almClear]
@[simp] theorem State.pageDone_pending {src : NvSrc} : (s.pageDone src).pending = s.pending := by
  unfold State.pageDone
  split <;> simp
@[simp] theorem State.pageWriteDone_pending : s.pageWriteDone.pending = s.pending := by fun_cases State.pageWriteDone <;> simp

/-! ### Machine/Image -/

@[simp] theorem State.imgInstall_pending {img : List Byte} {secs : List ImgSec} {ver : W} :
    (s.imgInstall img secs ver).pending = s.pending := by
  simp [State.imgInstall, State.imgLoad, State.meCopyCrc]

/-! ### Machine/HostBase -/

@[simp] theorem State.hostReject_pending {cause : Byte} : (s.hostReject cause).pending = s.pending := by simp [State.hostReject]
@[simp] theorem State.hostAdmit_pending : s.hostAdmit.pending = s.pending := by simp [State.hostAdmit]
@[simp] theorem State.readClose_pending : s.readClose.pending = s.pending := by
  unfold State.readClose
  dsimp only
  (repeat' split) <;> simp
@[simp] theorem State.readFail_pending {c : Byte} : (s.readFail c).pending = s.pending := by simp [State.readFail]
@[simp] theorem State.hostBegin_pending : s.hostBegin.pending = s.pending := by simp [State.hostBegin]

/-! ### Machine/Operands -/

@[simp] theorem State.putCtx_pending {ag : Agent} {c : Ctx} : (s.putCtx ag c).pending = s.pending := by fun_cases State.putCtx <;> simp
@[simp] theorem State.fetchFix_pending {ag : Agent} {pc : W} : (s.fetchFix ag pc).pending = s.pending := by
  fun_cases State.fetchFix <;> simp
@[simp] theorem State.zx_leaves {z : Zx} {avail : Bool} {body : Ctx → State → State} (h : ∀ c t, (body c t).pending = t.pending) :
    Out.leaves s.pending (s.zx z avail body) := by
  simp [State.zx, h]
@[simp] theorem State.done_pending {ag : Agent} {c : Ctx} : (s.done ag c).pending = s.pending := by simp [State.done]
@[simp] theorem State.switch_pending {e : Eng} : (s.switch e).pending = s.pending := by
  unfold State.switch
  dsimp only
  (repeat' split) <;> simp
@[simp] theorem State.wake_pending {e : Eng} : (s.wake e).pending = s.pending := by simp [State.wake]
@[simp] theorem State.blockOn_pending {ag : Agent} {c : Ctx} {b : Blocked} : (s.blockOn ag c b).pending = s.pending := by
  unfold State.blockOn
  split <;> simp
@[simp] theorem State.modMemOf_pending {ag : Agent} {pl : Place} {f : Mem × List Nat × List Nat → Mem × List Nat × List Nat} :
    (s.modMemOf ag pl f).pending = s.pending := by
  fun_cases State.modMemOf <;> simp
@[simp] theorem State.softFix_pending {ag : Agent} {pl : Place} : (s.softFix ag pl).pending = s.pending := by simp [State.softFix]
@[simp] theorem State.raiseAt_pending {ag : Agent} {cause : Byte} {ea : W} {pl : Place} :
    (s.raiseAt ag cause ea pl).pending = s.pending := by
  fun_cases State.raiseAt <;> simp
@[simp] theorem State.storeAt_pending {ag : Agent} {pl : Place} {bs : List Byte} : (s.storeAt ag pl bs).pending = s.pending := by
  simp [State.storeAt]
@[simp] theorem State.access_pending {ag : Agent} {c : Ctx} {ea : W} {n : Nat} {whole : Bool} {k : Place → State → State}
    (h : ∀ x t, (k x t).pending = t.pending) :
    (s.access ag c ea n whole k).pending = s.pending := by
  fun_cases State.access <;> simp [h]

end Sys2Proof.Machine
end

section
/-! SUPPORT. What leaves the queue of commands as it is, each lemma after its definition: boot, frames, the hearth, transits, tests, the
thermal unit, the Sextant, bellows channels, twins. -/
namespace Sys2Proof.Machine
variable {s : State}

/-! ### Machine/BootOps -/

@[simp] theorem State.bootStart_pending {bootsel : BitVec 2} {role : Bool} : (s.bootStart bootsel role).pending = s.pending := by
  simp [State.bootStart, State.bootNv, State.takeCounters, State.bootItem, State.bootTrims, State.storeInit]
@[simp] theorem execResetRelease_leaves {bootsel : BitVec 2} {role : Bool} :
    Out.leaves s.pending (execResetRelease bootsel role s) := by
  unfold execResetRelease
  dsimp only
  (repeat' split) <;> simp
@[simp] theorem execStoreInitDone_leaves : Out.leaves s.pending (execStoreInitDone s) := by
  unfold execStoreInitDone
  dsimp only
  (repeat' split) <;> simp
@[simp] theorem State.bootEnter_pending : s.bootEnter.pending = s.pending := by simp [State.bootEnter]
@[simp] theorem State.imgChecked_pending : s.imgChecked.pending = s.pending := by simp [State.imgChecked]
@[simp] theorem State.imgBuffer_pending : s.imgBuffer.2.pending = s.pending := by simp [State.imgBuffer]
@[simp] theorem State.loadGo_pending : s.loadGo.pending = s.pending := by
  unfold State.loadGo
  dsimp only
  (repeat' split) <;> simp
@[simp] theorem execMeRestartDone_leaves : Out.leaves s.pending (execMeRestartDone s) := by
  simp -implicitDefEqProofs [execMeRestartDone]
@[simp] theorem State.loadIgnored_pending : s.loadIgnored.pending = s.pending := by simp [State.loadIgnored]
@[simp] theorem State.startReq_pending {code : Fin 16} : (s.startReq code).pending = s.pending := by fun_cases State.startReq <;> simp
@[simp] theorem State.stopReq_pending {code : Fin 16} : (s.stopReq code).pending = s.pending := by
  unfold State.stopReq
  split <;> simp
@[simp] theorem State.abortReq_pending {code : Fin 16} : (s.abortReq code).pending = s.pending := by fun_cases State.abortReq <;> simp

/-! ### Machine/FrameOps -/

@[simp] theorem State.modFrame_pending {p : Port} {tail : Bool} {f : Frame → Frame} : (s.modFrame p tail f).pending = s.pending := by
  simp [State.modFrame]
@[simp] theorem State.samplesCheck_pending {pb : PMap} {p : Port} {f r c n : Nat} :
    (s.samplesCheck pb p f r c n).pending = s.pending := by
  simp [State.samplesCheck]
@[simp] theorem State.slotCheck_pending {p : Port} {pb : PMap} {slot : Option (Fin 4)} {r a n : Nat} :
    (s.slotCheck p pb slot r a n).pending = s.pending := by
  fun_cases State.slotCheck <;> simp
@[simp] theorem State.notifyAdd_pending {p : Port} {m bits : W} : (s.notifyAdd p m bits).pending = s.pending := by
  simp [State.notifyAdd]
@[simp] theorem State.alarmTransit_pending : s.alarmTransit.pending = s.pending := by fun_cases State.alarmTransit <;> simp
@[simp] theorem State.zoneEval_pending {p : Port} {tail : Bool} {z : Fin 16} : (s.zoneEval p tail z).pending = s.pending := by
  unfold State.zoneEval
  split <;> simp
@[simp] theorem State.statWrite_pending {p : Port} {fr : Frame} {tone : Bool} : (s.statWrite p fr tone).pending = s.pending := by
  simp [State.statWrite]
@[simp] theorem State.maximaEnter_pending {p : Port} {tail : Bool} : (s.maximaEnter p tail).pending = s.pending := by
  fun_cases State.maximaEnter <;> simp
@[simp] theorem State.frameComplete_pending {p : Port} {tail : Bool} : (s.frameComplete p tail).pending = s.pending := by
  unfold State.frameComplete
  dsimp only
  (repeat' split) <;> simp [State.sendDigests]
@[simp] theorem State.tryComplete_pending {p : Port} {tail : Bool} : (s.tryComplete p tail).pending = s.pending := by
  fun_cases State.tryComplete <;> simp

/-! ### Machine/Hearth -/

@[simp] theorem State.groupCheck_pending {p : Port} {fr : Frame} {r col : Nat} : (s.groupCheck p fr r col).pending = s.pending := by
  simp [State.groupCheck]
@[simp] theorem State.refsCheck_pending {p : Port} {fr : Frame} {r col : Nat} : (s.refsCheck p fr r col).pending = s.pending := by
  simp [State.refsCheck]
@[simp] theorem State.tapGroup_pending {p : Port} {tail : Bool} {r col : Nat} : (s.tapGroup p tail r col).pending = s.pending := by
  unfold State.tapGroup
  split
  · rfl
  · refine forEach_pending fun e t => forEach_pending fun c t => ?_
    dsimp only
    split
    · simp
    · exact forEach_pending fun v t => by split <;> simp
@[simp] theorem State.endA_pending {p : Port} {tail : Bool} {r a : Nat} {e : ElemIn} {px : Pix} {w4 : List W} {cb : Comb} {sats : Nat} :
    (s.endA p tail r a e px w4 cb sats).pending = s.pending := by
  unfold State.endA
  split <;> simp
@[simp] theorem State.endB_pending {p : Port} {tail : Bool} {r a : Nat} {px : Pix} {repl hold mode3 : Bool} :
    (s.endB p tail r a px repl hold mode3).pending = s.pending := by
  simp [State.endB]
@[simp] theorem State.groupRun_pending {p : Port} {tail : Bool} {r col : Nat} : (s.groupRun p tail r col).pending = s.pending := by
  unfold State.groupRun
  split
  · rfl
  · extract_lets rows els s1 s2 s3
    have h1 : s1.pending = s.pending := by simp [s1]
    have h2 : s2.pending = s1.pending := by
      unfold s2
      split
      · exact State.tapGroup_pending.trans (forEach_pending fun i t => by split <;> simp)
      · rfl
    have h3 : s3.pending = s2.pending := by
      unfold s3
      split
      · exact Eq.trans (forEach_pending fun i t => by split <;> simp) (by simp)
      · rfl
    simp [h3, h2, h1]

/-! ### Machine/HearthCmds -/

@[simp] theorem State.invocGo_pending {l : LaneNo} {v : Invoc} {first : Nat} : (s.invocGo l v first).pending = s.pending := by
  simp [State.invocGo]
@[simp] theorem State.writeBack_pending {l : LaneNo} {v : Invoc} : (s.writeBack l v).pending = s.pending := by
  unfold State.writeBack
  extract_lets p
  split
  · rfl
  · split
    · rfl
    · extract_lets rows first s1 m wd slot w4 s2
      have h1 : s1.pending = s.pending := by simp [s1]
      have h2 : s2.pending = s1.pending := State.tapGroup_pending.trans (forEach_pending fun x t => by split <;> simp)
      split
      · simp [h1]
      · refine (forEach_pending fun i t => ?_).trans (h2.trans h1)
        extract_lets a f u
        have hu : u.pending = t.pending := by
          unfold u
          split
          · split <;> simp
          · rfl
        simp [hu]
@[simp] theorem State.kernelTake_pending {k : Fin 12} : (s.kernelTake k).pending = s.pending := by fun_cases State.kernelTake <;> simp
@[simp] theorem execHearthInvocation_leaves {p : Port} {tail : Bool} {l : LaneNo} {row col : Nat} {whole : Bool} :
    Out.leaves s.pending (execHearthInvocation p tail l row col whole s) := by
  unfold execHearthInvocation
  dsimp only
  (repeat' split) <;> simp [State.constsPlace, State.invocStart]
@[simp] theorem State.invocEnd_pending {l : LaneNo} : (s.invocEnd l).pending = s.pending := by
  unfold State.invocEnd
  split <;> simp
@[simp] theorem execYield_leaves {z : Zx} : Out.leaves s.pending (execYield z s) := by
  unfold execYield
  split <;> simp
@[simp] theorem State.laneRetry_pending {l : LaneNo} : (s.laneRetry l).pending = s.pending := by
  unfold State.laneRetry
  dsimp only
  (repeat' split) <;> simp
@[simp] theorem State.elemOut_pending {p : Port} {tail : Bool} {r a : Nat} : (s.elemOut p tail r a).pending = s.pending := by
  unfold State.elemOut
  split <;> simp
@[simp] theorem State.groupSlot_pending {p : Port} {tail : Bool} {r a : Nat} : (s.groupSlot p tail r a).pending = s.pending := by
  fun_cases State.groupSlot <;> simp
@[simp] theorem State.groupOut_pending {p : Port} {tail : Bool} {r a : Nat} : (s.groupOut p tail r a).pending = s.pending := by
  fun_cases State.groupOut <;> simp
@[simp] theorem State.earlyZones_pending {p : Port} {tail : Bool} : (s.earlyZones p tail).pending = s.pending :=
  forEach_pending fun z t => by split <;> simp
@[simp] theorem execRadiometricRow_leaves {p : Port} {tail : Bool} {l : LaneNo} {row : Nat} :
    Out.leaves s.pending (execRadiometricRow p tail l row s) := by
  fun_cases execRadiometricRow <;> simp
@[simp] theorem State.patchTile_pending {p : Port} {t : Nat} : (s.patchTile p t).pending = s.pending := by
  unfold State.patchTile
  dsimp only
  (repeat' split) <;> simp
@[simp] theorem State.deadline_pending {p : Port} : (s.deadline p).pending = s.pending := by
  unfold State.deadline
  dsimp only
  (repeat' split) <;> simp

/-! ### Machine/TransitOps -/

@[simp] theorem State.transitDue_pending {p : Port} {req : Bool} : (s.transitDue p req).pending = s.pending := by
  simp [State.transitDue]
@[simp] theorem State.modCur_pending {f : Transit → Transit} : (s.modCur f).pending = s.pending := by simp [State.modCur]
@[simp] theorem State.domeStep_pending {at' next' : Fin 8} : (s.domeStep at' next').pending = s.pending := by
  fun_cases State.domeStep <;> simp
@[simp] theorem State.modSextant_pending {f : Sextant → Sextant} : (s.modSextant f).pending = s.pending := by simp [State.modSextant]
@[simp] theorem State.setTrim_pending {i : Nat} {w : W} : (s.setTrim i w).pending = s.pending := by simp [State.setTrim]
@[simp] theorem State.trimRecord_pending : s.trimRecord.pending = s.pending := by simp [State.trimRecord]
@[simp] theorem State.checkBegin_pending {m : Fin 8} {gap : Option Nat} : (s.checkBegin m gap).pending = s.pending := by
  simp [State.checkBegin]
@[simp] theorem State.refDue_pending : s.refDue.pending = s.pending := by fun_cases State.refDue <;> simp
@[simp] theorem State.flatEnd_pending {c : Transit} {agreed : Option Nat} : (s.flatEnd c agreed).pending = s.pending := by
  simp [State.flatEnd]
@[simp] theorem State.accBack_pending : s.accBack.pending = s.pending := by
  unfold State.accBack
  split
  · rfl
  · exact forEach_pending fun _ _ => rfl
@[simp] theorem State.transitFrame_pending {p : Port} {fr : Frame} : (s.transitFrame p fr).pending = s.pending := by
  unfold State.transitFrame
  split <;> simp
@[simp] theorem State.poisonRange_pending {a n : Nat} : (s.poisonRange a n).pending = s.pending := forEach_pending fun _ _ => rfl
@[simp] theorem State.transitPlace_pending {l : LaneNo} {tile : List (Nat × List Byte)} {consts : List W}
    {rowWords : List (Nat × List W)} {regs : List W} :
    (s.transitPlace l tile consts rowWords regs).pending = s.pending := by
  simp [State.transitPlace]
@[simp] theorem execTransitAccumulate_leaves {l : LaneNo} {row col : Nat} :
    Out.leaves s.pending (execTransitAccumulate l row col s) := by
  unfold execTransitAccumulate
  split <;> simp [State.accElem]
@[simp] theorem execTransitFinish_leaves {l : LaneNo} {row col : Nat} : Out.leaves s.pending (execTransitFinish l row col s) := by
  unfold execTransitFinish
  split <;> simp [State.cdomeCheck, State.finishElem]
@[simp] theorem State.maskPass_pending {rows cols size : Nat} {at0 at3 : Nat → Nat → Nat} :
    (s.maskPass rows cols size at0 at3).pending = s.pending := by
  simp [State.maskPass]
@[simp] theorem execTransitStagingComplete_leaves : Out.leaves s.pending (execTransitStagingComplete s) := by
  unfold execTransitStagingComplete
  split <;> simp
@[simp] theorem execTransitCloseTimeout_leaves : Out.leaves s.pending (execTransitCloseTimeout s) := by
  fun_cases execTransitCloseTimeout <;> simp
@[simp] theorem execTransitOpenTimeout_leaves : Out.leaves s.pending (execTransitOpenTimeout s) := by
  unfold execTransitOpenTimeout
  dsimp only
  split
  · rfl
  · split
    · exact forEach_pending fun _ _ => rfl
    · split <;> simp
@[simp] theorem State.egenInc_pending {p : Port} : (s.egenInc p).pending = s.pending := by simp [State.egenInc]
@[simp] theorem State.transitCommit_pending {p : Port} : (s.transitCommit p).pending = s.pending := by
  unfold State.transitCommit
  split <;> simp [State.setTransitRef]
@[simp] theorem State.mergeRow_pending {p : Port} {r : Nat} : (s.mergeRow p r).pending = s.pending := by
  simp [State.mergeRow, State.mergePut]
@[simp] theorem State.noteLoaded_pending {p : Port} {code : Byte} : (s.noteLoaded p code).pending = s.pending := by
  simp [State.noteLoaded]
@[simp] theorem State.mergeEnd_pending : s.mergeEnd.pending = s.pending := by
  unfold State.mergeEnd
  split <;> simp
@[simp] theorem execTransitMergeRow_leaves {p : Port} {row : Nat} : Out.leaves s.pending (execTransitMergeRow p row s) := by
  unfold execTransitMergeRow
  dsimp only
  (repeat' split) <;> simp
@[simp] theorem State.startAgain_pending {p : Port} : (s.startAgain p).pending = s.pending := by simp [State.startAgain]
@[simp] theorem State.restoreBegin_pending {p : Port} : (s.restoreBegin p).pending = s.pending := by
  unfold State.restoreBegin
  dsimp only
  (repeat' split) <;> simp
@[simp] theorem State.transitCarry_pending {p : Port} {d : Nat} : (s.transitCarry p d).pending = s.pending := by
  fun_cases State.transitCarry <;> simp [State.transitStart]
@[simp] theorem State.prodPort_pending {p : Port} {sec : List Byte} {lost : Bool} : (s.prodPort p sec lost).1.pending = s.pending := by
  unfold State.prodPort
  dsimp only
  (repeat' split) <;> simp [State.prodWrite]
@[simp] theorem State.prodPorts_pending {fl : List (List Byte)} {e : Option (Fin 4)} {l : List Port} {b : Bool} :
    (s.prodPorts fl e l b).1.pending = s.pending := by
  induction l generalizing s b with
  | nil => rfl
  | cons p l ih =>
    unfold State.prodPorts
    split <;> simp [ih]

/-! ### Machine/Faults -/

@[simp] theorem State.answerTest_pending {u : Fin 182} {out : Nat} : (s.answerTest u out).pending = s.pending := by
  simp [State.answerTest]
@[simp] theorem State.testBegin_pending {u : Fin 182} : (s.testBegin u).pending = s.pending := by simp [State.testBegin]
@[simp] theorem State.sxNext_pending {m : Fin 8} {done : Option Nat} : (s.sxNext m done).pending = s.pending := by
  unfold State.sxNext
  dsimp only
  (repeat' split) <;> simp [State.sxLate]
@[simp] theorem State.blwRetry_pending {c : Fin 8} : (s.blwRetry c).pending = s.pending := by simp [State.blwRetry]
@[simp] theorem State.testDecide_pending {u : Fin 182} {pass : Bool} {leftUs : Nat} :
    (s.testDecide u pass leftUs).pending = s.pending := by
  unfold State.testDecide
  dsimp only
  (repeat' split) <;> simp [State.testClear, State.testEvent, State.retryStart]
@[simp] theorem State.testOver_pending {u : Fin 182} {pass : Bool} {leftUs : Nat} : (s.testOver u pass leftUs).pending = s.pending := by
  simp [State.testOver]
@[simp] theorem execUnitDrained_leaves {u : W} : Out.leaves s.pending (execUnitDrained u s) := by fun_cases execUnitDrained <;> simp
@[simp] theorem execRowCopyDone_leaves {ch bank : Fin 16} {row : BitVec 13} : Out.leaves s.pending (execRowCopyDone ch bank row s) := by
  unfold execRowCopyDone
  split <;> simp
@[simp] theorem execRowCopyBackDone_leaves {ch bank : Fin 16} {row : BitVec 13} :
    Out.leaves s.pending (execRowCopyBackDone ch bank row s) := by
  fun_cases execRowCopyBackDone <;> simp
@[simp] theorem State.storeAnswer_pending {uid : W} {out : Nat} : (s.storeAnswer uid out).pending = s.pending := by
  simp [State.storeAnswer]
@[simp] theorem State.rowTransient_pending {k : Nat × Nat × Nat} : (s.rowTransient k).2.pending = s.pending := by
  unfold State.rowTransient
  dsimp only
  (repeat' split) <;> simp
@[simp] theorem State.rowTestOver_pending {q : RowSeq} {pass : Bool} : (s.rowTestOver q pass).pending = s.pending := by
  simp [State.rowTestOver, State.setSeq]
@[simp] theorem State.chanTestOver_pending {ch : Fin 16} {pass : Bool} : (s.chanTestOver ch pass).pending = s.pending := by
  simp [State.chanTestOver, State.chanPermanent]
@[simp] theorem execRetryBudgetOverrun_leaves {u : W} : Out.leaves s.pending (execRetryBudgetOverrun u s) := by
  fun_cases execRetryBudgetOverrun <;> simp

/-! ### Machine/ThermalOps -/

@[simp] theorem State.sensorDetect_pending {t : Fin 48} {x : BitVec 16} : (s.sensorDetect t x).pending = s.pending := by
  simp [State.sensorDetect]
@[simp] theorem State.refreshSet_pending : s.refreshSet.pending = s.pending := by simp [State.refreshSet]
@[simp] theorem State.dcoSet_pending {k : Fin 12} : (s.dcoSet k).pending = s.pending := by fun_cases State.dcoSet <;> simp
@[simp] theorem State.sextantStop_pending : s.sextantStop.pending = s.pending := by simp [State.sextantStop]
@[simp] theorem State.thermalShutdown_pending {t : Fin 48} {x : BitVec 16} {cause : Nat} :
    (s.thermalShutdown t x cause).pending = s.pending := by
  simp [State.thermalShutdown, State.testsAbandon]
@[simp] theorem State.shutCheck_pending {t : Fin 48} {x : BitVec 16} : (s.shutCheck t x).pending = s.pending := by
  simp [State.shutCheck]
@[simp] theorem State.sensorAccept_pending {t : Fin 48} {x : BitVec 16} : (s.sensorAccept t x).pending = s.pending := by
  simp [State.sensorAccept, State.dcoFollow]
@[simp] theorem State.sensorTest_pending {t : Fin 48} {pass : Bool} : (s.sensorTest t pass).pending = s.pending := by
  simp [State.sensorTest, State.sensorBroken]
@[simp] theorem execSelfTestDone_leaves {u : W} {pass : Bool} {leftUs : Nat} {wide : Bool} :
    Out.leaves s.pending (execSelfTestDone u pass leftUs s wide) := by
  fun_cases execSelfTestDone <;> simp [State.rowTestWide]
@[simp] theorem State.logicReset_pending : s.logicReset.pending = s.pending := by simp [State.logicReset]
@[simp] theorem State.enterAll_pending {n : Nat} : (s.enterAll n).pending = s.pending :=
  Eq.trans (forEach_pending fun r t => by dsimp only; split <;> simp) (by simp)
@[simp] theorem State.powerFailStart_pending {cause : Nat} : (s.powerFailStart cause).pending = s.pending := by
  simp [State.powerFailStart, State.readPowerFail, State.nvPowerFail]
@[simp] theorem State.handRecords_pending : s.handRecords.pending = s.pending := by simp [State.handRecords]
@[simp] theorem execHandoverDone_leaves : Out.leaves s.pending (execHandoverDone s) := by
  unfold execHandoverDone
  dsimp only
  (repeat' split) <;> simp
@[simp] theorem execPowerFailRelease_leaves {bootsel : BitVec 2} {role : Bool} :
    Out.leaves s.pending (execPowerFailRelease bootsel role s) := by
  unfold execPowerFailRelease
  dsimp only
  (repeat' split) <;> simp

/-! ### Machine/Sextant -/

@[simp] theorem State.applyI_pending {blk : Nat} {after : PMap → State → State} (h : ∀ x t, (after x t).pending = t.pending) :
    (s.applyI blk after).pending = s.pending := by
  unfold State.applyI
  split
  · rfl
  · dsimp only
    split <;> simp [h]
@[simp] theorem State.sxBlock_pending {k : Fin 8} {o : PMap} : (s.sxBlock k o).pending = s.pending := by simp [State.sxBlock]
@[simp] theorem State.sxRaw_pending {inp ref gain : Nat} {c : RawConv} : (s.sxRaw inp ref gain c).2.pending = s.pending := by
  simp [State.sxRaw]
@[simp] theorem State.domeResult_pending {k : Fin 8} {e : SxEntry} {sum : Int} : (s.domeResult k e sum).pending = s.pending := by
  fun_cases State.domeResult <;> simp
@[simp] theorem State.sxEnd_pending {k : Fin 8} : (s.sxEnd k).pending = s.pending := by simp [State.sxEnd]
@[simp] theorem State.sxError_pending {k : Fin 8} : (s.sxError k).pending = s.pending := by
  unfold State.sxError
  dsimp only
  (repeat' split) <;> simp
@[simp] theorem execSextantConversion_leaves {m : Fin 8} {c : RawConv} : Out.leaves s.pending (execSextantConversion m c s) := by
  fun_cases execSextantConversion <;> simp [State.sxTestConv, State.sxCheckConv, State.refCheck, State.sxTrimConv, State.trimMod,
    State.sxEntryConv, State.sxRecord, State.extResults, State.extReading]
@[simp] theorem execSextantDrain_leaves {m : Fin 8} : Out.leaves s.pending (execSextantDrain m s) := by
  unfold execSextantDrain
  split <;> simp
@[simp] theorem State.resLo_pending {m : Fin 8} : (s.resLo m).2.pending = s.pending := by fun_cases State.resLo <;> simp
@[simp] theorem State.accLo_pending {m : Fin 8} : (s.accLo m).2.pending = s.pending := by simp [State.accLo]
@[simp] theorem State.lastLo_pending {e : Nat} : (s.lastLo e).2.pending = s.pending := by simp [State.lastLo]

/-! ### Machine/BellowsCmds -/

@[simp] theorem State.blwBlock_pending {c : Fin 8} {o : PMap} : (s.blwBlock c o).pending = s.pending := by
  unfold State.blwBlock
  dsimp only
  (repeat' split) <;> simp
@[simp] theorem State.blwRetryDone_pending {c : Fin 8} : (s.blwRetryDone c).pending = s.pending := by simp [State.blwRetryDone]
@[simp] theorem State.blwClosed_pending {c : Fin 8} : (s.blwClosed c).pending = s.pending := by simp [State.blwClosed, State.domeClosed]
@[simp] theorem State.blwOpened_pending {c : Fin 8} : (s.blwOpened c).pending = s.pending := by simp [State.blwOpened, State.domeOpen]
@[simp] theorem State.blwRetryPair_pending {c : Fin 8} : (s.blwRetryPair c).pending = s.pending := by
  fun_cases State.blwRetryPair <;> simp
@[simp] theorem State.blwTestOver_pending {c : Fin 8} {pass : Bool} : (s.blwTestOver c pass).pending = s.pending := by
  simp [State.blwTestOver]
@[simp] theorem State.blwDetect_pending {c : Fin 8} {cause : Byte} : (s.blwDetect c cause).pending = s.pending := by
  fun_cases State.blwDetect <;> simp
@[simp] theorem State.blwCutTest_pending {c : Fin 8} : (s.blwCutTest c).pending = s.pending := by simp [State.blwCutTest, State.blwCut]

/-! ### Machine/TwinOps -/

@[simp] theorem State.gainOwner_pending : s.gainOwner.pending = s.pending := by simp [State.gainOwner]
@[simp] theorem State.wantOwner_pending : s.wantOwner.pending = s.pending := by simp [State.wantOwner]
@[simp] theorem State.ownerRise_pending : s.ownerRise.pending = s.pending := by simp [State.ownerRise]
@[simp] theorem State.ownerAtMer_pending : s.ownerAtMer.pending = s.pending := by simp [State.ownerAtMer]
@[simp] theorem State.twinState_pending {n : Fin 7} : (s.twinState n).pending = s.pending := by simp [State.twinState]
@[simp] theorem State.twinClear_pending : s.twinClear.pending = s.pending := by
  unfold State.twinClear
  split <;> simp
@[simp] theorem State.alone_pending {n : Fin 7} : (s.alone n).pending = s.pending := by
  unfold State.alone
  dsimp only
  (repeat' split) <;> simp
@[simp] theorem State.sendPages_pending : s.sendPages.pending = s.pending := by simp [State.sendPages]
@[simp] theorem State.resyncAgain_pending : s.resyncAgain.pending = s.pending := by
  unfold State.resyncAgain
  dsimp only
  (repeat' split) <;> simp
@[simp] theorem State.bulkPort_pending {p : Port} : (s.bulkPort p).pending = s.pending := by simp [State.bulkPort]
@[simp] theorem State.outOfStep_pending {p : Port} : (s.outOfStep p).pending = s.pending := by simp [State.outOfStep]
@[simp] theorem State.stepMissed_pending {p : Port} : (s.stepMissed p).pending = s.pending := by simp [State.stepMissed]
@[simp] theorem State.installState_pending {p : Port} {r : ResyncState} : (s.installState p r).pending = s.pending := by
  simp [State.installState]
@[simp] theorem State.sendRow_pending {p : Port} {row : Nat} : (s.sendRow p row).pending = s.pending := by simp [State.sendRow]
@[simp] theorem State.installRow_pending {r : ResyncRow} : (s.installRow r).pending = s.pending :=
  Eq.trans (forEach_pending fun i t => by split <;> rfl) (by simp)
@[simp] theorem State.sweepBegin_pending {p : Port} : (s.sweepBegin p).pending = s.pending := by simp [State.sweepBegin]
@[simp] theorem State.resyncNext_pending : s.resyncNext.pending = s.pending := by
  unfold State.resyncNext
  dsimp only
  (repeat' split) <;> simp [State.lockstep]
@[simp] theorem State.sweepOver_pending {p : Port} : (s.sweepOver p).pending = s.pending := by
  unfold State.sweepOver
  dsimp only
  (repeat' split) <;> simp
@[simp] theorem State.resyncTile_pending {k : Nat} {source : Bool} : (s.resyncTile k source).pending = s.pending := by
  simp [State.resyncTile]
@[simp] theorem State.portResync_pending {p : Port} {source : Bool} : (s.portResync p source).pending = s.pending := by
  simp [State.portResync]
@[simp] theorem State.bulkCheck_pending {p : Port} {f : Nat} : (s.bulkCheck p f).pending = s.pending := by simp [State.bulkCheck]
@[simp] theorem State.portMismatch_pending {p : Port} {f : Nat} : (s.portMismatch p f).pending = s.pending := by
  simp [State.portMismatch]
@[simp] theorem State.tileMismatch_pending {k f : Nat} {own peer : BitVec 3} : (s.tileMismatch k f own peer).pending = s.pending := by
  simp [State.tileMismatch, State.tileTest]
@[simp] theorem State.tileMatch_pending {k f : Nat} : (s.tileMatch k f).pending = s.pending := by simp [State.tileMatch]
@[simp] theorem State.digestSettle_pending : s.digestSettle.pending = s.pending :=
  Eq.trans (forEach_pending fun e t => by dsimp only; split <;> simp) rfl
@[simp] theorem State.testSettle_pending : s.testSettle.pending = s.pending :=
  Eq.trans (forEach_pending fun e t => by dsimp only; split <;> simp) rfl
@[simp] theorem State.capture_pending {p : Port} : (s.capture p).pending = s.pending := by
  unfold State.capture
  split <;> simp
@[simp] theorem State.agreePending_pending {a : Agreement} : (s.agreePending a).pending = s.pending :=
  forEach_pending fun e t => by split <;> simp
@[simp] theorem State.agreeClassI_pending {a : Agreement} : (s.agreeClassI a).pending = s.pending := forEach_pending fun _ _ => rfl
@[simp] theorem State.agreeUnits_pending {a : Agreement} : (s.agreeUnits a).pending = s.pending := by simp [State.agreeUnits]
@[simp] theorem State.agreeTransit_pending {a : Agreement} : (s.agreeTransit a).pending = s.pending := by
  unfold State.agreeTransit
  split <;> simp [State.domeReport]
@[simp] theorem State.sendPropose_pending {p : Port} {fr : Option Frame} : (s.sendPropose p fr).pending = s.pending := by
  simp [State.sendPropose]

end Sys2Proof.Machine
end

section
/-! SUPPORT. What leaves the queue of commands as it is, each lemma after its definition: Zhomunyx programs, the idle points, ports and
meridians, trims. -/
namespace Sys2Proof.Machine
variable {s : State}

/-! ### Machine/ZxAlu -/

@[simp] theorem State.alu_leaves {z : Zx} {f : Bool} {d a b : Reg} {r : W → W → W → W} {fl : Ctx → W → W → W → Ctx} :
    Out.leaves s.pending (s.alu z f d a b r fl) := by
  simp [State.alu]
@[simp] theorem State.aluZN_leaves {z : Zx} {f : Bool} {d a b : Reg} {r : W → W → W → W} :
    Out.leaves s.pending (s.aluZN z f d a b r) := by
  simp [State.aluZN]
@[simp] theorem State.aluShift_leaves {k : Shift} {z : Zx} {f : Bool} {d a b : Reg} :
    Out.leaves s.pending (s.aluShift k z f d a b) := by
  simp [State.aluShift]
@[simp] theorem State.aluImm_leaves {z : Zx} {d a : Reg} {r : W → W} : Out.leaves s.pending (s.aluImm z d a r) := by simp [State.aluImm]

/-! ### Machine/ZxMem -/

@[simp] theorem State.load_leaves {z : Zx} {d a : Reg} {imm : BitVec 18} {n : Nat} {r : Nat → W} :
    Out.leaves s.pending (s.load z d a imm n r) := by
  simp [State.load]
@[simp] theorem State.storeReg_leaves {z : Zx} {d a : Reg} {imm : BitVec 18} {n : Nat} :
    Out.leaves s.pending (s.storeReg z d a imm n) := by
  simp [State.storeReg, State.thermalTake]

/-! ### Machine/ZxBranch -/

@[simp] theorem State.flow_pending {ag : Agent} {reason : Nat} {target : W} : (s.flow ag reason target).pending = s.pending := by
  fun_cases State.flow <;> simp
@[simp] theorem execPost_leaves {z : Zx} {imm : BitVec 18} : Out.leaves s.pending (execPost z imm s) := by
  unfold execPost
  split <;> simp

/-! ### Machine/ZxSync -/

@[simp] theorem State.ready_pending {e : Eng} {c : Fin 4} {f : Ctx → Ctx} : (s.ready e c f).pending = s.pending := by simp [State.ready]
@[simp] theorem execWait_leaves {z : Zx} {d a : Reg} : Out.leaves s.pending (execWait z d a s) := by
  unfold execWait
  split <;> simp
@[simp] theorem execWaitResume_leaves {ag : Agent} {c : Fin 4} : Out.leaves s.pending (execWaitResume ag c s) := by
  fun_cases execWaitResume <;> simp
@[simp] theorem execMerResume_leaves {e : Eng} {c : Fin 4} : Out.leaves s.pending (execMerResume e c s) := by
  fun_cases execMerResume <;> simp
@[simp] theorem execSend_leaves {z : Zx} {a : Reg} {ch dst : Fin 16} : Out.leaves s.pending (execSend z a ch dst s) := by
  unfold execSend
  dsimp only
  (repeat' split) <;> simp
@[simp] theorem execSendUnblock_leaves {e : Eng} {c : Fin 4} : Out.leaves s.pending (execSendUnblock e c s) := by
  fun_cases execSendUnblock <;> simp
@[simp] theorem State.chanPut_pending {e : Eng} {ch : Fin 16} {w : W} : (s.chanPut e ch w).pending = s.pending := by
  simp [State.chanPut]
@[simp] theorem execMessageDelivery_leaves {e : Eng} {k : Nat} : Out.leaves s.pending (execMessageDelivery e k s) := by
  fun_cases execMessageDelivery <;> simp [State.completionWord, State.outDrop]
@[simp] theorem State.chanTake_pending {e : Eng} {ch : Fin 16} : (s.chanTake e ch).pending = s.pending := by simp [State.chanTake]
@[simp] theorem execRecv_leaves {z : Zx} {d : Reg} {ch : Fin 16} {nb : Bool} : Out.leaves s.pending (execRecv z d ch nb s) :=
  State.zx_leaves fun c t => by
    split
    · rfl
    · split <;> simp
@[simp] theorem execRecvResume_leaves {e : Eng} {c : Fin 4} : Out.leaves s.pending (execRecvResume e c s) := by
  fun_cases execRecvResume <;> simp

/-! ### Machine/ZxTile -/

@[simp] theorem State.tileIssue_leaves {z : Zx} {load : Bool} {d a b : Reg} : Out.leaves s.pending (s.tileIssue z load d a b) :=
  State.zx_leaves fun c t => by
    dsimp only
    split
    · simp
    · split
      · simp
      · split
        · simp
        · split
          · simp
          · split <;> simp
@[simp] theorem State.xferMove_pending {ag : Agent} {x : Xfer} : (s.xferMove ag x).pending = s.pending := by simp [State.xferMove]
@[simp] theorem execTileTransferComplete_leaves {ag : Agent} {c tag : Fin 4} :
    Out.leaves s.pending (execTileTransferComplete ag c tag s) := by
  unfold execTileTransferComplete
  split
  · rfl
  · split
    · split
      · rfl
      · dsimp only
        split
        · simp
        · exact State.wake_pending.trans (Eq.trans (forEach_pending fun _ _ => rfl) (by simp))
    · split <;> simp
@[simp] theorem execTileInterlockStall_leaves {l : LaneNo} : Out.leaves s.pending (execTileInterlockStall l s) := by
  fun_cases execTileInterlockStall <;> simp

/-! ### Machine/ZxParam -/

@[simp] theorem execParam_leaves {z : Zx} {d a : Reg} {imm : BitVec 18} : Out.leaves s.pending (execParam z d a imm s) :=
  State.zx_leaves fun c t => by
    split
    · rfl
    · dsimp only
      split <;> simp

/-! ### Machine/IdleApply -/

@[simp] theorem State.applyTransit_pending : s.applyTransit.pending = s.pending := by
  simp [State.applyTransit, State.transitBlock, State.prodStart, State.trimRestore]
@[simp] theorem State.applyTwin_pending : s.applyTwin.pending = s.pending := by simp [State.applyTwin, State.twinBlock]
@[simp] theorem State.applyIdle_pending {blk : Nat} {period : Bool} : (s.applyIdle blk period).pending = s.pending := by
  simp [State.applyIdle]
@[simp] theorem State.commitSettle_pending {blk : Nat} : (s.commitSettle blk).pending = s.pending := by
  unfold State.commitSettle
  dsimp only
  (repeat' split) <;> simp
@[simp] theorem execCommit_leaves {z : Zx} {blk : BitVec 10} : Out.leaves s.pending (execCommit z blk s) := by
  unfold execCommit
  split <;> simp [State.commitCopy]

/-! ### Machine/PortRows -/

@[simp] theorem State.rowRead_pending {p : Port} {fr : Frame} {r : Nat} : (s.rowRead p fr r).pending = s.pending := by
  simp [State.rowRead]
@[simp] theorem State.colEstimate_pending {p : Port} : (s.colEstimate p).pending = s.pending := by
  unfold State.colEstimate
  split <;> simp
@[simp] theorem State.rowEstimate_pending {p : Port} {r : Nat} : (s.rowEstimate p r).pending = s.pending := by
  unfold State.rowEstimate
  split <;> simp
@[simp] theorem State.rowArrived_pending {p : Port} {r : Nat} : (s.rowArrived p r).pending = s.pending := by
  unfold State.rowArrived
  split <;> simp
@[simp] theorem State.portEvent_pending {p : Port} {k : Nat} : (s.portEvent p k).pending = s.pending := by simp [State.portEvent]
@[simp] theorem State.modArr_pending {p : Port} {f : ArrCounts → ArrCounts} : (s.modArr p f).pending = s.pending := by
  simp [State.modArr]
@[simp] theorem State.rowLost_pending {p : Port} {k : Nat} : (s.rowLost p k).pending = s.pending := by
  fun_cases State.rowLost <;> simp [State.extraRow]
@[simp] theorem State.rowEnter_pending {p : Port} {k r : Nat} {fr : Frame} {pk : RowPkt} :
    (s.rowEnter p k r fr pk).pending = s.pending := by
  simp [State.rowEnter]
@[simp] theorem State.rowPacket_pending {p : Port} {k : Nat} {pk : RowPkt} : (s.rowPacket p k pk).pending = s.pending := by
  unfold State.rowPacket
  dsimp only
  (repeat' split) <;> simp [State.rowMeasure]
@[simp] theorem State.headerBad_pending {p : Port} : (s.headerBad p).pending = s.pending := by
  unfold State.headerBad
  dsimp only
  (repeat' split) <;> simp
@[simp] theorem State.receive_pending {p : Port} {vc : BitVec 2} {ecc : Ecc} {body : State → State}
    (h : ∀ t, (body t).pending = t.pending) :
    (s.receive p vc ecc body).pending = s.pending := by
  unfold State.receive
  split
  · rfl
  · split <;> simp [h]
@[simp] theorem State.inFrame_pending {p : Port} {body : Frame → State → State} (h : ∀ x t, (body x t).pending = t.pending) :
    (s.inFrame p body).pending = s.pending := by
  fun_cases State.inFrame <;> simp [h]

/-! ### Machine/Meridian -/

@[simp] theorem State.openFrame_pending {p : Port} : (s.openFrame p).pending = s.pending := by simp [State.openFrame]
@[simp] theorem State.lanesTail_pending {p : Port} : (s.lanesTail p).pending = s.pending := by simp [State.lanesTail]
@[simp] theorem State.windowClose_pending {p : Port} : (s.windowClose p).pending = s.pending := by simp [State.windowClose]
@[simp] theorem State.merWake_pending {p : Port} : (s.merWake p).pending = s.pending := by simp [State.merWake]
@[simp] theorem State.slotWritten_pending {p : Port} {fr : Frame} : (s.slotWritten p fr).pending = s.pending := by
  unfold State.slotWritten
  dsimp only
  (repeat' split) <;> simp
@[simp] theorem State.frameOver_pending {p : Port} {why : Nat} {fe : Option (BitVec 16)} :
    (s.frameOver p why fe).pending = s.pending := by
  unfold State.frameOver
  extract_lets u v
  have hv : v.pending = s.pending := by unfold v u; split <;> simp
  split
  · exact hv
  · cases fe <;> simp [hv]
@[simp] theorem State.applyParams_pending {p : Port} {l : List (Nat × PMap)} {dev : Bool} {mid : State → State}
    (h : ∀ t, (mid t).pending = t.pending) :
    (s.applyParams p l dev mid).pending = s.pending := by
  simp [State.applyParams, h]
@[simp] theorem State.portEnds_pending {p : Port} : (s.portEnds p).pending = s.pending := by simp [State.portEnds]
@[simp] theorem State.stageTake_pending {p : Port} : (s.stageTake p).pending = s.pending := by simp [State.stageTake]
@[simp] theorem State.clustersBack_pending : s.clustersBack.pending = s.pending := by simp [State.clustersBack]
@[simp] theorem State.restoreTake_pending {p : Port} : (s.restoreTake p).pending = s.pending := by simp [State.restoreTake]
@[simp] theorem State.decideAlone_pending {p : Port} : (s.decideAlone p).pending = s.pending := by
  unfold State.decideAlone
  dsimp only
  (repeat' split) <;> simp
@[simp] theorem State.agreeDev_pending {a : Agreement} : (s.agreeDev a).pending = s.pending := by fun_cases State.agreeDev <;> simp
@[simp] theorem State.applyAgree_pending {p : Port} {a : Agreement} : (s.applyAgree p a).pending = s.pending := by
  simp [State.applyAgree, State.stageCarry, State.swapOwner]
@[simp] theorem State.takeAlone_pending {p : Port} : (s.takeAlone p).pending = s.pending := by
  fun_cases State.takeAlone <;> simp [State.unitsAlone, State.ephemerisTake]
@[simp] theorem State.takeTwin_pending {p : Port} : (s.takeTwin p).pending = s.pending := by fun_cases State.takeTwin <;> simp
@[simp] theorem State.windowTurn_pending {p : Port} : (s.windowTurn p).pending = s.pending := by simp [State.windowTurn]
@[simp] theorem State.portOn_pending {p : Port} {twin : Bool} : (s.portOn p twin).pending = s.pending := by
  simp [State.portOn, State.deferMark, State.holdSettle, State.stopTransit, State.sceneSwitch, State.transitTriggers]
@[simp] theorem State.restoreIdle_pending : s.restoreIdle.pending = s.pending := by fun_cases State.restoreIdle <;> simp
@[simp] theorem State.afterStop_pending : s.afterStop.pending = s.pending := by simp [State.afterStop]
@[simp] theorem State.meridian_pending {p : Port} {why : Nat} {fe : Option (BitVec 16)} :
    (s.meridian p why fe).pending = s.pending := by
  unfold State.meridian
  extract_lets s1 _ _ s2 _ _ _ s3 s4 s5 s6 s7 _ s8 s9 s10
  have h6 : s6.pending = s.pending := by simp [s6, s5, s4, s3, s2, s1]
  have h7 : s7.pending = s6.pending := by unfold s7; split <;> simp
  simp [s10, s9, s8, h7, h6]

/-! ### Machine/Port -/

@[simp] theorem State.portRun_pending {p : Port} : (s.portRun p).pending = s.pending := by simp [State.portRun]
@[simp] theorem State.frameBegin_pending {p : Port} {fno : BitVec 16} : (s.frameBegin p fno).pending = s.pending := by
  unfold State.frameBegin
  dsimp only
  (repeat' split) <;> simp [State.streamsTake, State.streamTake]
@[simp] theorem execFrameStart_leaves {p : Port} {vc : BitVec 2} {ecc : Ecc} {n : BitVec 16} :
    Out.leaves s.pending (execFrameStart p vc ecc n s) :=
  State.receive_pending fun t => by dsimp only; split <;> simp
@[simp] theorem execFrameEnd_leaves {p : Port} {vc : BitVec 2} {ecc : Ecc} {n : BitVec 16} :
    Out.leaves s.pending (execFrameEnd p vc ecc n s) :=
  State.receive_pending fun _ => State.inFrame_pending fun _ _ => State.meridian_pending
@[simp] theorem execFrameTimeout_leaves {p : Port} : Out.leaves s.pending (execFrameTimeout p s) := by
  unfold execFrameTimeout
  split
  · rfl
  · split <;> simp
@[simp] theorem execRowPacket_leaves {p : Port} {k : RowPkt} : Out.leaves s.pending (execRowPacket p k s) :=
  State.receive_pending fun t => State.inFrame_pending fun fr t => by split <;> simp
@[simp] theorem execHsSyncError_leaves {p : Port} {align : Bool} {dt : BitVec 6} :
    Out.leaves s.pending (execHsSyncError p align dt s) := by
  unfold execHsSyncError
  dsimp only
  (repeat' split) <;> simp

/-! ### Machine/TwinCmds -/

@[simp] theorem State.serveImage_pending {bs : List Byte} : (s.serveImage bs).pending = s.pending := by simp [State.serveImage]
@[simp] theorem execLinkTrained_leaves {r : Option (List Byte)} : Out.leaves s.pending (execLinkTrained s r) := by
  unfold execLinkTrained
  cases r <;> simp
@[simp] theorem State.proposeCheck_pending {p : Port} : (s.proposeCheck p).pending = s.pending := by
  unfold State.proposeCheck
  dsimp only
  (repeat' split) <;> simp
@[simp] theorem execAgreeSend_leaves {p : Port} : Out.leaves s.pending (execAgreeSend p s) := by
  unfold execAgreeSend
  dsimp only
  (repeat' split) <;> simp
@[simp] theorem State.agreeAtOnce_pending {a : Agreement} : (s.agreeAtOnce a).pending = s.pending := by
  unfold State.agreeAtOnce
  split <;> simp
@[simp] theorem execState_leaves {r : Option ResyncRow} {h : RxHdr} : Out.leaves s.pending (execState r s h) := by
  unfold execState
  split <;> simp
@[simp] theorem State.rowInstalled_pending {p : Port} {row : Nat} : (s.rowInstalled p row).pending = s.pending := by
  unfold State.rowInstalled
  dsimp only
  (repeat' split) <;> simp
@[simp] theorem execResyncRowInstall_leaves {p : Port} {row : Nat} : Out.leaves s.pending (execResyncRowInstall p row s) := by
  unfold execResyncRowInstall
  split <;> simp
@[simp] theorem State.sweepSend_pending {p : Port} {row : Nat} : (s.sweepSend p row).pending = s.pending := by
  unfold State.sweepSend
  dsimp only
  (repeat' split) <;> simp
@[simp] theorem execResyncRowSend_leaves {p : Port} {row : Nat} : Out.leaves s.pending (execResyncRowSend p row s) := by
  simp [execResyncRowSend]
@[simp] theorem execImage_leaves {bs : List Byte} {x : RxHdr} : Out.leaves s.pending (execImage bs s x) :=
  State.onFrame_pending fun t => by
    dsimp only
    split <;> simp

/-! ### Machine/Trim -/

@[simp] theorem State.trimCluster_pending {m : TrimMeas} {k : Fin 12} : (s.trimCluster m k).pending = s.pending := by
  unfold State.trimCluster
  split <;> simp
@[simp] theorem State.modTrimAsk_pending {k : Fin 8} : (s.modTrimAsk k).pending = s.pending := by simp [State.modTrimAsk]

end Sys2Proof.Machine
end

section
/-! SUPPORT. What leaves the queue of commands as it is, each lemma after its definition: the master ports, the store, the NV store, Laeno,
the host port, outputs, the services of fixed logic, the vector instructions. -/
namespace Sys2Proof.Machine
variable {s : State}

/-! ### Machine/Masters -/

@[simp] theorem State.xipWord_pending {a : Nat} : (s.xipWord a).2.pending = s.pending := by fun_cases State.xipWord <;> simp
@[simp] theorem State.xipInvalidate_pending : s.xipInvalidate.pending = s.pending := by simp [State.xipInvalidate]
@[simp] theorem State.mp0Finish_pending {i : Nat} {code : Byte} : (s.mp0Finish i code).pending = s.pending := by simp [State.mp0Finish]
@[simp] theorem State.mp0Issue_pending {ctl : W} {c : Mp0Cmd} {ops : List XspiOp} : (s.mp0Issue ctl c ops).pending = s.pending := by
  simp [State.mp0Issue]
@[simp] theorem State.mp0Start_pending : s.mp0Start.pending = s.pending := by
  unfold State.mp0Start
  dsimp only
  (repeat' split) <;> simp [State.fillStart, State.mp0RingStart]
@[simp] theorem State.mp0Host_pending {code : Byte} : (s.mp0Host code).pending = s.pending := by simp [State.mp0Host]
@[simp] theorem State.mp0End_pending {bs : List Byte} : (s.mp0End bs).pending = s.pending := by
  unfold State.mp0End
  split <;> simp [State.mp0Piece]
@[simp] theorem execMp0PollTimeout_leaves : Out.leaves s.pending (execMp0PollTimeout s) := by
  unfold execMp0PollTimeout
  dsimp only
  (repeat' split) <;> simp
@[simp] theorem State.mp1Write_pending {e : Fin 5} {i : Nat} {code : Byte} : (s.mp1Write e i code).pending = s.pending := by
  simp [State.mp1Write]
@[simp] theorem State.mp1Refuse_pending {e : Fin 5} : (s.mp1Refuse e).pending = s.pending := by
  unfold State.mp1Refuse
  dsimp only
  (repeat' split) <;> simp
@[simp] theorem State.mp1Begin_pending {e : Fin 5} : (s.mp1Begin e).pending = s.pending := by
  unfold State.mp1Begin
  split <;> simp
@[simp] theorem State.mp1Late_pending {since : List Nat} {e : Fin 5} : (s.mp1Late since e).pending = s.pending := by
  fun_cases State.mp1Late <;> simp [State.mp1Defer]
@[simp] theorem execMp1TransferStart_leaves {sinceUs10 : List Nat} {rested : BitVec 8} :
    Out.leaves s.pending (execMp1TransferStart sinceUs10 rested s) := by
  unfold execMp1TransferStart
  split
  · rfl
  · dsimp only
    split <;> simp
@[simp] theorem State.mp1Over_pending {x : Mp1Xfer} {code : Byte} : (s.mp1Over x code).pending = s.pending := by simp [State.mp1Over]
@[simp] theorem execMp1TransferEnd_leaves {rx : List Byte} {late : Bool} : Out.leaves s.pending (execMp1TransferEnd rx late s) := by
  unfold execMp1TransferEnd
  split <;> simp
@[simp] theorem execMp1ReadyTimeout_leaves : Out.leaves s.pending (execMp1ReadyTimeout s) := by fun_cases execMp1ReadyTimeout <;> simp

/-! ### Machine/StoreCmds -/

@[simp] theorem State.hostPut_pending {a : Nat} {bs : List Byte} : (s.hostPut a bs).pending = s.pending := by simp [State.hostPut]
@[simp] theorem State.hostPuts_pending {n a : Nat} {ws : List W} : (State.hostPuts n a ws s).pending = s.pending := by
  induction n generalizing a ws s with
  | zero => rfl
  | succ n ih =>
    match ws with
    | [] => rfl
    | [w] => exact State.hostPut_pending
    | w :: v :: r => simp [State.hostPuts, ih]
@[simp] theorem State.apertureGet_pending {i : Nat} : (s.apertureGet i).2.pending = s.pending := by simp [State.apertureGet]
@[simp] theorem State.loadPut_pending {off : Nat} {w : W} : (s.loadPut off w).pending = s.pending := by fun_cases State.loadPut <;> simp
@[simp] theorem State.loadPuts_pending {off : Nat} {ws : List W} : (s.loadPuts off ws).pending = s.pending := by
  unfold State.loadPuts
  split
  · simp
  · exact forEach_pending fun x t => by simp
@[simp] theorem State.loadGet_pending {off : Nat} : (s.loadGet off).2.pending = s.pending := by
  fun_cases State.loadGet <;> simp [State.engineWord]

/-! ### Machine/NvCmds -/

@[simp] theorem State.hostPage_pending {q off : Nat} {bs : List Byte} {src : NvSrc} {skip : Nat × Nat} :
    (s.hostPage q off bs src skip).pending = s.pending := by
  simp [State.hostPage]
@[simp] theorem State.pwinPut_pending {off : Nat} {ws : List W} : (s.pwinPut off ws).pending = s.pending :=
  forEach_pending fun _ _ => State.hostPage_pending
@[simp] theorem State.almWin_pending {x : Nat} : (s.almWin x).2.pending = s.pending := by simp [State.almWin]
@[simp] theorem execAlmanacRecordEnter_leaves : Out.leaves s.pending (execAlmanacRecordEnter s) := by
  unfold execAlmanacRecordEnter
  dsimp only
  (repeat' split) <;> simp [State.queueTake]

/-! ### Machine/Laeno -/

@[simp] theorem State.traceSync_pending : s.traceSync.pending = s.pending := by simp [State.traceSync]
@[simp] theorem execLaenoPacketSend_leaves : Out.leaves s.pending (execLaenoPacketSend s) := by
  unfold execLaenoPacketSend
  dsimp only
  (repeat' split) <;> simp

/-! ### Machine/HostMap -/

@[simp] theorem State.identRead_pending {a : Nat} : (s.identRead a).2.pending = s.pending := by fun_cases State.identRead <;> simp
@[simp] theorem State.queueRead_pending {a : Nat} : (s.queueRead a).2.pending = s.pending := by fun_cases State.queueRead <;> simp
@[simp] theorem State.eventsRead_pending {a : Nat} : (s.eventsRead a).2.pending = s.pending := by
  obtain ⟨o, ho⟩ : ∃ o, a - 0x20000 = o := ⟨_, rfl⟩
  unfold State.eventsRead
  simp only [ho]
  split_ifs <;> rfl
@[simp] theorem State.almanacRead_pending {a : Nat} : (s.almanacRead a).2.pending = s.pending := by
  unfold State.almanacRead
  split
  · exact State.almWin_pending
  · split <;> rfl
@[simp] theorem State.nvRegRead_pending {a : Nat} : (s.nvRegRead a).2.pending = s.pending := by
  fun_cases State.nvRegRead <;> simp [State.nvWin, State.pwin]
@[simp] theorem State.sextantRead_pending {a : Nat} : (s.sextantRead a).2.pending = s.pending := by
  obtain ⟨o, ho⟩ : ∃ o, a - 0x2C000 = o := ⟨_, rfl⟩
  unfold State.sextantRead
  simp only [ho]
  repeat' split
  all_goals simp
@[simp] theorem State.thermalRead_pending {a : Nat} : (s.thermalRead a).2.pending = s.pending := by
  unfold State.thermalRead
  dsimp only
  (repeat' split) <;> rfl
@[simp] theorem State.faultsRead_pending {a : Nat} : (s.faultsRead a).2.pending = s.pending := by
  unfold State.faultsRead
  dsimp only
  (repeat' split) <;> rfl
@[simp] theorem State.twinRead_pending {a : Nat} : (s.twinRead a).2.pending = s.pending := by fun_cases State.twinRead <;> simp
@[simp] theorem State.observeRead_pending {a : Nat} : (s.observeRead a).2.pending = s.pending := by fun_cases State.observeRead <;> simp
@[simp] theorem State.mastersRead_pending {a : Nat} : (s.mastersRead a).2.pending = s.pending := by fun_cases State.mastersRead <;> simp
@[simp] theorem State.hostWord_pending {a : Nat} : (s.hostWord a).2.pending = s.pending := by
  unfold State.hostWord
  extract_lets some'
  have answer {r : W × State} (h : r.2.pending = s.pending) : (some' r).2.pending = s.pending := h
  split <;> simp [answer]

/-! ### Machine/QueueCmds -/

@[simp] theorem execCmdEntryDeliver_leaves : Out.leaves s.pending (execCmdEntryDeliver s) := by fun_cases execCmdEntryDeliver <;> simp
@[simp] theorem execCompletionPlace_leaves : Out.leaves s.pending (execCompletionPlace s) := by fun_cases execCompletionPlace <;> simp

/-! ### Machine/HostPort -/

@[simp] theorem State.loadCtl_pending {v : W} : (s.loadCtl v).pending = s.pending := by
  unfold State.loadCtl
  extract_lets code
  split <;> simp
@[simp] theorem State.hostSet_pending {a : Nat} {w : W} : (s.hostSet a w).pending = s.pending := by
  fun_cases State.hostSet <;> simp [State.cplCi, State.evtClear, State.secPut, State.nvLock, State.accClr, State.mapClear,
    State.laenoCtl, State.cfgWrite, State.rdcmdWrite, State.hgo, State.swWrite]
@[simp] theorem State.hostSets_pending {a : Nat} {ws : List W} : (State.hostSets a ws s).pending = s.pending := by
  induction ws generalizing a s with
  | nil => rfl
  | cons w ws ih => simp [State.hostSets, ih]
@[simp] theorem State.hostApply_pending {addr : Nat} {ws : List W} : (s.hostApply addr ws).pending = s.pending := by
  simp [State.hostApply, State.submitPut, State.winPut, State.unlock, State.pwset, State.aperturePut]
@[simp] theorem State.hostApplyOne_pending : s.hostApplyOne.pending = s.pending := by
  unfold State.hostApplyOne
  split <;> simp
@[simp] theorem State.hostDrain_pending : s.hostDrain.pending = s.pending := by simp [State.hostDrain]
@[simp] theorem State.hostJudge_pending {addr : Nat} {ws : List W} {cut : Cut} : (s.hostJudge addr ws cut).pending = s.pending := by
  unfold State.hostJudge
  split <;> simp
@[simp] theorem State.hostTake_pending {addr : W} {ws : List W} {cut : Cut} : (s.hostTake addr ws cut).pending = s.pending := by
  simp [State.hostTake]
@[simp] theorem State.frameGo_pending : s.frameGo.pending = s.pending := by fun_cases State.frameGo <;> simp
@[simp] theorem State.hostWrite_pending {addr : Nat} {ws : List W} : (s.hostWrite addr ws).pending = s.pending := by
  simp [State.hostWrite]
@[simp] theorem State.readWords_pending {l : List Nat} : (State.readWords l s).pending = s.pending := by
  induction l generalizing s with
  | nil => rfl
  | cons a l ih =>
    have h : (s.hostWord a).2.pending = s.pending := State.hostWord_pending
    unfold State.readWords
    split <;> (next heq => rw [heq] at h; simpa [ih] using h)
@[simp] theorem State.readGo_pending : s.readGo.pending = s.pending := by simp [State.readGo]
@[simp] theorem State.hostRead_pending {addr n : Nat} {cut : Cut} : (s.hostRead addr n cut).pending = s.pending := by
  simp [State.hostRead]
@[simp] theorem State.hostByte_pending {c : Byte} {addr : W} {ws : List W} {n : Nat} {cut : Cut} :
    (s.hostByte c addr ws n cut).pending = s.pending := by
  fun_cases State.hostByte <;> simp [State.hostFrame, State.hostStatus]
@[simp] theorem execHrdyTimeout_leaves : Out.leaves s.pending (execHrdyTimeout s) := by
  unfold execHrdyTimeout
  split <;> simp

/-! ### Machine/Outputs -/

@[simp] theorem State.srcRow_pending {st : Fin 8} {f : OutFrame} {r : Nat} : (s.srcRow st f r).2.2.pending = s.pending := by
  unfold State.srcRow
  dsimp only
  (repeat' split) <;> simp
@[simp] theorem State.imageLine_pending {st : Fin 8} {f : OutFrame} {j : Nat} : (s.imageLine st f j).2.2.pending = s.pending :=
  foldl_snd_snd_pending fun _ _ => State.srcRow_pending
@[simp] theorem State.exportLine_pending {st : Fin 8} {f : OutFrame} {j : Nat} : (s.exportLine st f j).2.2.pending = s.pending :=
  foldl_snd_snd_pending fun a x => by dsimp only; split <;> simp
@[simp] theorem execStreamFrameStart_leaves {st : Fin 8} : Out.leaves s.pending (execStreamFrameStart st s) := by
  unfold execStreamFrameStart
  split <;> simp
@[simp] theorem State.ringPut_pending {st : Fin 8} {bs : List Byte} : (s.ringPut st bs).pending = s.pending := by simp [State.ringPut]
@[simp] theorem execStreamLineSend_leaves {st : Fin 8} : Out.leaves s.pending (execStreamLineSend st s) := by
  unfold execStreamLineSend
  split <;> simp
@[simp] theorem execTxPacket_leaves {x : Fin 2} : Out.leaves s.pending (execTxPacket x s) := by
  unfold execTxPacket
  dsimp only
  (repeat' split) <;> simp [State.streamFrameOver]

/-! ### Machine/Svc -/

@[simp] theorem State.svcResult_pending {z : Zx} {e : Eng} {c : Ctx} {d : Reg} {res : Nat} :
    (s.svcResult z e c d res).pending = s.pending := by
  simp [State.svcResult]
@[simp] theorem State.svc_leaves {z : Zx} {d : Reg} {service : Nat} {res : Eng → Ctx → State → Nat} {act : Eng → Ctx → State → State}
    (h : ∀ e c t, (act e c t).pending = t.pending) :
    Out.leaves s.pending (s.svc z d service res act) :=
  State.zx_leaves fun c t => by split <;> simp [h]
@[simp] theorem State.testPlace_pending {u : Fin 182} {r : Req} : (s.testPlace u r).pending = s.pending := by
  unfold State.testPlace
  dsimp only
  (repeat' split) <;> simp
@[simp] theorem execSvcSelfTest_leaves {z : Zx} {d a : Reg} : Out.leaves s.pending (execSvcSelfTest z d a s) :=
  State.svc_leaves fun e c t => by dsimp only; split <;> simp
@[simp] theorem State.retirePlace_pending {u : Fin 182} {r : Req} : (s.retirePlace u r).pending = s.pending := by
  simp [State.retirePlace]
@[simp] theorem execSvcRequestRetirement_leaves {z : Zx} {d a : Reg} : Out.leaves s.pending (execSvcRequestRetirement z d a s) :=
  State.svc_leaves fun e c t => by dsimp only; split <;> simp
@[simp] theorem execSvcNoteRecord_leaves {z : Zx} {d a : Reg} : Out.leaves s.pending (execSvcNoteRecord z d a s) := by
  unfold execSvcNoteRecord
  split
  · simp
  · refine State.zx_leaves fun c t => ?_
    dsimp only
    split
    · simp
    · split
      · simp
      · split <;> simp

/-! ### Machine/ZxVector -/

@[simp] theorem State.vec_leaves {z : Zx} {body : LaneNo → Lane → Ctx → State → State}
    (h : ∀ l x c t, (body l x c t).pending = t.pending) :
    Out.leaves s.pending (s.vec z body) :=
  State.zx_leaves fun c t => by split <;> simp [h]
@[simp] theorem State.vdone_pending {l : LaneNo} {c : Ctx} {p : Fin 4} {vd : Fin 8} {r : Vec} :
    (s.vdone l c p vd r).pending = s.pending := by
  simp [State.vdone]
@[simp] theorem State.vop_leaves {z : Zx} {p : Fin 4} {vd va vb : Fin 8} {bad : Option Byte} {f : W → W → W → W} :
    Out.leaves s.pending (s.vop z p vd va vb bad f) := by
  unfold State.vop
  split <;> simp
@[simp] theorem State.vTroubled_pending {l : LaneNo} {c : Ctx} {t : VTrouble} : (s.vTroubled l c t).pending = s.pending := by
  fun_cases State.vTroubled <;> simp
@[simp] theorem execVld_leaves {z : Zx} {p : Fin 4} {vd : Fin 8} {g : Reg} {mode : Fin 4} {off : BitVec 9} :
    Out.leaves s.pending (execVld z p vd g mode off s) :=
  State.vec_leaves fun l x c t => by
    dsimp only
    split
    · simp
    · exact State.vdone_pending.trans (forEach_pending fun ea t => by split <;> simp)
@[simp] theorem execVst_leaves {z : Zx} {p : Fin 4} {vd : Fin 8} {g : Reg} {mode : Fin 4} {off : BitVec 9} :
    Out.leaves s.pending (execVst z p vd g mode off s) :=
  State.vec_leaves fun l x c t => by
    dsimp only
    split
    · simp
    · split
      · simp
      · exact State.done_pending.trans (forEach_pending fun i t => by split <;> simp)

end Sys2Proof.Machine
end

section
/-! SUPPORT. Every command completes and leaves the queue of commands as it is. -/
namespace Sys2Proof.Machine

/-- No command is refused or faults, and none touches the queue. -/
theorem exec_leaves (c : Instr) (s : State) : Out.leaves s.pending (exec c s) := by
  unfold exec
  cases c with
  | add | sub => exact State.alu_leaves
  | and | or | xor | mul | mulh | min | max | clamp => exact State.aluZN_leaves
  | shl | shr | sra => exact State.aluShift_leaves
  | addi | andi | ori | xori | shli | shri | srai | lui => exact State.aluImm_leaves
  | sel | cmpi => simp [execSel, execCmpi]
  | ldW | ldH | ldHs | ldB | ldBs => exact State.load_leaves
  | stW | stH | stB => exact State.storeReg_leaves
  | ldPb | param => simp [execLdPb]
  | commit | paramBlockIdleApply => simp [execParamBlockIdleApply]
  | bcc | call | ret | loop | post => simp [execBcc, execCall, execRet, execLoop]
  | wait | waitResume | mer | merResume | send | sendUnblock | messageDelivery | recv | recvResume => simp [execMer]
  | yield | hearthInvocation | radiometricRow | statsNotifyDeliver | frameDeadline | invocationTimeout =>
    simp [execStatsNotifyDeliver, execFrameDeadline, execInvocationTimeout]
  | tileLd | tileSt => exact State.tileIssue_leaves
  | tileTransferComplete | tileInterlockStall => simp
  | svcStartTransit | svcSelfTest | svcNoteRecord | svcRequestRetirement | svcReadAgreedTime =>
    simp [execSvcStartTransit, execSvcReadAgreedTime]
  | vadd | vsub | vmul | vmac | vpoly | vmed3 | vclamp => exact State.vop_leaves
  | vld | vst | vsel | vcmp | vshr | vsat => simp [execVsel, execVcmp, execVshr, execVsat]
  | resetRelease | bootLoadComplete | bootImageTimeout | meRestartDone | loadGoDone | storeInitDone | pfailNRise =>
    simp [execBootLoadComplete, State.bootLoad, execBootImageTimeout, execLoadGoDone, execPfailNRise]
  | go | startEngine | stopEngine | abortStop | loadWindowWrite | cmdSubmit | cplCiWrite | apertureWrite | fmMapClear | sxAccClr |
  mp0Hgo | mp0CfgWrite | mpSwsel | flush | almClear | nvWinWrite | nvPwinWrite | nvUnlock | nvLock | nvPwset | nvSecWrite |
  laenoCtlWrite => exact State.hostWrite_pending
  | apertureRead | resLoRead | accLoRead | lastLoRead | almWinLastRead | counterLoRead | stkCeLoRead | twinPeerSnLoRead |
  serialLoRead | optimeLoRead | agreedLoRead => exact State.hostRead_pending
  | hostWriteSingle | hostWriteQuad | hostReadSingle | hostReadQuad | hostStatus => exact State.hostByte_pending
  | hostUnknownCommand | hostWriteApply | hrdyTimeout | mp0CommandDone =>
    simp [execHostUnknownCommand, execHostWriteApply, execMp0CommandDone]
  | cmdEntryDeliver | completionPlace => simp
  | frameStart | frameEnd | frameTimeout | stallTimeout | lineStart | rowPacket | embeddedData | hsSyncError | skewCalibration |
  ulpsTransition | settingsWindowClose | portSelfTest =>
    simp [execStallTimeout, execLineStart, execEmbeddedData, execSkewCalibration, execUlpsTransition, execSettingsWindowClose,
      execPortSelfTest]
  | transitCloseTimeout | transitOpenTimeout | transitAccumulate | transitFinish | transitStagingComplete | transitMergeRow |
  productionLoadDone => simp [execProductionLoadDone]
  | selfTrimPass => simp [execSelfTrimPass]
  | rowCopyDone | rowCopyBackDone | unitDrained | retryBudgetOverrun => simp
  | migrationBlockMove | scrubRead | scrubLate => simp [execMigrationBlockMove, State.migrate, execScrubRead, execScrubLate]
  | streamFrameStart | streamLineSend | txPacket | txUlpsEntry => simp [execTxUlpsEntry]
  | selfTestDone | sensorRecheck | sensorReading | stageUp | stageDown | powerFail | railUndervoltage | handoverDone |
  logicDiePowerLoss | powerFailRelease | powerOnReset | deviceReset | nvPageWriteDone | sensorReadingMissing | pwrVcoreUpdate =>
    simp [execSensorRecheck, execSensorReading, State.sensorReading, execStageUp, execStageDown, execPowerFail, execRailUndervoltage,
      State.storeLose, execLogicDiePowerLoss, execPowerOnReset, execDeviceReset, execNvPageWriteDone, execSensorReadingMissing,
      execPwrVcoreUpdate]
  | heartbeatSend | heartbeat | hello | propose | agreeSend | agree | digest | outcome | state | resyncRowInstall | resyncRowSend |
  almanac | nvwrite | msg | image | ack | ackSend | linkResend | linkTrained | linkRetrain | pairingTimeout | partnerLost |
  peerOwnerChange | ownerWatchdogExpire | ownerWatchdogRefresh =>
    simp [execHeartbeatSend, execHeartbeat, State.heartState, execHello, State.paired, State.wantLower, execPropose, execAgree,
      execDigest, execOutcome, execAlmanac, execNvwrite, execMsg, execAck, execAckSend, execLinkResend, execLinkRetrain,
      execPairingTimeout, execPartnerLost, execPeerOwnerChange, execOwnerWatchdogExpire, execOwnerWatchdogRefresh]
  | sextantTrigger | sequenceStart | sextantConversion | sextantDrain => simp [execSextantTrigger, State.sxTrigger, execSequenceStart]
  | bellowsLoopPeriod | pullInEnd | holdEnd | releaseEnd | openSettleEnd | positionReport | testPulseEnd | bellowsOvercurrent |
  bellowsRegulationError | switchFault | vactUndervoltage =>
    simp [execBellowsLoopPeriod, execPullInEnd, execHoldEnd, execReleaseEnd, execOpenSettleEnd, execPositionReport, execTestPulseEnd,
      execBellowsOvercurrent, execBellowsRegulationError, execSwitchFault, execVactUndervoltage, State.blwLowVact]
  | mp0CommandStart | mp0PollTimeout | mp1TransferStart | mp1TransferEnd | mp1ReadyTimeout => simp [execMp0CommandStart]
  | almanacRecordEnter | nvLockoutEnd | counterSave | optimeTick => simp [execNvLockoutEnd, execCounterSave, execOptimeTick]
  | refclkLost | refclkRestored | pllLocked | portClockSwitch | dcoRestart | islandResetRelease | pllLockLost | islandClockOutOfRange =>
    simp [execRefclkLost, execRefclkRestored, execPllLocked, execPortClockSwitch, execDcoRestart, execIslandResetRelease,
      State.fenceDrop, execPllLockLost, execIslandClockOutOfRange]
  | laenoPacketSend | laenoSync | laenoCounterSample => simp [execLaenoSync, execLaenoCounterSample]

end Sys2Proof.Machine
open Sys2Proof Sys2Proof.Machine

/-- Settles O3: the step is the front command on the queue's rest (`step_of_pending`), which the command leaves as it is (`exec_leaves`). -/
theorem everyStepLeavesTheRestOfTheQueue : Obligations.EveryStepLeavesTheRestOfTheQueue := by
  unfold Obligations.EveryStepLeavesTheRestOfTheQueue
  intro s c q h
  rw [step_of_pending h]
  exact (exec_leaves c _).exists_next
end
